-- ==== Sys2Proof/Word.lean ====
section
/-! DEFINITION. The word types of the part: bytes, 16-bit counts, 32-bit registers and host
addresses, and the 40-bit unit number (R210, scope "Node terms"); and the names of its two lines. -/

namespace Sys2Proof

/-- One byte of a frame or of a record. -/
abbrev Byte := BitVec 8

/-- A 16-bit value: a ring count, a digest or a seed. -/
abbrev Half := BitVec 16

/-- A 32-bit value: a register, a host address, a tag, the millisecond count. -/
abbrev Word := BitVec 32

/-- A node's unit number as its 5 bytes; the value 0 is no unit number (R49). -/
abbrev UnitNo := BitVec 40

/-- A zone set: zone z is bit z - 1 (R211). -/
abbrev ZoneSet := BitVec 12

/-- The two field lines (scope, "Per-line matters"). -/
inductive Line where
  | a
  | b
deriving DecidableEq, Repr

end Sys2Proof
end

