-- ==== Sys2Proof/Config.lean ====
section
/-! DEFINITION. The free values of the model: what the seed generator supplies (scope, "Seed
generator"), when the part releases TX during a frame (R24), and what the manual does not say. They
have no body, so no proof can rest on a value of theirs (assumption log 1, 7 and 28). -/

namespace Sys2Proof.Config

/-- The 16-bit seed of the n-th draw of the seed generator (R129). Free value, assumption log 1. -/
opaque seed : Nat → Half

/-- The n-th backoff draw of the seed generator, less one (R31: 1 to 8 gap units). Free value,
assumption log 1. -/
opaque backoff : Nat → Fin 8

/-- In the n-th drawn millisecond of CALLING, the TX of a line was released all along, so that its
low timer ran (R24). Free value, assumption log 7. -/
opaque released : Nat → Line → Bool

/-- The ring number by which a RING_FAULT record names the notice ring (R212). Free value,
assumption log 28. -/
opaque noticeRingNumber : Byte

end Sys2Proof.Config
end

