-- ==== Sys2Proof/Syntax.lean ====
section
/-! DEFINITION. The commands of the part: one constructor of `Instr` for each row of
spec/opcode_table.json, in the table's order, with the operands the row's rule speaks of. -/

namespace Sys2Proof

/-- A node address 1 to 80, held as the address less one (R43: entries are indexed by address). -/
abbrev Addr := Fin 80

/-- A zone 1 to 12, held as the zone less one. -/
abbrev Zone := Fin 12

/-- A slot number 0 to 23 (R63). -/
abbrev SlotId := Fin 24

/-- A work ring number 0 to 7 (R174). -/
abbrev WorkRingId := Fin 8

/-- A result ring number 0 to 3 (R181). -/
abbrev ResultRingId := Fin 4

/-- A reflex index 0 to 31 (R159). -/
abbrev ReflexId := Fin 32

/-- The rings the part writes: four result rings and the notice ring (R181, R188). -/
inductive RingName where
  | result (q : ResultRingId)
  | notice
deriving DecidableEq, Repr

/-- The two requesters of work-record fetches (R173, R179). -/
inductive Fetcher where
  | slotTable
  | adminUnit
deriving DecidableEq, Repr

/-- The 32 bytes of a record or of the boot block, as read from host memory (R212). -/
abbrev Record := Vector Byte 32

/-- The commands and events of the part, one constructor for each row of the table. -/
inductive Instr where
  /-- POWER_ON_RESET (R202): a pulse of the RESET pin. -/
  | powerOnReset
  /-- HOST_RESET (R195, R202): a CTRL write naming HOST_RESET, with its other bits. -/
  | hostReset (start stop enable : Bool)
  /-- START (R195): a CTRL write naming START alone, with its interrupt enable bit. -/
  | start (enable : Bool)
  /-- STOP (R195, R199): a CTRL write naming STOP alone, with its interrupt enable bit. -/
  | stop (enable : Bool)
  /-- INTERRUPT_ENABLE (R195): a CTRL write that acts on the enable alone: it names no command
  (`both` false), or START and STOP together (`both` true). -/
  | interruptEnable (both enable : Bool)
  /-- REGISTER_WRITE (R194, R213): a write of a value at an offset of the register window. -/
  | registerWrite (offset value : Word)
  /-- POST (R177): a write of the POST register. -/
  | post (value : Word)
  /-- TAKE (R184): a write of the TAKE register. -/
  | take (value : Word)
  /-- SIGNAL (R191): a write of the SIGNAL register. -/
  | signal (value : Word)
  /-- BOOT_BLOCK_READ (R197): the boot block read completes with these bytes. -/
  | bootBlockRead (block : Record)
  /-- BOOT_FAULT (R197): the boot block read ends with a bus error. -/
  | bootFault
  /-- CALL (R66, R89): the record of the slot table's fetch arrives, with kind code 01h. -/
  | call (r : Record)
  /-- SWEEP (R66, R98): as CALL, with kind code 02h. -/
  | sweep (r : Record)
  /-- PARAM_WRITE (R66, R104): as CALL, with kind code 03h. -/
  | paramWrite (r : Record)
  /-- DISCOVER (R66, R127): as CALL, with kind code 04h. -/
  | discover (r : Record)
  /-- UNKNOWN_WORK_KIND (R67): as CALL, with any other code. -/
  | unknownWorkKind (r : Record)
  /-- FETCH_FAULT (R178): the fetch of this requester ends with a bus error. -/
  | fetchFault (f : Fetcher)
  /-- OPEN_WORK_RING (R174, R205): the admin unit's fetch arrives, with request code 40h. -/
  | openWorkRing (r : Record)
  /-- CLOSE_WORK_RING (R180, R205), code 41h. -/
  | closeWorkRing (r : Record)
  /-- OPEN_RESULT_RING (R181, R205), code 42h. -/
  | openResultRing (r : Record)
  /-- CLOSE_RESULT_RING (R186, R205), code 43h. -/
  | closeResultRing (r : Record)
  /-- OPEN_NOTICE_RING (R188, R205), code 44h. -/
  | openNoticeRing (r : Record)
  /-- CLOSE_NOTICE_RING (R188, R205), code 45h. -/
  | closeNoticeRing (r : Record)
  /-- LINE_SET (R40, R206), code 46h. -/
  | lineSet (r : Record)
  /-- LINE_ENABLE (R23, R206), code 47h. -/
  | lineEnable (r : Record)
  /-- LINE_DISABLE (R42, R206), code 48h. -/
  | lineDisable (r : Record)
  /-- LINE_RESET (R41, R206), code 49h. -/
  | lineReset (r : Record)
  /-- REFLEX_PUT (R169), code 4Ah. -/
  | reflexPut (r : Record)
  /-- REFLEX_DROP (R170), code 4Bh. -/
  | reflexDrop (r : Record)
  /-- REFLEX_READ (R171), code 4Ch. -/
  | reflexRead (r : Record)
  /-- NODE_READ (R208), code 4Dh. -/
  | nodeRead (r : Record)
  /-- NODE_CLEAR (R59), code 4Eh. -/
  | nodeClear (r : Record)
  /-- ABORT (R209), code 4Fh. -/
  | abort (r : Record)
  /-- UNKNOWN_ADMIN_REQUEST (R203): the admin unit's fetch arrives with any other code. -/
  | unknownAdminRequest (r : Record)
  /-- LOW_TIMER_EXPIRY (R24). -/
  | lowTimerExpiry (l : Line)
  /-- SENSE_RISE (R25). -/
  | senseRise (l : Line)
  /-- SENSE_FALL (R25). -/
  | senseFall (l : Line)
  /-- DEBOUNCE_EXPIRY (R25). -/
  | debounceExpiry (l : Line)
  /-- SETTLE_EXPIRY (R26). -/
  | settleExpiry (l : Line)
  /-- LISTEN_INTERVAL_EXPIRY (R38, R144). -/
  | listenIntervalExpiry (l : Line)
  /-- GAP_COMPLETE (R5, R34): the line has been high for one inter-frame gap. -/
  | gapComplete (l : Line)
  /-- BACKOFF_EXPIRY (R31): the line has been high for the drawn backoff. -/
  | backoffExpiry (l : Line)
  /-- FRAME_SENT (R6, R22): the frame being sent reaches the end of its stop. -/
  | frameSent (l : Line)
  /-- COLLISION_DETECTED (R6): the readback finds a mismatch. -/
  | collisionDetected (l : Line)
  /-- REPLY_FRAME_END (R9): a well-formed frame of these bytes, check included, ends. -/
  | replyFrameEnd (l : Line) (frame : List Byte)
  /-- REPLY_WINDOW_TIMEOUT (R9): 12 bit periods without a start. -/
  | replyWindowTimeout (l : Line)
  /-- GARBLED_RECEPTION (R4): a garbled reception ends. -/
  | garbledReception (l : Line)
  /-- NOTICE_FRAME_END (R13): a well-formed frame of these bytes ends in a listen window. -/
  | noticeFrameEnd (l : Line) (frame : List Byte)
  /-- LISTEN_WINDOW_EMPTY (R13): 12 bit periods without a start. -/
  | listenWindowEmpty (l : Line)
  /-- DEFER_EXPIRY (R71). -/
  | deferExpiry (i : SlotId)
  /-- EXPIRE_DEADLINE_EXPIRY (R79). -/
  | expireDeadlineExpiry (i : SlotId)
  /-- POLL_DEADLINE_EXPIRY (R81). -/
  | pollDeadlineExpiry (i : SlotId)
  /-- BUDGET_EXPIRY (R116 to R118). -/
  | budgetExpiry (i : SlotId)
  /-- QUIET_UNTIL_EXPIRY (R161). -/
  | quietUntilExpiry (k : ReflexId)
  /-- HOLDOFF_TIMER_EXPIRY (R190). -/
  | holdoffTimerExpiry (r : RingName)
  /-- RESULT_RECORD_WRITTEN (R182). -/
  | resultRecordWritten (q : ResultRingId)
  /-- PROGRESS_WORD_WRITTEN (R182, R188). -/
  | progressWordWritten (r : RingName)
  /-- WRITE_FAULT (R185): the access of this result ring ends with a bus error. -/
  | writeFault (q : ResultRingId)
  /-- NOTICE_RECORD_WRITTEN (R153). -/
  | noticeRecordWritten
  /-- NOTICE_WRITE_FAULT (R188): the access of the notice ring ends with a bus error. -/
  | noticeWriteFault
  /-- NODE_READ_IMAGE_WRITTEN (R208). -/
  | nodeReadImageWritten
  /-- NODE_READ_WRITE_FAULT (R208). -/
  | nodeReadWriteFault
  /-- REFLEX_READ_IMAGE_WRITTEN (R171). -/
  | reflexReadImageWritten
  /-- REFLEX_READ_WRITE_FAULT (R171). -/
  | reflexReadWriteFault
  /-- FRAME_START (R4, R22): the start of a frame is found. -/
  | frameStart (l : Line)
  /-- RX_LOW (R5): a low is seen on RX while the part waits. -/
  | rxLow (l : Line)
deriving DecidableEq, Repr

end Sys2Proof
end

