-- ==== Sys2Proof/WellFormed.lean ====
section
/-! DEFINITION. Which terms of `Instr` stand for something that can reach the part: a record
command's code byte is the code of its row (R212), a received frame has a length a well-formed
frame of its kind can have (R4, R211), and a plain register write names no register with a
behaviour of its own (R194). -/

namespace Sys2Proof

/-- The request codes of the administrative requests, 40h to 4Fh (R212). -/
def adminCode (b : Byte) : Bool := 0x40 ≤ b.toNat && b.toNat ≤ 0x4F

/-- The kind codes of line work, 01h to 04h (R212). -/
def workCode (b : Byte) : Bool := 1 ≤ b.toNat && b.toNat ≤ 4

/-- The offsets of the registers a write to which has its own row: CTRL, POST, TAKE and SIGNAL (R213). -/
def behavedOffset (o : Word) : Bool := o == 0x04 || o == 0x10 || o == 0x14 || o == 0x18

/-- The command is one that can reach the part. Every other command is well formed whatever its
operands: their types hold exactly the values they can have. -/
def Instr.wellFormed : Instr → Bool
  | .registerWrite o _ => !behavedOffset o
  | .call r => r[0] == 0x01
  | .sweep r => r[0] == 0x02
  | .paramWrite r => r[0] == 0x03
  | .discover r => r[0] == 0x04
  | .unknownWorkKind r => !workCode r[0]
  | .openWorkRing r => r[0] == 0x40
  | .closeWorkRing r => r[0] == 0x41
  | .openResultRing r => r[0] == 0x42
  | .closeResultRing r => r[0] == 0x43
  | .openNoticeRing r => r[0] == 0x44
  | .closeNoticeRing r => r[0] == 0x45
  | .lineSet r => r[0] == 0x46
  | .lineEnable r => r[0] == 0x47
  | .lineDisable r => r[0] == 0x48
  | .lineReset r => r[0] == 0x49
  | .reflexPut r => r[0] == 0x4A
  | .reflexDrop r => r[0] == 0x4B
  | .reflexRead r => r[0] == 0x4C
  | .nodeRead r => r[0] == 0x4D
  | .nodeClear r => r[0] == 0x4E
  | .abort r => r[0] == 0x4F
  | .unknownAdminRequest r => !adminCode r[0]
  | .replyFrameEnd _ f => 1 ≤ f.length && f.length ≤ 11
  | .noticeFrameEnd _ f => 1 ≤ f.length && f.length ≤ 7
  | .powerOnReset | .hostReset _ _ _ | .start _ | .stop _ | .interruptEnable _ _ => true
  | .post _ | .take _ | .signal _ | .bootBlockRead _ | .bootFault | .fetchFault _ => true
  | .lowTimerExpiry _ | .senseRise _ | .senseFall _ | .debounceExpiry _ | .settleExpiry _ => true
  | .listenIntervalExpiry _ | .gapComplete _ | .backoffExpiry _ | .frameSent _ => true
  | .collisionDetected _ | .replyWindowTimeout _ | .garbledReception _ => true
  | .listenWindowEmpty _ | .deferExpiry _ | .expireDeadlineExpiry _ => true
  | .pollDeadlineExpiry _ | .budgetExpiry _ | .quietUntilExpiry _ | .holdoffTimerExpiry _ => true
  | .resultRecordWritten _ | .progressWordWritten _ | .writeFault _ => true
  | .noticeRecordWritten | .noticeWriteFault | .nodeReadImageWritten | .nodeReadWriteFault => true
  | .reflexReadImageWritten | .reflexReadWriteFault | .frameStart _ | .rxLow _ => true

end Sys2Proof
end

