-- ==== Sys2Proof/Machine/State.lean ====
section
/-! DEFINITION. The state of the part as plain data: every register, ring, slot, line engine, node
entry, reflex entry, queue and buffer the spec names, the reset values it gives them, and the
model's own queue of waiting commands. -/

namespace Sys2Proof.Machine

/-! ## Lines in pairs -/

/-- One value for each of the two lines. -/
structure Pair (α : Type) where
  a : α
  b : α
deriving DecidableEq, Repr

/-- The value of a line. -/
def Pair.get {α : Type} (p : Pair α) : Line → α
  | .a => p.a
  | .b => p.b

/-- The pair with the value of a line replaced. -/
def Pair.set {α : Type} (p : Pair α) (l : Line) (v : α) : Pair α :=
  match l with
  | .a => { p with a := v }
  | .b => { p with b := v }

/-! ## Device -/

/-- The six device states (R196). -/
inductive DeviceState where
  | reset
  | starting
  | running
  | stopping
  | stopped
  | halted
deriving DecidableEq, Repr

/-- The halt reason that STAT shows (R194). -/
inductive HaltReason where
  | none
  | bootInvalid
  | bootFault
  | adminFault
  | result0Fault
deriving DecidableEq, Repr

/-! ## Frames -/

/-- The nodes a call addresses (R11). -/
inductive Target where
  | node (a : Addr)
  | zone (z : Zone)
  | all
  | unaddressed
deriving DecidableEq, Repr

/-- A call frame's fields but for its check (R11). -/
structure Call where
  target : Target
  verb : BitVec 6
  reply : Bool
  args : List Byte
deriving DecidableEq, Repr

/-- The five reply statuses (R12). -/
inductive ReplyStatus where
  | ok
  | busy
  | done
  | refused
  | locked
deriving DecidableEq, Repr

/-- A valid reply (R10, R12). -/
structure Reply where
  status : ReplyStatus
  noticePending : Bool
  data : List Byte
deriving DecidableEq, Repr

/-- A valid notice (R13). -/
structure NodeNotice where
  source : Addr
  kind : BitVec 5
  seq : BitVec 4
  arg : List Byte
deriving DecidableEq, Repr

/-- How a try ends (R30). -/
inductive TryOutcome where
  | sent
  | replied (r : Reply)
  | noReply
  | garbled
  | collided
deriving DecidableEq, Repr

/-! ## Line engines -/

/-- The eight line states (R21). -/
inductive LineState where
  | off
  | restoring
  | idle
  | calling
  | awaiting
  | receiving
  | listening
  | down
deriving DecidableEq, Repr

/-- The usable states (R23): IDLE, CALLING, AWAITING, RECEIVING and LISTENING. -/
def LineState.usable : LineState → Bool
  | .idle | .calling | .awaiting | .receiving | .listening => true
  | .off | .restoring | .down => false

/-- Where a restoration began (R156). -/
inductive RestoreOrigin where
  | off
  | down
deriving DecidableEq, Repr

/-- The user a line is granted to (R21, R34). -/
inductive Holder where
  | none
  | slot (i : SlotId)
  | reflex
  | series
deriving DecidableEq, Repr

/-- What the holder's next try waits for, between two frames of one grant (R31). -/
inductive NextTry where
  | none
  | gap
  | backoff (units : Nat)
deriving DecidableEq, Repr

/-- A step in progress (R29, R30): its call, its retry limit, the tries begun, and whether every
try that has ended was GARBLED. -/
structure Step where
  call : Call
  retryLimit : Nat
  tries : Nat
  allGarbled : Bool
deriving DecidableEq, Repr

/-- The outcome of a listen window (R13, R145). -/
inductive WindowOutcome where
  | valid
  | empty
  | garbled
deriving DecidableEq, Repr

/-- The record of a listen series in progress (R145), and whether STOP has asked it to end after
its current window (R37). -/
structure Series where
  window : Nat
  last : Option WindowOutcome
  ack : Option (Addr × BitVec 4)
  stopping : Bool
deriving DecidableEq, Repr

/-- What becomes of the reflex queue when the grant of its head ends (R165, R168). -/
inductive HeadEnd where
  /-- The head is removed, or kept after DOWN (R165). -/
  | normal
  /-- STOP came during the grant: no further try, and the queue is emptied (R168). -/
  | emptyQueue
  /-- START followed before the grant ended: the queue was emptied at the START (R163). -/
  | leaveQueue
deriving DecidableEq, Repr

/-- The three bit rates (R2). -/
inductive BitRate where
  | r2400
  | r4800
  | r9600
deriving DecidableEq, Repr

/-- The seven settings of a line (R39). -/
structure LineConfig where
  rate : BitRate
  retryLimit : Nat
  silence : Nat
  listenInterval : Nat
  pollInterval : Nat
  budget : Nat
  settle : Nat
deriving DecidableEq, Repr

/-- The reset values of the settings (R39). -/
def LineConfig.reset : LineConfig :=
  { rate := .r2400, retryLimit := 2, silence := 3, listenInterval := 250, pollInterval := 5,
    budget := 100, settle := 200 }

/-- The state of a line engine (chapter 2). -/
structure LineEngine where
  /-- The line state (R21). -/
  state : LineState
  /-- The user the line is granted to (R21). -/
  holder : Holder
  /-- The step in progress (R29). -/
  step : Option Step
  /-- What the next try of the step waits for (R31). -/
  next : NextTry
  /-- The bytes of the frame being sent, empty when none is (R6, R211). -/
  frame : List Byte
  /-- A frame has started in the open listen window (R4, R13). -/
  frameStarted : Bool
  /-- The line has been high for one inter-frame gap (R5). -/
  quiet : Bool
  /-- The level of the SENSE pin (R24). -/
  sense : Bool
  /-- The low timer, in milliseconds (R24). -/
  lowTimer : Nat
  /-- The deadline of the restore debounce, or stopped (R25). -/
  debounce : Option Word
  /-- Where the restoration in progress began (R156). -/
  origin : RestoreOrigin
  /-- The deadline of the settle timer, or stopped (R26). -/
  settle : Option Word
  /-- The listen-due flag (R38). -/
  listenDue : Bool
  /-- The deadline of the listen interval timer, or stopped (R38). -/
  listenTimer : Option Word
  /-- The series record (R38, R145). -/
  series : Option Series
  /-- What the end of a reflex grant does to the queue (R168). -/
  headEnd : HeadEnd
  /-- The seven settings (R39). -/
  config : LineConfig
deriving DecidableEq, Repr

/-- A line engine after reset (R21, R38, R39). The level of the SENSE pin, the gap count and the
restoration's origin have no stated value (assumption log 3). -/
def LineEngine.reset : LineEngine :=
  { state := .off, holder := .none, step := none, next := .none, frame := [], frameStarted := false,
    quiet := false, sense := true, lowTimer := 0, debounce := none, origin := .off, settle := none,
    listenDue := false, listenTimer := none, series := none, headEnd := .normal,
    config := LineConfig.reset }

/-! ## Node table -/

/-- The states of a node entry (chapter 3). -/
inductive NodeState where
  | vacant
  | present
  | silent
  | clash
deriving DecidableEq, Repr

/-- The store state of a node entry (chapter 3). -/
inductive StoreState where
  | clean
  | unknown
deriving DecidableEq, Repr

/-- A node entry (chapter 3). -/
structure NodeEntry where
  state : NodeState
  identity : Option UnitNo
  kind : Option Byte
  zones : Option ZoneSet
  misses : Nat
  garbles : Nat
  lastSeq : Option (BitVec 4)
  lock : Option SlotId
  store : StoreState
  lastHeard : Option Word
deriving DecidableEq, Repr

/-- The initial value of a node entry (R43). -/
def NodeEntry.initial : NodeEntry :=
  { state := .vacant, identity := none, kind := none, zones := none, misses := 0, garbles := 0,
    lastSeq := none, lock := none, store := .clean, lastHeard := none }

/-! ## Results and notices -/

/-- The result statuses (R212). -/
inductive Status where
  | ok
  | refused
  | protected_
  | nodeBusy
  | noReply
  | garbled
  | collided
  | lineDown
  | lineReset
  | nodeClash
  | verifyFail
  | commitTimeout
  | expired
  | aborted
  | badRecord
  | badState
  | bound
  | notFound
  | hostFault
deriving DecidableEq, Repr

/-- Who sent a result to the ring unit (R182). -/
inductive Sender where
  | slot (i : SlotId)
  | admin
deriving DecidableEq, Repr

/-- A result record with its sender; `detail` is bytes 8 onward, trailing zeros left out (R212). -/
structure ResultRecord where
  sender : Sender
  code : Byte
  status : Status
  ring : WorkRingId
  tag : Word
  detail : List Byte
deriving DecidableEq, Repr

/-- Why a ring entered FAULTED (R157). -/
inductive FaultReason where
  | fetchFault
  | badPost
  | writeFault
  | badTake
deriving DecidableEq, Repr

/-- A ring as RING_FAULT names it (R157). -/
inductive AnyRing where
  | work (r : WorkRingId)
  | result (q : ResultRingId)
  | notice
deriving DecidableEq, Repr

/-- Why a firing was dropped (R162). -/
inductive DropReason where
  | queueFull
  | lineUnavailable
deriving DecidableEq, Repr

/-- Why a POST was ignored (R177). -/
inductive IgnoreReason where
  | ringClosed
  | noSuchRing
deriving DecidableEq, Repr

/-- A notice record's kind with the fields of that kind (R155 to R157). -/
inductive NoticeBody where
  | nodeNotice (n : NodeNotice)
  | nodeFound (a : Addr) (identity : UnitNo) (kind : Byte)
  | nodeSilent (a : Addr) (identity : Option UnitNo) (misses : Nat)
  | nodeBack (a : Addr) (identity : Option UnitNo)
  | nodeClash (a : Addr) (former : NodeState) (identity : Option UnitNo)
  | nodeReplaced (a : Addr) (previous new : UnitNo)
  | nodeMoved (former new : Addr) (identity : UnitNo)
  | lineDown (left : LineState)
  | lineUp (origin : RestoreOrigin)
  | reflexFired (k : ReflexId) (count : Nat)
  | reflexDropped (k : ReflexId) (reason : DropReason)
  | ringFault (ring : AnyRing) (reason : FaultReason) (lost : Nat)
  | postIgnored (ring : Byte) (reason : IgnoreReason) (count : Half)
deriving DecidableEq, Repr

/-- A notice record in the buffer (R151, R155). -/
structure NoticeRecord where
  body : NoticeBody
  line : Option Line
  stamp : Word
  lost : Nat
deriving DecidableEq, Repr

/-! ## Rings -/

/-- The states of a work ring (R174). -/
inductive WorkRingState where
  | closed
  | active
  | held
  | draining
  | faulted
deriving DecidableEq, Repr

/-- The class of a work ring (R174). -/
inductive RingClass where
  | urgent
  | normal
  | bulk
deriving DecidableEq, Repr

/-- A work ring (R174). -/
structure WorkRing where
  state : WorkRingState
  base : Word
  size : Nat
  line : Line
  cls : RingClass
  bound : ResultRingId
  credit : Nat
  posted : Half
  fetched : Half
deriving DecidableEq, Repr

/-- A work ring after reset (R174). -/
def WorkRing.reset : WorkRing :=
  { state := .closed, base := 0, size := 0, line := .a, cls := .normal, bound := 0, credit := 1,
    posted := 0, fetched := 0 }

/-- A host-memory write in flight: its address and its bytes (R173, R182). -/
structure HostWrite where
  addr : Word
  bytes : List Byte
deriving DecidableEq, Repr

/-- The access a written ring has in flight (R182). `stale` marks an access begun before the ring
was last opened (assumption log 17). -/
inductive RingAccess where
  | idle
  | record (w : HostWrite) (stale : Bool)
  | progress (w : HostWrite) (stale : Bool)
deriving DecidableEq, Repr

/-- The states of a result ring and of the notice ring (R181, R188). -/
inductive OutState where
  | closed
  | active
  | faulted
deriving DecidableEq, Repr

/-- The fields that the result rings and the notice ring share (R181, R188). -/
structure OutputRing where
  state : OutState
  base : Word
  size : Nat
  progress : Word
  threshold : Nat
  holdoff : Nat
  written : Half
  consumed : Half
  signalled : Bool
  timer : Option Word
  access : RingAccess
deriving DecidableEq, Repr

/-- A written ring after reset (R181, R188). -/
def OutputRing.reset : OutputRing :=
  { state := .closed, base := 0, size := 0, progress := 0, threshold := 1, holdoff := 0,
    written := 0, consumed := 0, signalled := false, timer := none, access := .idle }

/-- A result ring: the shared fields, its lost count and its pending list (R181, R182). -/
structure ResultRing where
  out : OutputRing
  lost : Nat
  pending : List ResultRecord
deriving DecidableEq, Repr

/-- A result ring after reset (R181). -/
def ResultRing.reset : ResultRing := { out := OutputRing.reset, lost := 0, pending := [] }

/-- The slot table's fetch in flight (R66): the ring, the reserved slot, the address read, and
whether a STOP has come since it began. -/
structure WorkFetch where
  ring : WorkRingId
  slot : SlotId
  addr : Word
  stopped : Bool
deriving DecidableEq, Repr

/-- The ring last served in each class, 0 standing before ring 1 (R65). -/
structure Served where
  urgent : WorkRingId
  normal : WorkRingId
  bulk : WorkRingId
deriving DecidableEq, Repr

/-! ## Work slots -/

/-- The waiting reasons (R70). -/
inductive WaitReason where
  | defer
  | line
  | settle
  | order
  | lock
  | barrier
  | discovery
deriving DecidableEq, Repr

/-- The states of a slot that holds work (R63); a FREE slot is an absent `Slot`. -/
inductive SlotState where
  | waiting (r : WaitReason)
  | ready
  | onLine
  | paused
  | finishing
deriving DecidableEq, Repr

/-- The work fields of a CALL (R89, R90, R97). -/
structure CallWork where
  target : Target
  verb : BitVec 6
  reply : Bool
  args : List Byte
  busyLimit : Nat
  busyRounds : Nat
  lastReply : Option ReplyStatus
  allGarbled : Bool
  noticePending : Bool
  data : List Byte
deriving DecidableEq, Repr

/-- The mark of an address in a sweep's list (R98); DONE is split by how it was reached (R102). -/
inductive Mark where
  | unvisited
  | aside
  /-- DONE: pinged. -/
  | pinged
  /-- DONE: counted busy on the second visit. -/
  | busy
deriving DecidableEq, Repr

/-- The work fields of a SWEEP (R98, R99). -/
structure SweepWork where
  all : Bool
  marks : List (Addr × Mark)
  step : Option Addr
deriving DecidableEq, Repr

/-- The phases of a commit (R104). -/
inductive Phase where
  | prelude
  | stage1
  | stage2
  | commit
  | poll
  | final
deriving DecidableEq, Repr

/-- The commit outcomes (R120). -/
inductive CommitOutcome where
  | none
  | verified
  | mismatch
  | unknown
deriving DecidableEq, Repr

/-- The work fields of a PARAM_WRITE (R104). -/
structure ParamWork where
  addr : Addr
  index : Byte
  length : Nat
  data : List Byte
  budget : Nat
  attempts : Nat
  digest : Half
  phase : Option Phase
  attempt : Nat
  unverified : Bool
  finalFlag : Bool
  polls : Nat
  lastReply : Option ReplyStatus
  readback : Option Half
  firstGrant : Option Word
  /-- The commit has been in phase PRELUDE (R126). -/
  preludeUsed : Bool
  /-- In phase PRELUDE, a STAGE or a prelude CHECK has been answered BUSY (R115). -/
  preludeBusy : Bool
  /-- A COMMIT of this slot has been answered BUSY, OK or DONE (R120). -/
  accepted : Bool
  /-- A matching readback digest has verified the commit (R120). -/
  verified : Bool
  /-- The last DONE of an accepted COMMIT carried a different digest (R120). -/
  mismatch : Bool
  /-- The budget expired while the slot was ON_LINE (R118). -/
  budgetPassed : Bool
  /-- The commit outcome of the decided result (R120). -/
  outcome : CommitOutcome
  /-- The reply data of a REFUSED or PROTECTED result (R126). -/
  replyData : List Byte
deriving DecidableEq, Repr

/-- The phases of a discovery (R127). -/
inductive DiscoverPhase where
  | roll
  | pick
  | check
  | assign
deriving DecidableEq, Repr

/-- The mark of a clean position (R127). -/
inductive CleanMark where
  | pending
  | assigned
  | lost
deriving DecidableEq, Repr

/-- A clean position (R127). -/
structure CleanPosition where
  position : Nat
  identity : UnitNo
  mark : CleanMark
deriving DecidableEq, Repr

/-- The end reasons of a discovery (R127). -/
inductive EndReason where
  | none
  | quiet
  | roundLimit
  | poolExhausted
  | aborted
  | cut
deriving DecidableEq, Repr

/-- The work fields of a DISCOVER (R127). -/
structure DiscoverWork where
  positions : Nat
  roundLimit : Nat
  poolFirst : Addr
  poolLast : Addr
  phase : DiscoverPhase
  rounds : Nat
  seed : Option Half
  nextPosition : Nat
  clean : List CleanPosition
  roundCollided : Nat
  avoid : List Addr
  current : Option CleanPosition
  candidate : Option Addr
  assigned : Nat
  lost : Nat
  cleanTotal : Nat
  collidedTotal : Nat
  endReason : EndReason
deriving DecidableEq, Repr

/-- The work of a slot, by its kind (R64). -/
inductive Work where
  | call (w : CallWork)
  | sweep (w : SweepWork)
  | param (w : ParamWork)
  | discover (w : DiscoverWork)
  /-- A record of unknown kind, or one that failed its checks (R64, R68). -/
  | unknown
deriving DecidableEq, Repr

/-- A slot that is not FREE (R64). -/
structure Slot where
  state : SlotState
  ring : WorkRingId
  tag : Word
  /-- Byte 0 of the record, which the result repeats (R212). -/
  code : Byte
  line : Line
  cls : RingClass
  seq : Word
  fetchTime : Word
  force : Bool
  /-- The retry override, absent for the line default (R67). -/
  retry : Option Nat
  work : Work
  /-- The tries the last step used (R64). -/
  tries : Nat
  started : Bool
  abortPending : Bool
  deferAt : Option Word
  expireAt : Option Word
  budgetAt : Option Word
  pollAt : Option Word
  /-- The decided result, in FINISHING (R82). -/
  result : Option ResultRecord
deriving DecidableEq, Repr

/-! ## Reflexes -/

/-- An entry of the reflex table (R159). -/
structure ReflexEntry where
  armed : Bool
  matchLine : Line
  /-- The match source, absent for ANY. -/
  matchSource : Option Addr
  matchKind : BitVec 5
  matchArg : Option Byte
  actionLine : Line
  target : Target
  verb : BitVec 6
  args : List Byte
  holdoff : Nat
  report : Bool
  fireCount : Nat
  quietUntil : Option Word
deriving DecidableEq, Repr

/-- An EMPTY entry (R159). -/
def ReflexEntry.empty : ReflexEntry :=
  { armed := false, matchLine := .a, matchSource := none, matchKind := 0, matchArg := none,
    actionLine := .a, target := .all, verb := 16, args := [], holdoff := 0, report := false,
    fireCount := 0, quietUntil := none }

/-- A queued reflex call (R163). -/
structure QueuedCall where
  target : Target
  verb : BitVec 6
  args : List Byte
deriving DecidableEq, Repr

/-! ## Admin unit -/

/-- What the current request waits for (R204). -/
inductive AdminPhase where
  /-- CLOSE_WORK_RING: until the ring is CLOSED. -/
  | closingWork (r : WorkRingId)
  /-- CLOSE_RESULT_RING: until the ring is CLOSED. -/
  | closingResult (q : ResultRingId)
  /-- CLOSE_NOTICE_RING: until the record write in progress has ended. -/
  | closingNotice
  /-- LINE_SET: until the line's grant in progress has ended. -/
  | settingLine (l : Line) (config : LineConfig)
  /-- LINE_RESET or LINE_DISABLE: until the cut of the line has ended. -/
  | cutting (l : Line) (disable forget : Bool)
  /-- NODE_READ: images written so far, of `count` from `first` onward. -/
  | readingNodes (l : Line) (first : Addr) (count done : Nat) (buffer : Word)
  /-- REFLEX_READ: until its write has ended. -/
  | readingReflex
  /-- The result is on its way to result ring 0. -/
  | answered
deriving DecidableEq, Repr

/-- The current request (R203). -/
structure AdminRequest where
  code : Byte
  tag : Word
  phase : AdminPhase
deriving DecidableEq, Repr

/-! ## The whole part -/

/-- The state of the part, and the queue of the commands that wait. -/
structure State where
  /-- The device state (R196). -/
  device : DeviceState
  /-- The halt reason of STAT (R194). -/
  halt : HaltReason
  /-- The interrupt enable of CTRL (R195). -/
  intEnable : Bool
  /-- The BOOT register (R194). -/
  boot : Word
  /-- The boot block read in flight, with its address (R197). -/
  bootRead : Option Word
  /-- The millisecond count (R198). -/
  ms : Word
  /-- The work rings (R174). -/
  work : Vector WorkRing 8
  /-- The result rings (R181). -/
  results : Vector ResultRing 4
  /-- The notice ring (R188). -/
  notice : OutputRing
  /-- The device-event condition (R191). -/
  deviceEvent : Bool
  /-- The slot table's fetch in flight and its reservation (R66). -/
  workFetch : Option WorkFetch
  /-- The address of the admin unit's fetch in flight (R179). -/
  adminFetch : Option Word
  /-- The current request (R203). -/
  admin : Option AdminRequest
  /-- The image write of NODE_READ or REFLEX_READ in flight (R171, R208). -/
  imageWrite : Option HostWrite
  /-- The work slot table; a FREE slot is absent (R63). -/
  slots : Vector (Option Slot) 24
  /-- The fetch sequence counter (R66). -/
  fetchSeq : Word
  /-- The round-robin positions (R65). -/
  served : Served
  /-- The line engines (chapter 2). -/
  lines : Pair LineEngine
  /-- The node tables (chapter 3). -/
  nodes : Pair (Vector NodeEntry 80)
  /-- The reflex table (R159). -/
  reflexes : Vector ReflexEntry 32
  /-- The reflex queues (R163). -/
  queues : Pair (List QueuedCall)
  /-- The notice buffer, oldest first (R151). -/
  buffer : List NoticeRecord
  /-- The notice unit's lost count (R151). -/
  lost : Nat
  /-- The model's own: the free values drawn so far (assumption log 1). -/
  draws : Nat
  /-- The RESET pin is held low (R194). No row of the table moves the pin (assumption log 19). -/
  resetPinLow : Bool
  /-- The model's own: the commands that wait, first in first out. -/
  pending : List Instr
deriving DecidableEq, Repr

/-- The part right after reset (R21, R39, R43, R64, R151, R159, R174, R181, R188, R191, R194,
R202). -/
def State.reset : State :=
  { device := .reset, halt := .none, intEnable := false, boot := 0, bootRead := none, ms := 0,
    work := Vector.replicate 8 WorkRing.reset, results := Vector.replicate 4 ResultRing.reset,
    notice := OutputRing.reset, deviceEvent := false, workFetch := none, adminFetch := none,
    admin := none, imageWrite := none, slots := Vector.replicate 24 none, fetchSeq := 0,
    served := ⟨0, 0, 0⟩, lines := ⟨LineEngine.reset, LineEngine.reset⟩,
    nodes := ⟨Vector.replicate 80 NodeEntry.initial, Vector.replicate 80 NodeEntry.initial⟩,
    reflexes := Vector.replicate 32 ReflexEntry.empty, queues := ⟨[], []⟩, buffer := [], lost := 0,
    draws := 0, resetPinLow := false, pending := [] }

/-- Why the part stops with a fault: never. The spec gives every command and event an effect in
every state, and what the host and the line do wrong shows as a status, a notice record or the
device state HALTED. No constructor stands here because nothing raises one. -/
inductive Fault where
deriving DecidableEq, Repr

/-- Why a command has no meaning. -/
inductive Refusal where
  /-- Raised by an arm of exec for a command that has no meaning yet, with its mnemonic: no arm
  raises it now. Safe: the model stops where the part goes on. -/
  | notModelled (mnemonic : String)
deriving DecidableEq, Repr

end Sys2Proof.Machine
end

