-- ==== Sys2Proof/Machine/Bytes.lean ====
section
/-! DEFINITION. Byte orders: least significant byte first in host memory, most significant byte
first on a line (R210). -/

namespace Sys2Proof.Machine

/-- A number as one byte. -/
def byteOf (n : Nat) : Byte := BitVec.ofNat 8 n

/-- The two bytes of a 16-bit value in host memory (R210). -/
def le16 (v : Half) : List Byte := [v.extractLsb' 0 8, v.extractLsb' 8 8]

/-- The four bytes of a 32-bit value in host memory (R210). -/
def le32 (v : Word) : List Byte :=
  [v.extractLsb' 0 8, v.extractLsb' 8 8, v.extractLsb' 16 8, v.extractLsb' 24 8]

/-- The five bytes of an identity in a record (R212). -/
def le40 (v : UnitNo) : List Byte :=
  [v.extractLsb' 0 8, v.extractLsb' 8 8, v.extractLsb' 16 8, v.extractLsb' 24 8,
    v.extractLsb' 32 8]

/-- The two bytes of a 16-bit value on a line (R210). -/
def be16 (v : Half) : List Byte := [v.extractLsb' 8 8, v.extractLsb' 0 8]

/-- The five bytes of an identity on a line (R211). -/
def be40 (v : UnitNo) : List Byte :=
  [v.extractLsb' 32 8, v.extractLsb' 24 8, v.extractLsb' 16 8, v.extractLsb' 8 8,
    v.extractLsb' 0 8]

/-- Two bytes joined, the high byte first. -/
def join16 (hi lo : Byte) : Half := hi ++ lo

/-- Four bytes joined, the high byte first. -/
def join32 (b3 b2 b1 b0 : Byte) : Word := b3 ++ b2 ++ b1 ++ b0

/-- Five bytes joined, the high byte first. -/
def join40 (b4 b3 b2 b1 b0 : Byte) : UnitNo := b4 ++ b3 ++ b2 ++ b1 ++ b0

/-- A list of bytes filled up with zeros to a length (R212: undefined bytes are written as 0). -/
def padTo (n : Nat) (l : List Byte) : List Byte := l ++ List.replicate (n - l.length) 0

/-- A flag as a bit at a place of a byte. -/
def flagBit (b : Bool) (place : Nat) : Byte := if b then byteOf (2 ^ place) else 0

end Sys2Proof.Machine
end

