-- ==== Sys2Proof/Machine/Frames.lean ====
section
/-! DEFINITION. Frames on the line: the frame check (R8), the call frames the part builds (R11,
R211), and the checks of reply and notice frames (R10, R12, R13, R211). -/

namespace Sys2Proof.Machine

/-! ## Frame check -/

/-- One shift of the check register (R8). -/
def crcShift (reg : Byte) : Byte :=
  if reg.msb then (reg <<< 1) ^^^ 0x4D else reg <<< 1

/-- The check register after one byte (R8). -/
def crcByte (reg b : Byte) : Byte :=
  crcShift (crcShift (crcShift (crcShift (crcShift (crcShift (crcShift (crcShift (reg ^^^ b))))))))

/-- The frame check over the bytes before it (R8). -/
def frameCheck (bytes : List Byte) : Byte := bytes.foldl crcByte 0xFF

/-- A received frame passes the check: its last byte is the check of the bytes before it (R8). -/
def checkPasses (frame : List Byte) : Bool :=
  match frame.getLast? with
  | none => false
  | some c => frameCheck frame.dropLast == c

/-! ## Verbs and targets -/

/-- The verb codes of the line verbs (R211). -/
def verbPing : BitVec 6 := 0
def verbAssign : BitVec 6 := 1
def verbUnassign : BitVec 6 := 2
def verbRoll : BitVec 6 := 3
def verbPick : BitVec 6 := 4
def verbStage : BitVec 6 := 5
def verbCommit : BitVec 6 := 6
def verbCheck : BitVec 6 := 7
def verbListen : BitVec 6 := 8
def verbTaken : BitVec 6 := 9

/-- An address as its number 1 to 80. -/
def addrByte (a : Addr) : Byte := byteOf (a.val + 1)

/-- The target byte of a call frame (R211). -/
def targetByte : Target → Byte
  | .unaddressed => 0x00
  | .node a => addrByte a
  | .zone z => byteOf (0x51 + z.val)
  | .all => 0xFF

/-- The bytes of a call frame, check included (R211). -/
def callFrame (c : Call) : List Byte :=
  let body := targetByte c.target :: (flagBit c.reply 7 ||| c.verb.setWidth 8) :: c.args
  body ++ [frameCheck body]

/-! ## Reply frames -/

/-- The reply status of a code (R211). -/
def replyStatusOf (code : Byte) : Option ReplyStatus :=
  if code = 0 then some .ok
  else if code = 1 then some .busy
  else if code = 2 then some .done
  else if code = 3 then some .refused
  else if code = 4 then some .locked
  else none

/-- The code of a reply status (R211). -/
def replyStatusCode : ReplyStatus → Byte
  | .ok => 0
  | .busy => 1
  | .done => 2
  | .refused => 3
  | .locked => 4

/-- The responder address a valid reply to a call must carry (R10): the node's own for NODE, 0 for
PICK, the address given for ASSIGN. -/
def expectedResponder (c : Call) : Option Byte :=
  match c.target with
  | .node a => some (addrByte a)
  | .unaddressed =>
    if c.verb = verbPick then some 0
    else if c.verb = verbAssign then c.args.getLast?
    else none
  | .zone _ | .all => none

/-- A well-formed frame in the reply window of a call, judged by R8, R10 and R211: the valid reply
it holds, or none when the try is GARBLED. -/
def judgeReply (c : Call) (frame : List Byte) : Option Reply :=
  if 3 ≤ frame.length ∧ frame.length ≤ 11 ∧ checkPasses frame then
    match frame.dropLast with
    | responder :: second :: data =>
      if expectedResponder c = some responder ∧ second &&& 0x78 = 0 then
        (replyStatusOf (second &&& 0x07)).map fun st =>
          { status := st, noticePending := second.msb, data := data }
      else none
    | _ => none
  else none

/-- The identity, kind code and zone set of PING data (R49, R211), when the data is 8 bytes and its
identity is not 0. -/
def pingData (data : List Byte) : Option (UnitNo × Byte × ZoneSet) :=
  match data with
  | [i4, i3, i2, i1, i0, k, zh, zl] =>
    let identity := join40 i4 i3 i2 i1 i0
    if identity = 0 then none else some (identity, k, (join16 zh zl).setWidth 12)
  | _ => none

/-- The identity of a PICK reply: exactly 5 bytes, not 0 (R130). -/
def pickIdentity (data : List Byte) : Option UnitNo :=
  match data with
  | [i4, i3, i2, i1, i0] =>
    let identity := join40 i4 i3 i2 i1 i0
    if identity = 0 then none else some identity
  | _ => none

/-- The digest of a DONE reply with exactly 2 data bytes (R111, R113). -/
def replyDigest (data : List Byte) : Option Half :=
  match data with
  | [hi, lo] => some (join16 hi lo)
  | _ => none

/-! ## Notice frames -/

/-- A node address from its number, 1 to 80. -/
def addrOf (b : Byte) : Option Addr :=
  if h : 1 ≤ b.toNat ∧ b.toNat ≤ 80 then some ⟨b.toNat - 1, by omega⟩ else none

/-- A well-formed frame in a listen window, judged by R8, R13 and R211: the valid notice it holds,
or none when the window is garbled. -/
def judgeNotice (frame : List Byte) : Option NodeNotice :=
  if 4 ≤ frame.length ∧ frame.length ≤ 7 ∧ checkPasses frame then
    match frame.dropLast with
    | src :: kind :: seq :: arg =>
      if kind &&& 0xE0 = 0 ∧ seq &&& 0xF0 = 0 then
        (addrOf src).map fun a =>
          { source := a, kind := kind.setWidth 5, seq := seq.setWidth 4, arg := arg }
      else none
    | _ => none
  else none

/-! ## The part's own calls -/

/-- PING to a node (section 1.4). -/
def pingCall (a : Addr) : Call := { target := .node a, verb := verbPing, reply := true, args := [] }

/-- TAKEN to a node with a notice sequence (R148). -/
def takenCall (a : Addr) (seq : BitVec 4) : Call :=
  { target := .node a, verb := verbTaken, reply := true, args := [seq.setWidth 8] }

/-- LISTEN to ALL (R145). -/
def listenCall : Call := { target := .all, verb := verbListen, reply := false, args := [] }

/-- ROLL with a seed and a number of positions (R129). -/
def rollCall (seed : Half) (positions : Nat) : Call :=
  { target := .unaddressed, verb := verbRoll, reply := false, args := be16 seed ++ [byteOf positions] }

/-- PICK of a position (R130). -/
def pickCall (position : Nat) : Call :=
  { target := .unaddressed, verb := verbPick, reply := true, args := [byteOf position] }

/-- ASSIGN of an identity to an address (R137). -/
def assignCall (identity : UnitNo) (a : Addr) : Call :=
  { target := .unaddressed, verb := verbAssign, reply := true, args := be40 identity ++ [addrByte a] }

/-- STAGE of bytes at an offset (R108). -/
def stageCall (a : Addr) (index : Byte) (offset : Nat) (data : List Byte) : Call :=
  { target := .node a, verb := verbStage, reply := true, args := index :: byteOf offset :: data }

/-- COMMIT of an index, a length and a digest (R108). -/
def commitCall (a : Addr) (index : Byte) (length : Nat) (digest : Half) : Call :=
  { target := .node a, verb := verbCommit, reply := true,
    args := index :: byteOf length :: be16 digest }

/-- CHECK of an index (R108). -/
def checkCall (a : Addr) (index : Byte) : Call :=
  { target := .node a, verb := verbCheck, reply := true, args := [index] }

/-- The commit digest of an index, a length and data bytes (R17): the sum modulo 65536 of the
index, the length and each byte multiplied by its 1-based position. -/
def commitDigest (index : Byte) (length : Nat) (data : List Byte) : Half :=
  BitVec.ofNat 16
    (index.toNat + length + (data.zipIdx.map fun p => p.1.toNat * (p.2 + 1)).sum)

end Sys2Proof.Machine
end

