-- ==== Sys2Proof/Machine/Ops.lean ====
section
/-! DEFINITION. The named operations over the state: reading and replacing a line engine, a node
entry, a slot, a ring or a reflex entry, the millisecond count and its deadlines, and the creation
of notice records. -/

namespace Sys2Proof.Machine

/-! ## Parts of the state -/

/-- The engine of a line. -/
def State.engine (s : State) (l : Line) : LineEngine := s.lines.get l

/-- The state with the engine of a line replaced. -/
def State.setEngine (s : State) (l : Line) (e : LineEngine) : State :=
  { s with lines := s.lines.set l e }

/-- The node table of a line. -/
def State.table (s : State) (l : Line) : Vector NodeEntry 80 := s.nodes.get l

/-- The state with the node table of a line replaced. -/
def State.setTable (s : State) (l : Line) (t : Vector NodeEntry 80) : State :=
  { s with nodes := s.nodes.set l t }

/-- The entry of an address. -/
def State.entry (s : State) (l : Line) (a : Addr) : NodeEntry := (s.table l)[a]

/-- The state with the entry of an address replaced. -/
def State.setEntry (s : State) (l : Line) (a : Addr) (e : NodeEntry) : State :=
  s.setTable l ((s.table l).set a e)

/-- The slot of a number, absent when it is FREE. -/
def State.slot (s : State) (i : SlotId) : Option Slot := s.slots[i]

/-- The state with a slot replaced. -/
def State.setSlot (s : State) (i : SlotId) (sl : Option Slot) : State :=
  { s with slots := s.slots.set i sl }

/-- The work ring of a number. -/
def State.workRing (s : State) (r : WorkRingId) : WorkRing := s.work[r]

/-- The state with a work ring replaced. -/
def State.setWorkRing (s : State) (r : WorkRingId) (w : WorkRing) : State :=
  { s with work := s.work.set r w }

/-- The result ring of a number. -/
def State.resultRing (s : State) (q : ResultRingId) : ResultRing := s.results[q]

/-- The state with a result ring replaced. -/
def State.setResultRing (s : State) (q : ResultRingId) (r : ResultRing) : State :=
  { s with results := s.results.set q r }

/-- The shared fields of a written ring. -/
def State.outRing (s : State) : RingName → OutputRing
  | .result q => (s.resultRing q).out
  | .notice => s.notice

/-- The state with the shared fields of a written ring replaced. -/
def State.setOutRing (s : State) (n : RingName) (o : OutputRing) : State :=
  match n with
  | .result q => s.setResultRing q { s.resultRing q with out := o }
  | .notice => { s with notice := o }

/-- The reflex entry of an index. -/
def State.reflex (s : State) (k : ReflexId) : ReflexEntry := s.reflexes[k]

/-- The state with a reflex entry replaced. -/
def State.setReflex (s : State) (k : ReflexId) (e : ReflexEntry) : State :=
  { s with reflexes := s.reflexes.set k e }

/-- The reflex queue of a line. -/
def State.queue (s : State) (l : Line) : List QueuedCall := s.queues.get l

/-- The state with the reflex queue of a line replaced. -/
def State.setQueue (s : State) (l : Line) (q : List QueuedCall) : State :=
  { s with queues := s.queues.set l q }

/-- The addresses, slots, work rings 1 to 7, result rings and reflex indices in ascending order. -/
def allAddrs : List Addr := List.finRange 80
def allSlots : List SlotId := List.finRange 24
def lineRings : List WorkRingId := [1, 2, 3, 4, 5, 6, 7]
def allResultRings : List ResultRingId := [0, 1, 2, 3]
def allReflexes : List ReflexId := List.finRange 32

/-! ## Time -/

/-- The part acts: it is not HALTED (R201). -/
def State.live (s : State) : Bool := s.device != .halted

/-- The millisecond count runs (R198): from the START that leads to STARTING until HALTED. -/
def State.counting (s : State) : Bool :=
  match s.device with
  | .starting | .running | .stopping | .stopped => true
  | .reset | .halted => false

/-- A deadline some milliseconds after now, modulo 2^32 (R198). -/
def State.after (s : State) (ms : Nat) : Word := s.ms + BitVec.ofNat 32 ms

/-- A deadline has been reached, judged by its forward distance (R198). -/
def reached (now deadline : Word) : Bool := (now - deadline).toNat < 2 ^ 31

/-- A running deadline has been reached. -/
def State.due (s : State) : Option Word → Bool
  | none => false
  | some d => reached s.ms d

/-! ## Notices -/

/-- A creation reaches the notice unit (R151): it is stamped and joins the buffer with the lost
count, which becomes 0, or it is discarded and counted lost. -/
def createNotice (line : Option Line) (body : NoticeBody) (s : State) : State :=
  if s.buffer.length < 16 then
    { s with
      buffer := s.buffer ++ [{ body := body, line := line, stamp := s.ms, lost := s.lost }],
      lost := 0 }
  else { s with lost := min 255 (s.lost + 1) }

/-! ## Ring counts -/

/-- written − consumed of a written ring, modulo 65536. -/
def OutputRing.unconsumed (o : OutputRing) : Nat := (o.written - o.consumed).toNat

/-- A written ring is full (R183). -/
def OutputRing.full (o : OutputRing) : Bool := o.size ≤ o.unconsumed

/-- posted − fetched of a work ring, modulo 65536. -/
def WorkRing.ahead (w : WorkRing) : Nat := (w.posted - w.fetched).toNat

/-- The host address of the entry of a count (R174, R182). It wraps modulo 2^32: DESIGN CHOICE,
assumption log 25. -/
def entryAddr (base : Word) (size : Nat) (count : Half) : Word :=
  base + BitVec.ofNat 32 (32 * (count.toNat % size))

/-! ## Slots -/

/-- A slot is unfinished: WAITING, READY, ON_LINE or PAUSED (R63). -/
def Slot.unfinished (sl : Slot) : Bool := sl.state != .finishing

/-- Of two fetch sequences, the first is the older (R66). -/
def olderSeq (x y : Word) : Bool := 0 < (y - x).toNat && (y - x).toNat < 2 ^ 31

/-- A slot is not FREE and names the ring, or is reserved for the ring's fetch (R65). -/
def State.ringSlots (s : State) (r : WorkRingId) : Nat :=
  (allSlots.filter fun i => ((s.slot i).map fun sl => sl.ring == r).getD false).length
    + (match s.workFetch with | some f => if f.ring = r then 1 else 0 | none => 0)

/-- The slots that are FREE and not reserved, in ascending order (R65, R66). -/
def State.freeSlots (s : State) : List SlotId :=
  allSlots.filter fun i =>
    (s.slot i).isNone && (match s.workFetch with | some f => f.slot != i | none => true)

/-- All 24 slots are FREE (R199). -/
def State.allFree (s : State) : Bool := allSlots.all fun i => (s.slot i).isNone

/-! ## Seed generator -/

/-- The next 16-bit seed (R129). -/
def drawSeed (s : State) : Half × State :=
  (Config.seed s.draws, { s with draws := s.draws + 1 })

/-- The next backoff, 1 to 8 gap units (R31). -/
def drawBackoff (s : State) : Nat × State :=
  ((Config.backoff s.draws).val + 1, { s with draws := s.draws + 1 })

end Sys2Proof.Machine
end

