-- ==== Sys2Proof/Machine/Operands.lean ====
section
/-! DEFINITION. The operand forms: the fields of work records and administrative records, read
from their bytes and checked (R67, R68, R169, R205 to R209, R212), and the boot block (R197). A
reader answers none when a check fails, and the record is then BAD_RECORD. -/

namespace Sys2Proof.Machine

/-! ## Codes -/

/-- A line code (R212). -/
def lineOf (b : Byte) : Option Line :=
  if b = 0 then some .a else if b = 1 then some .b else none

/-- A zone from its number, 1 to 12. -/
def zoneOf (b : Byte) : Option Zone :=
  if h : 1 ≤ b.toNat ∧ b.toNat ≤ 12 then some ⟨b.toNat - 1, by omega⟩ else none

/-- A target from its kind and number (R212): 0 NODE, 1 ZONE, 2 ALL. -/
def targetOf (kind number : Byte) : Option Target :=
  if kind = 0 then (addrOf number).map .node
  else if kind = 1 then (zoneOf number).map .zone
  else if kind = 2 then some .all
  else none

/-- A number within bounds. -/
def within (lo hi n : Nat) : Option Nat := if lo ≤ n ∧ n ≤ hi then some n else none

/-- A check that a condition holds. -/
def check (b : Bool) : Option Unit := if b then some () else none

/-- A retry override (R212): 0 to 7, or FFh for the line default. -/
def retryOf (b : Byte) : Option (Option Nat) :=
  if b = 0xFF then some none else (within 0 7 b.toNat).map some

/-- A ring size (R174, R181): 8 to 1024, a power of two. -/
def sizeOf? (n : Nat) : Option Nat :=
  if n ∈ [8, 16, 32, 64, 128, 256, 512, 1024] then some n else none

/-- A host address that is a multiple of some number of bytes. -/
def aligned (n : Nat) (a : Word) : Option Word := if a.toNat % n = 0 then some a else none

/-- An application verb, 16 to 63. -/
def appVerbOf (b : Byte) : Option (BitVec 6) :=
  if 16 ≤ b.toNat ∧ b.toNat ≤ 63 then some (b.setWidth 6) else none

/-! ## Fields of every record -/

/-- The tag, bytes 4 to 7 (R212). -/
def recordTag (r : Record) : Word := join32 r[7] r[6] r[5] r[4]

/-- The FORCE flag, byte 1 bit 0 (R212). -/
def recordForce (r : Record) : Bool := r[1].getLsbD 0

/-- The defer, bytes 8 and 9 (R212). -/
def recordDefer (r : Record) : Nat := (join16 r[9] r[8]).toNat

/-- The expire, bytes 10 and 11 (R212). -/
def recordExpire (r : Record) : Nat := (join16 r[11] r[10]).toNat

/-! ## Line work -/

/-- The kinds of the commands that fill a slot. -/
inductive WorkKind where
  | call
  | sweep
  | param
  | discover
  | unknown
deriving DecidableEq, Repr

/-- The target is NODE. -/
def Target.isNode : Target → Bool
  | .node _ => true
  | .zone _ | .all | .unaddressed => false

/-- A CALL's fields, checked by R68. -/
def decodeCall (r : Record) : Option Work := do
  let target ← targetOf r[12] r[13]
  let toNode : Bool := target.isNode
  let mode ← if toNode then (if r[15] = 0 then some false else if r[15] = 1 then some true else none)
    else some false
  let count ← within 0 6 r[16].toNat
  let verb ←
    if r[14] = 0 then (if toNode ∧ mode ∧ count = 0 then some verbPing else none)
    else if r[14] = 2 then
      (if (toNode ∧ mode ∨ target = .all) ∧ count = 0 then some verbUnassign else none)
    else appVerbOf r[14]
  some (.call
    { target := target, verb := verb, reply := mode,
      args := [r[17], r[18], r[19], r[20], r[21], r[22]].take count, busyLimit := 0,
      busyRounds := 0, lastReply := none, allGarbled := false, noticePending := false, data := [] })

/-- A SWEEP's fields, checked by R68. Its list is formed at the fill (R98). -/
def decodeSweep (r : Record) : Option Work :=
  if r[12] = 0 then some (.sweep { all := false, marks := [], step := none })
  else if r[12] = 1 then some (.sweep { all := true, marks := [], step := none })
  else none

/-- A PARAM_WRITE's fields, checked by R68, with its commit digest (R104). -/
def decodeParam (r : Record) : Option Work := do
  let addr ← addrOf r[12]
  let length ← within 1 8 r[14].toNat
  let data := [r[18], r[19], r[20], r[21], r[22], r[23], r[24], r[25]].take length
  let _ ← check (r[13] ≠ 0 ∨ (length = 2 ∧ r[18] &&& 0xF0 = 0))
  let budgetField := (join16 r[17] r[16]).toNat
  let budget ← if budgetField = 0 then some 0 else within 10 250 budgetField
  let attempts ← within 1 3 r[15].toNat
  some (.param
    { addr := addr, index := r[13], length := length, data := data, budget := budget,
      attempts := attempts, digest := commitDigest r[13] length data, phase := none, attempt := 1,
      unverified := false, finalFlag := false, polls := 0, lastReply := none, readback := none,
      firstGrant := none, preludeUsed := false, preludeBusy := false, accepted := false,
      verified := false, mismatch := false, budgetPassed := false, outcome := .none,
      replyData := [] })

/-- A DISCOVER's fields, checked by R68. -/
def decodeDiscover (r : Record) : Option Work := do
  let positions := r[12].toNat
  let _ ← check (positions = 8 ∨ positions = 16 ∨ positions = 32)
  let limit ← within 1 64 r[13].toNat
  let first ← addrOf r[14]
  let last ← addrOf r[15]
  let _ ← check (first.val ≤ last.val)
  some (.discover
    { positions := positions, roundLimit := limit, poolFirst := first, poolLast := last,
      phase := .roll, rounds := 0, seed := none, nextPosition := 0, clean := [],
      roundCollided := 0, avoid := [], current := none, candidate := none, assigned := 0,
      lost := 0, cleanTotal := 0, collidedTotal := 0, endReason := .none })

/-- The kind-specific check (R68). -/
def decodeKind (k : WorkKind) (r : Record) : Option Work :=
  match k with
  | .call => decodeCall r
  | .sweep => decodeSweep r
  | .param => decodeParam r
  | .discover => decodeDiscover r
  | .unknown => none

/-- The retry override of a record of a kind; a DISCOVER does not use it (R67, R127, assumption
log 15). -/
def decodeRetry (k : WorkKind) (r : Record) : Option (Option Nat) :=
  match k with
  | .discover => some none
  | _ => retryOf r[2]

/-- A work record's override and work fields, when it passes every check of R67 and R68. -/
def decodeWork (k : WorkKind) (r : Record) : Option (Option Nat × Work) := do
  let _ ← check (k ≠ .unknown)
  let retry ← decodeRetry k r
  let _ ← check (recordExpire r = 0 ∨ recordDefer r < recordExpire r)
  let work ← decodeKind k r
  some (retry, work)

/-! ## Administrative records -/

/-- A work ring 1 to 7 (R205). -/
def lineRingOf (b : Byte) : Option WorkRingId :=
  if h : 1 ≤ b.toNat ∧ b.toNat ≤ 7 then some ⟨b.toNat, by omega⟩ else none

/-- A result ring 0 to 3 (R205). -/
def resultRingOf (b : Byte) : Option ResultRingId :=
  if h : b.toNat ≤ 3 then some ⟨b.toNat, by omega⟩ else none

/-- A result ring 1 to 3 (R205). -/
def openResultRingOf (b : Byte) : Option ResultRingId :=
  if b = 0 then none else resultRingOf b

/-- A ring class code (R212). -/
def classOf (b : Byte) : Option RingClass :=
  if b = 0 then some .urgent else if b = 1 then some .normal else if b = 2 then some .bulk
  else none

/-- OPEN_WORK_RING's ring and fields (R205). -/
def decodeOpenWork (r : Record) : Option (WorkRingId × WorkRing) := do
  let ring ← lineRingOf r[12]
  let base ← aligned 32 (join32 r[23] r[22] r[21] r[20])
  let size ← sizeOf? (join16 r[19] r[18]).toNat
  let line ← lineOf r[13]
  let cls ← classOf r[14]
  let bound ← resultRingOf r[15]
  let credit ← within 1 24 r[16].toNat
  some (ring, { state := .closed, base := base, size := size, line := line, cls := cls,
                bound := bound, credit := credit, posted := 0, fetched := 0 })

/-- The fields that OPEN_RESULT_RING and OPEN_NOTICE_RING share (R205): the ring as its open leaves
it, ACTIVE with counts 0 and its condition clear (R181, R188, R189). -/
def decodeOpenOut (r : Record) : Option OutputRing := do
  let base ← aligned 32 (join32 r[23] r[22] r[21] r[20])
  let size ← sizeOf? (join16 r[19] r[18]).toNat
  let progress ← aligned 4 (join32 r[27] r[26] r[25] r[24])
  let threshold ← within 1 64 r[13].toNat
  some { state := .active, base := base, size := size, progress := progress,
         threshold := threshold, holdoff := r[14].toNat, written := 0, consumed := 0,
         signalled := false, timer := none, access := .idle }

/-- A bit rate code (R212). -/
def rateOf (b : Byte) : Option BitRate :=
  if b = 0 then some .r2400 else if b = 1 then some .r4800 else if b = 2 then some .r9600 else none

/-- LINE_SET's line and settings (R39, R206). -/
def decodeLineSet (r : Record) : Option (Line × LineConfig) := do
  let line ← lineOf r[12]
  let rate ← rateOf r[13]
  let retry ← within 0 7 r[14].toNat
  let silence ← within 1 15 r[15].toNat
  let listen ← within 20 2000 (join16 r[17] r[16]).toNat
  let poll ← within 2 30 r[18].toNat
  let budget ← within 10 250 (join16 r[21] r[20]).toNat
  let settle ← within 0 1000 (join16 r[23] r[22]).toNat
  some (line, { rate := rate, retryLimit := retry, silence := silence, listenInterval := listen,
                pollInterval := poll, budget := budget, settle := settle })

/-- A reflex index 0 to 31 (R169). -/
def reflexIdOf (b : Byte) : Option ReflexId :=
  if h : b.toNat ≤ 31 then some ⟨b.toNat, by omega⟩ else none

/-- A match source (R212): 0 for ANY. -/
def sourceOf (b : Byte) : Option (Option Addr) :=
  if b = 0 then some none else (addrOf b).map some

/-- REFLEX_PUT's index and the entry it writes, ARMED with fire count 0 and quiet-until absent
(R169). -/
def decodeReflexPut (r : Record) : Option (ReflexId × ReflexEntry) := do
  let k ← reflexIdOf r[12]
  let matchLine ← lineOf r[13]
  let source ← sourceOf r[14]
  let kind ← within 0 31 r[15].toNat
  let actionLine ← lineOf r[18]
  let target ← targetOf r[19] r[20]
  let verb ← appVerbOf r[21]
  let count ← within 0 6 r[22].toNat
  let holdoff ← within 0 60000 (join16 r[30] r[29]).toNat
  some (k, { armed := true, matchLine := matchLine, matchSource := source,
             matchKind := BitVec.ofNat 5 kind,
             matchArg := if r[16].getLsbD 0 then some r[17] else none,
             actionLine := actionLine, target := target, verb := verb,
             args := [r[23], r[24], r[25], r[26], r[27], r[28]].take count, holdoff := holdoff,
             report := r[16].getLsbD 1, fireCount := 0, quietUntil := none })

/-- REFLEX_READ's index and host address (R171, R207). -/
def decodeReflexRead (r : Record) : Option (ReflexId × Word) := do
  let k ← reflexIdOf r[12]
  let a ← aligned 32 (join32 r[23] r[22] r[21] r[20])
  some (k, a)

/-- NODE_READ's line, first address, count and buffer address (R208). -/
def decodeNodeRead (r : Record) : Option (Line × Addr × Nat × Word) := do
  let line ← lineOf r[12]
  let first ← addrOf r[13]
  let count ← within 1 80 r[14].toNat
  let _ ← check (first.val + count ≤ 80)
  let buffer ← aligned 32 (join32 r[23] r[22] r[21] r[20])
  some (line, first, count, buffer)

/-- NODE_CLEAR's line and address (R59, R207). -/
def decodeNodeClear (r : Record) : Option (Line × Addr) := do
  let line ← lineOf r[12]
  let a ← addrOf r[13]
  some (line, a)

/-- ABORT's work ring and tag (R209, R212). -/
def decodeAbort (r : Record) : Option (WorkRingId × Word) := do
  let ring ← lineRingOf r[12]
  some (ring, join32 r[19] r[18] r[17] r[16])

/-! ## Boot block -/

/-- Work ring 0 and result ring 0 as the boot block opens them, when every field is in its range
(R174, R181, R197, R198). -/
def decodeBoot (b : Record) : Option (WorkRing × OutputRing) := do
  let adminBase ← aligned 32 (join32 b[3] b[2] b[1] b[0])
  let adminSize ← sizeOf? (join16 b[5] b[4]).toNat
  let base ← aligned 32 (join32 b[11] b[10] b[9] b[8])
  let size ← sizeOf? (join16 b[13] b[12]).toNat
  let progress ← aligned 4 (join32 b[19] b[18] b[17] b[16])
  let threshold ← within 1 64 b[14].toNat
  some ({ WorkRing.reset with state := .active, base := adminBase, size := adminSize },
        { state := .active, base := base, size := size, progress := progress,
          threshold := threshold, holdoff := b[15].toNat, written := 0, consumed := 0,
          signalled := false, timer := none, access := .idle })

end Sys2Proof.Machine
end

