-- ==== Sys2Proof/Machine/Formats.lean ====
section
/-! DEFINITION. The byte layouts the part writes into host memory (R212): result records with the
detail of each kind, notice records, node and reflex entry images, and progress words (R213). -/

namespace Sys2Proof.Machine

/-- A line code (R212). -/
def lineByte : Line → Byte
  | .a => 0
  | .b => 1

/-- A status code (R212). -/
def statusByte : Status → Byte
  | .ok => 0
  | .refused => 1
  | .protected_ => 2
  | .nodeBusy => 3
  | .noReply => 4
  | .garbled => 5
  | .collided => 6
  | .lineDown => 7
  | .lineReset => 8
  | .nodeClash => 9
  | .verifyFail => 10
  | .commitTimeout => 11
  | .expired => 12
  | .aborted => 13
  | .badRecord => 14
  | .badState => 20
  | .bound => 21
  | .notFound => 22
  | .hostFault => 23

/-- A reply status in a detail: FFh for none (R212). -/
def lastReplyByte : Option ReplyStatus → Byte
  | none => 0xFF
  | some st => replyStatusCode st

/-! ## Result records -/

/-- The 32 bytes of a result record (R212). -/
def resultBytes (r : ResultRecord) : List Byte :=
  padTo 32 ([r.code, statusByte r.status, byteOf r.ring.val, 0] ++ le32 r.tag ++ r.detail)

/-- The result carries the data of the last valid reply (R97). -/
def carriesData : Status → Bool
  | .ok | .refused | .protected_ | .nodeBusy => true
  | _ => false

/-- A CALL's detail (R97, R212). -/
def callDetail (st : Status) (tries : Nat) (w : CallWork) : List Byte :=
  let data := if carriesData st then w.data else []
  [byteOf tries, byteOf w.busyRounds, lastReplyByte w.lastReply,
    flagBit w.allGarbled 0 ||| flagBit w.noticePending 1, byteOf data.length] ++ padTo 8 data

/-- A sweep's addresses that a ping marked DONE and whose entry is in a state (R102). -/
def countPinged (t : Vector NodeEntry 80) (w : SweepWork) (st : NodeState) : Nat :=
  (w.marks.filter fun m => m.2 == .pinged && t[m.1].state == st).length

/-- A SWEEP's five counts, taken over the table as it stands (R102, R212). -/
def sweepDetail (t : Vector NodeEntry 80) (w : SweepWork) : List Byte :=
  [byteOf (w.marks.filter fun m => m.2 == .pinged).length, byteOf (countPinged t w .present),
    byteOf (countPinged t w .silent), byteOf (countPinged t w .clash),
    byteOf (w.marks.filter fun m => m.2 == .busy).length]

/-- A commit outcome code (R212). -/
def commitOutcomeByte : CommitOutcome → Byte
  | .none => 0
  | .verified => 1
  | .mismatch => 2
  | .unknown => 3

/-- A PARAM_WRITE's detail at a millisecond count (R126, R212). -/
def paramDetail (now : Word) (w : ParamWork) : List Byte :=
  let attempts := if w.firstGrant.isSome then w.attempt else 0
  let elapsed := match w.firstGrant with
    | none => 0
    | some t => min 65535 (now - t).toNat
  [byteOf attempts, commitOutcomeByte w.outcome, lastReplyByte w.lastReply,
    flagBit w.preludeUsed 0 ||| flagBit w.readback.isSome 1] ++ le16 (w.readback.getD 0)
    ++ [byteOf w.polls, 0] ++ le16 (BitVec.ofNat 16 elapsed)
    ++ [byteOf w.replyData.length] ++ padTo 8 w.replyData

/-- An end reason code (R212). -/
def endReasonByte : EndReason → Byte
  | .none => 0
  | .quiet => 1
  | .roundLimit => 2
  | .poolExhausted => 3
  | .aborted => 4
  | .cut => 5

/-- A DISCOVER's detail (R143, R212). -/
def discoverDetail (w : DiscoverWork) : List Byte :=
  [endReasonByte w.endReason, byteOf w.rounds, byteOf w.assigned, byteOf w.lost,
    byteOf w.cleanTotal, byteOf w.collidedTotal, byteOf w.roundCollided]

/-- The results that made no step have a detail of zero (R68, R79, R97, R101, R102, R126, R142):
EXPIRED, NODE_CLASH, BAD_RECORD, and a CALL, PARAM_WRITE or SWEEP aborted before its first grant. -/
def zeroDetail (st : Status) (sl : Slot) : Bool :=
  match st, sl.work with
  | .expired, _ | .nodeClash, _ | .badRecord, _ => true
  | .aborted, .call _ | .aborted, .param _ | .aborted, .sweep _ => !sl.started
  | _, _ => false

/-- The detail of a slot's result (R97, R102, R126, R143). -/
def slotDetail (s : State) (st : Status) (sl : Slot) : List Byte :=
  if zeroDetail st sl then []
  else match sl.work with
    | .call w => callDetail st sl.tries w
    | .sweep w => sweepDetail (s.table sl.line) w
    | .param w => paramDetail s.ms w
    | .discover w => discoverDetail w
    | .unknown => []

/-! ## Notice records -/

/-- The source code of a notice record (R155, R212). -/
def noticeSource : NoticeBody → Byte
  | .nodeNotice _ => 0
  | .nodeFound _ _ _ | .nodeSilent _ _ _ | .nodeBack _ _ | .nodeClash _ _ _
  | .nodeReplaced _ _ _ | .nodeMoved _ _ _ => 1
  | .lineDown _ | .lineUp _ => 2
  | .reflexFired _ _ | .reflexDropped _ _ => 3
  | .ringFault _ _ _ | .postIgnored _ _ _ => 4

/-- The kind code of a notice record (R212). -/
def noticeKind : NoticeBody → Byte
  | .nodeNotice _ => 1
  | .nodeFound _ _ _ => 2
  | .nodeSilent _ _ _ => 3
  | .nodeBack _ _ => 4
  | .nodeClash _ _ _ => 5
  | .nodeReplaced _ _ _ => 6
  | .nodeMoved _ _ _ => 7
  | .lineDown _ => 8
  | .lineUp _ => 9
  | .reflexFired _ _ => 10
  | .reflexDropped _ _ => 11
  | .ringFault _ _ _ => 12
  | .postIgnored _ _ _ => 13

/-- The bytes 8 onward of a table notice (R212). -/
def tableFields (a newAddr : Byte) (identity : Option UnitNo) (b11 : Byte) (new : UnitNo) :
    List Byte :=
  [a, newAddr, flagBit identity.isSome 0, b11] ++ le40 (identity.getD 0) ++ le40 new

/-- The former state that NODE_CLASH names (R155, R212). -/
def formerByte : NodeState → Byte
  | .vacant => 0
  | .present => 1
  | .silent => 2
  | .clash => 3

/-- The usable state that LINE_DOWN names (R156, R212). -/
def leftByte : LineState → Byte
  | .calling => 1
  | .awaiting => 2
  | .receiving => 3
  | .listening => 4
  | .idle | .off | .restoring | .down => 0

/-- A fault reason code (R212). -/
def faultByte : FaultReason → Byte
  | .fetchFault => 0
  | .badPost => 1
  | .writeFault => 2
  | .badTake => 3

/-- The ring type and number of RING_FAULT (R212). The record's layout gives the notice ring no
number, so that byte is a free value: DESIGN CHOICE, assumption log 28. -/
def ringBytes : AnyRing → List Byte
  | .work r => [0, byteOf r.val]
  | .result q => [1, byteOf q.val]
  | .notice => [2, Config.noticeRingNumber]

/-- The bytes 8 onward of a notice record (R155 to R157, R212). -/
def noticeFields : NoticeBody → List Byte
  | .nodeNotice n =>
    [addrByte n.source, n.kind.setWidth 8, n.seq.setWidth 8, byteOf n.arg.length] ++ n.arg
  | .nodeFound a identity kind => tableFields (addrByte a) 0 (some identity) kind 0
  | .nodeSilent a identity misses => tableFields (addrByte a) 0 identity (byteOf misses) 0
  | .nodeBack a identity => tableFields (addrByte a) 0 identity 0 0
  | .nodeClash a former identity => tableFields (addrByte a) 0 identity (formerByte former) 0
  | .nodeReplaced a previous new => tableFields (addrByte a) 0 (some previous) 0 new
  | .nodeMoved former new identity =>
    tableFields (addrByte former) (addrByte new) (some identity) 0 0
  | .lineDown left => [leftByte left]
  | .lineUp origin => [match origin with | .off => 0 | .down => 1]
  | .reflexFired k count => [byteOf k.val, 0] ++ le16 (BitVec.ofNat 16 count)
  | .reflexDropped k reason =>
    [byteOf k.val, match reason with | .queueFull => 0 | .lineUnavailable => 1]
  | .ringFault ring reason lost =>
    ringBytes ring ++ [faultByte reason, 0] ++ le16 (BitVec.ofNat 16 lost)
  | .postIgnored ring reason count =>
    [ring, match reason with | .ringClosed => 0 | .noSuchRing => 1] ++ le16 count

/-- The 32 bytes of a notice record (R155, R212). -/
def noticeBytes (n : NoticeRecord) : List Byte :=
  padTo 32
    ([noticeSource n.body, noticeKind n.body,
        match n.line with | none => 0xFF | some l => lineByte l, byteOf n.lost]
      ++ le32 n.stamp ++ noticeFields n.body)

/-! ## Images and progress words -/

/-- The 32 bytes of a node entry image (R61, R212). -/
def nodeImage (l : Line) (a : Addr) (e : NodeEntry) : List Byte :=
  padTo 32
    ([addrByte a, lineByte l, formerByte e.state,
        flagBit e.identity.isSome 0 ||| flagBit e.kind.isSome 1 ||| flagBit e.zones.isSome 2
          ||| flagBit e.lastSeq.isSome 3 ||| flagBit e.lastHeard.isSome 4
          ||| flagBit e.lock.isSome 5]
      ++ le40 (e.identity.getD 0) ++ [e.kind.getD 0] ++ le16 ((e.zones.getD 0).setWidth 16)
      ++ [byteOf e.misses, byteOf e.garbles, (e.lastSeq.getD 0).setWidth 8,
          match e.lock with | none => 0 | some i => byteOf i.val,
          match e.store with | .clean => 0 | .unknown => 1, 0, 0, 0]
      ++ le32 (e.lastHeard.getD 0))

/-- The target-kind code and the address or zone of an action (R212). For target ALL, which has
neither, the byte is 0: DEDUCED, assumption log 30. -/
def actionTarget : Target → List Byte
  | .node a => [0, addrByte a]
  | .zone z => [1, byteOf (z.val + 1)]
  | .all | .unaddressed => [2, 0]

/-- The 32 bytes of a reflex entry image (R171, R212). -/
def reflexImage (k : ReflexId) (e : ReflexEntry) : List Byte :=
  padTo 32
    ([byteOf k.val, if e.armed then 1 else 0,
        flagBit e.matchArg.isSome 0 ||| flagBit e.report 1 ||| flagBit e.quietUntil.isSome 2,
        lineByte e.matchLine, match e.matchSource with | none => 0 | some a => addrByte a,
        e.matchKind.setWidth 8, e.matchArg.getD 0, lineByte e.actionLine]
      ++ actionTarget e.target ++ [e.verb.setWidth 8, byteOf e.args.length] ++ padTo 6 e.args
      ++ le16 (BitVec.ofNat 16 e.holdoff) ++ le16 (BitVec.ofNat 16 e.fireCount) ++ [0, 0]
      ++ le32 (e.quietUntil.getD 0))

/-- The bytes of a progress word (R182, R213). -/
def progressBytes (written : Half) : List Byte := le32 (written.setWidth 32)

end Sys2Proof.Machine
end

