-- ==== Sys2Proof/Machine/Flags.lean ====
section
/-! DEFINITION. The conditions of SIGNAL, the INT pin, and what a read of each register returns
(R189 to R194, R213). -/

namespace Sys2Proof.Machine

/-- At least one of the six conditions is set (R191, R192). -/
def State.anyCondition (s : State) : Bool :=
  (allResultRings.any fun q => (s.resultRing q).out.signalled) || s.notice.signalled
    || s.deviceEvent

/-- INT is asserted (R192). -/
def State.intAsserted (s : State) : Bool := s.intEnable && s.anyCondition

/-- TX of a line is released: the part is sending no frame (R6, R21). -/
def State.txReleased (s : State) (l : Line) : Bool := (s.engine l).frame.isEmpty

/-- A device state code (R213). -/
def deviceCode : DeviceState → Word
  | .reset => 0
  | .starting => 1
  | .running => 2
  | .stopping => 3
  | .stopped => 4
  | .halted => 5

/-- A halt reason code (R213). -/
def haltCode : HaltReason → Word
  | .none => 0
  | .bootInvalid => 1
  | .bootFault => 2
  | .adminFault => 3
  | .result0Fault => 4

/-- A flag as a bit of a register. -/
def wordBit (b : Bool) (place : Nat) : Word := if b then BitVec.ofNat 32 (2 ^ place) else 0

/-- The SIGNAL register's six conditions (R191, R213). -/
def State.signalWord (s : State) : Word :=
  wordBit (s.resultRing 0).out.signalled 0 ||| wordBit (s.resultRing 1).out.signalled 1
    ||| wordBit (s.resultRing 2).out.signalled 2 ||| wordBit (s.resultRing 3).out.signalled 3
    ||| wordBit s.notice.signalled 4 ||| wordBit s.deviceEvent 5

/-- What a read of the register at an offset returns (R194, R213). While the RESET pin is held low,
reads return the values after reset. -/
def State.readRegister (s : State) (offset : Word) : Word :=
  if offset = 0x00 then 0x57540201
  else if s.resetPinLow then 0
  else if offset = 0x04 then wordBit s.intEnable 8
  else if offset = 0x08 then deviceCode s.device ||| (haltCode s.halt <<< 8)
  else if offset = 0x0C then s.boot
  else if offset = 0x18 then s.signalWord
  else 0

/-- A write of a ring has raised written (R189, R190): from 0 unconsumed entries to 1 the holdoff
timer starts, and at or above the threshold the condition is set. A ring that is not ACTIVE sets no
condition (R189). That it starts no timer either, where R190's first start names no ring state, is the
model's: DESIGN CHOICE, assumption log 31. -/
def OutputRing.signalWrite (now : Word) (o : OutputRing) : OutputRing :=
  if o.state = .active then
    { o with
      timer := if o.unconsumed = 1 then some (now + BitVec.ofNat 32 o.holdoff) else o.timer
      signalled := o.signalled || decide (o.threshold ≤ o.unconsumed) }
  else o

/-- The acknowledgement of a ring through SIGNAL (R190, R191). While the part is HALTED no timer
starts (R193). -/
def OutputRing.acknowledge (now : Word) (live : Bool) (o : OutputRing) : OutputRing :=
  if o.signalled then
    { o with
      signalled := false
      timer := if live ∧ o.state = .active ∧ 0 < o.unconsumed then
          some (now + BitVec.ofNat 32 o.holdoff) else o.timer }
  else o

/-- The holdoff timer of a ring expires (R189, R190). -/
def OutputRing.holdoffExpired (o : OutputRing) : OutputRing :=
  { o with
    timer := none
    signalled := o.signalled || (o.state == .active && decide (0 < o.unconsumed)) }

end Sys2Proof.Machine
end

