-- ==== Sys2Proof/Machine/NodeTable.lean ====
section
/-! DEFINITION. The node table (chapter 3): hearings, misses and garbles, identities, notices,
UNASSIGN and ASSIGN updates, locks, commit outcomes, the silence threshold, and clearing. Each
update is applied whole and creates its notices in the order its rule gives (R44). -/

namespace Sys2Proof.Machine

/-! ## Presence -/

/-- The entry after a hearing at a millisecond count (R45). -/
def NodeEntry.heard (t : Word) (e : NodeEntry) : NodeEntry :=
  match e.state with
  | .clash => { e with lastHeard := some t }
  | .vacant | .present | .silent =>
    { e with state := .present, misses := 0, garbles := 0, lastHeard := some t }

/-- A hearing of an address (R45), with NODE_BACK for a SILENT entry. -/
def hear (l : Line) (a : Addr) (s : State) : State :=
  let e := s.entry l a
  let s := s.setEntry l a (e.heard s.ms)
  match e.state with
  | .silent => createNotice (some l) (.nodeBack a e.identity) s
  | .vacant | .present | .clash => s

/-- The entry after a step that ended NO_REPLY, under a silence threshold (R46). -/
def NodeEntry.missed (silence : Nat) (e : NodeEntry) : NodeEntry :=
  match e.state with
  | .vacant => { e with garbles := 0 }
  | .present =>
    { e with
      garbles := 0, misses := min 15 (e.misses + 1),
      state := if silence ≤ e.misses + 1 then .silent else .present }
  | .silent | .clash => { e with garbles := 0, misses := min 15 (e.misses + 1) }

/-- A step to an address ended NO_REPLY (R46), with NODE_SILENT when a PRESENT entry reaches the
line's silence threshold. -/
def missStep (l : Line) (a : Addr) (s : State) : State :=
  let e := s.entry l a
  let e' := e.missed (s.engine l).config.silence
  let s := s.setEntry l a e'
  if e.state = .present ∧ e'.state = .silent then
    createNotice (some l) (.nodeSilent a e.identity e'.misses) s
  else s

/-- The entry after a step that ended GARBLED (R47). -/
def NodeEntry.garbledStep (all : Bool) (e : NodeEntry) : NodeEntry :=
  if all then
    { e with
      garbles := min 3 (e.garbles + 1),
      state := if 3 ≤ e.garbles + 1 then .clash else e.state }
  else { e with garbles := 0 }

/-- A step to an address ended GARBLED (R47), with NODE_CLASH when an entry becomes CLASH. -/
def garbleStep (l : Line) (a : Addr) (all : Bool) (s : State) : State :=
  let e := s.entry l a
  let e' := e.garbledStep all
  let s := s.setEntry l a e'
  if e.state ≠ .clash ∧ e'.state = .clash then
    createNotice (some l) (.nodeClash a e.state e.identity) s
  else s

/-- The entry under a changed silence threshold (R48). -/
def NodeEntry.rejudged (silence : Nat) (e : NodeEntry) : NodeEntry :=
  match e.state with
  | .present => if silence ≤ e.misses then { e with state := .silent } else e
  | .silent => if e.misses < silence then { e with state := .present } else e
  | .vacant | .clash => e

/-- The re-evaluation of one entry (R48), with NODE_SILENT for an entry that becomes SILENT. -/
def rejudgeEntry (l : Line) (silence : Nat) (s : State) (a : Addr) : State :=
  let e := s.entry l a
  let e' := e.rejudged silence
  let s := s.setEntry l a e'
  if e.state = .present ∧ e'.state = .silent then
    createNotice (some l) (.nodeSilent a e.identity e'.misses) s
  else s

/-- The re-evaluation of a line's entries in ascending address order (R48). -/
def rejudgeTable (l : Line) (silence : Nat) (s : State) : State :=
  allAddrs.foldl (rejudgeEntry l silence) s

/-! ## Identity -/

/-- An entry made VACANT, its commit lock kept (R50, R53). -/
def NodeEntry.vacated (e : NodeEntry) : NodeEntry := { NodeEntry.initial with lock := e.lock }

/-- The other address of a line whose entry holds an identity (R50). -/
def holderOf (s : State) (l : Line) (a : Addr) (identity : UnitNo) : Option Addr :=
  allAddrs.find? fun b => b != a && (s.entry l b).identity == some identity

/-- The store state that the entry takes with an identity (R50, case 3). -/
def storeWith (other : Option StoreState) (replaced : Bool) (own : StoreState) : StoreState :=
  if other = some .unknown then .unknown else if replaced then .clean else own

/-- An identity is written to an entry (R50): replacement, move and store state in one update, with
NODE_REPLACED and then NODE_MOVED. -/
def writeIdentity (l : Line) (a : Addr) (identity : UnitNo) (s : State) : State :=
  let e := s.entry l a
  let replaced := e.identity.isSome && e.identity != some identity
  let other := holderOf s l a identity
  let store := storeWith (other.map fun b => (s.entry l b).store) replaced e.store
  let s := s.setEntry l a { e with identity := some identity, store := store }
  let s := match other with
    | none => s
    | some b => s.setEntry l b (s.entry l b).vacated
  let s := match e.identity with
    | none => s
    | some previous =>
      if replaced then createNotice (some l) (.nodeReplaced a previous identity) s else s
  match other with
  | none => s
  | some b => createNotice (some l) (.nodeMoved b a identity) s

/-- The kind code and zones of PING data are written to an entry (R49). -/
def writeKindZones (l : Line) (a : Addr) (kind : Byte) (zones : ZoneSet) (s : State) : State :=
  s.setEntry l a { s.entry l a with kind := some kind, zones := some zones }

/-- PING data is applied to a heard entry (R49): nothing is written to a CLASH entry (R51). -/
def writePingData (l : Line) (a : Addr) (d : UnitNo × Byte × ZoneSet) (s : State) : State :=
  if (s.entry l a).state = .clash then s
  else writeKindZones l a d.2.1 d.2.2 (writeIdentity l a d.1 s)

/-- A step to NODE a with reply ended REPLIED (R45, R49). -/
def hearReply (l : Line) (a : Addr) (verb : BitVec 6) (r : Reply) (s : State) : State :=
  let s := hear l a s
  match pingData r.data with
  | some d => if verb = verbPing ∧ r.status = .ok then writePingData l a d s else s
  | none => s

/-- The ASSIGN update (R55), with NODE_FOUND before the notices of R50. -/
def assignUpdate (l : Line) (a : Addr) (d : UnitNo × Byte × ZoneSet) (s : State) : State :=
  let e := s.entry l a
  if e.state = .clash then s.setEntry l a { e with lastHeard := some s.ms }
  else
    let s := s.setEntry l a
      { e with state := .present, misses := 0, garbles := 0, lastHeard := some s.ms }
    let s := createNotice (some l) (.nodeFound a d.1 d.2.1) s
    writeKindZones l a d.2.1 d.2.2 (writeIdentity l a d.1 s)

/-! ## Notices and addresses -/

/-- The verdict on a valid notice, and the table after it (R45, R52): true for accepted. -/
def noticeVerdict (l : Line) (n : NodeNotice) (s : State) : Bool × State :=
  let s := hear l n.source s
  let e := s.entry l n.source
  if e.lastSeq = some n.seq then (false, s)
  else (true, s.setEntry l n.source { e with lastSeq := some n.seq })

/-- The UNASSIGN update of one entry (R53). -/
def unassignUpdate (l : Line) (a : Addr) (s : State) : State :=
  s.setEntry l a (s.entry l a).vacated

/-- The UNASSIGN ALL update (R54): every entry without a commit lock becomes VACANT. -/
def unassignAllUpdate (l : Line) (s : State) : State :=
  allAddrs.foldl
    (fun s a => if (s.entry l a).lock.isNone then unassignUpdate l a s else s) s

/-! ## Locks, store and administration -/

/-- The lock acquire of a slot (R57). -/
def acquireLock (l : Line) (a : Addr) (i : SlotId) (s : State) : State :=
  s.setEntry l a { s.entry l a with lock := some i }

/-- The lock release of a slot (R57): the lock becomes none if it names the slot. -/
def releaseLock (l : Line) (a : Addr) (i : SlotId) (s : State) : State :=
  if (s.entry l a).lock = some i then s.setEntry l a { s.entry l a with lock := none } else s

/-- The zone set that a commit of index 0 writes (R58, R212). -/
def committedZones (data : List Byte) : ZoneSet :=
  match data with
  | hi :: lo :: _ => (join16 hi lo).setWidth 12
  | _ => 0

/-- The commit outcome update (R58, R120). -/
def commitUpdate (l : Line) (w : ParamWork) (s : State) : State :=
  let e := s.entry l w.addr
  match w.outcome with
  | .none => s
  | .mismatch | .unknown => s.setEntry l w.addr { e with store := .unknown }
  | .verified =>
    s.setEntry l w.addr
      { e with
        store := .clean
        zones := if w.index = 0 ∧ e.state ≠ .vacant then some (committedZones w.data)
          else e.zones }

/-- Every entry of a line takes its initial value (R43, R60). -/
def forgetLine (l : Line) (s : State) : State :=
  s.setTable l (Vector.replicate 80 NodeEntry.initial)

/-- An entry is a member of a zone (R56). -/
def NodeEntry.inZone (e : NodeEntry) (z : Zone) : Bool :=
  e.state != .vacant && (match e.zones with | none => true | some zs => zs.getLsbD z.val)

/-- The report of a step that ended on the line (R32): to the node table, for a call to NODE a with
reply that ended REPLIED, NO_REPLY or GARBLED. -/
def reportStep (l : Line) (c : Call) (allGarbled : Bool) (o : TryOutcome) (s : State) : State :=
  match c.target, o with
  | .node a, .replied r => if c.reply then hearReply l a c.verb r s else s
  | .node a, .noReply => if c.reply then missStep l a s else s
  | .node a, .garbled => if c.reply then garbleStep l a allGarbled s else s
  | _, _ => s

/-- A valid reply with notice-pending sets the line's listen-due flag (R32, R144). -/
def notePending (l : Line) (o : TryOutcome) (s : State) : State :=
  match o with
  | .replied r =>
    if r.noticePending then s.setEngine l { s.engine l with listenDue := true } else s
  | .sent | .noReply | .garbled | .collided => s

end Sys2Proof.Machine
end

