-- ==== Sys2Proof/Machine/Targets.lean ====
section
/-! DEFINITION. Target sets (R36, R69) and the reasons that hold a slot back (R70 to R77). -/

namespace Sys2Proof.Machine

/-- An address is in the target set of a call's target on a line (R36, R69). -/
def inTarget (s : State) (l : Line) (t : Target) (a : Addr) : Bool :=
  match t with
  | .node b => a == b
  | .zone z => (s.entry l a).inZone z
  | .all => true
  | .unaddressed => false

/-- A mark keeps its address in the sweep's target set (R98). -/
def Mark.open_ : Mark → Bool
  | .unvisited | .aside => true
  | .pinged | .busy => false

/-- The address is in the sweep's target set, which R98 names as that of R69: it is marked UNVISITED or
ASIDE. The whole scope that R69 gives the sweep before its first grant is its list so marked; an address
counted busy before that grant leaves the set, as R98 and R103 have it. DEDUCED, assumption log 23. -/
def SweepWork.holds (w : SweepWork) (a : Addr) : Bool :=
  w.marks.any fun m => m.1 == a && m.2.open_

/-- An address is in the discovery's pool (R69). -/
def DiscoverWork.inPool (w : DiscoverWork) (a : Addr) : Bool :=
  w.poolFirst.val ≤ a.val && a.val ≤ w.poolLast.val

/-- An address is in the target set of a slot (R69). -/
def inSlotTarget (s : State) (sl : Slot) (a : Addr) : Bool :=
  match sl.work with
  | .call w => inTarget s sl.line w.target a
  | .param w => a == w.addr
  | .sweep w => w.holds a
  | .discover w => w.inPool a
  | .unknown => false

/-- The target sets of two slots intersect (R74). -/
def slotsIntersect (s : State) (x y : Slot) : Bool :=
  allAddrs.any fun a => inSlotTarget s x a && inSlotTarget s y a

/-- An entry's commit lock names another slot (R75). -/
def lockedByOther (s : State) (l : Line) (i : SlotId) (a : Addr) : Bool :=
  match (s.entry l a).lock with
  | none => false
  | some j => j != i

/-- Some other slot that is not FREE meets a condition. -/
def anyOther (s : State) (i : SlotId) (p : Slot → Bool) : Bool :=
  allSlots.any fun j => j != i && (match s.slot j with | none => false | some x => p x)

/-- DEFER (R71): an unstarted slot whose defer deadline has not expired. -/
def deferHolds (sl : Slot) : Bool := !sl.started && sl.deferAt.isSome

/-- LINE (R72): the line is OFF, RESTORING or DOWN. -/
def lineHolds (s : State) (sl : Slot) : Bool := !(s.engine sl.line).state.usable

/-- A slot holds a PARAM_WRITE. -/
def Slot.isParam (sl : Slot) : Bool := match sl.work with | .param _ => true | _ => false

/-- SETTLE (R73): a PARAM_WRITE whose line's settle timer is running. -/
def settleHolds (s : State) (sl : Slot) : Bool :=
  sl.isParam && (s.engine sl.line).settle.isSome

/-- ORDER (R74): an older unfinished slot of the same work ring has an intersecting target set. -/
def orderHolds (s : State) (i : SlotId) (sl : Slot) : Bool :=
  !sl.started && anyOther s i fun x =>
    x.unfinished && x.ring == sl.ring && olderSeq x.seq sl.seq && slotsIntersect s x sl

/-- LOCK (R69, R75): the target set of a CALL or PARAM_WRITE, or the step address of a SWEEP or
DISCOVER, holds a node locked by another slot. -/
def lockHolds (s : State) (i : SlotId) (sl : Slot) : Bool :=
  match sl.work with
  | .call w => allAddrs.any fun a => inTarget s sl.line w.target a && lockedByOther s sl.line i a
  | .param w => lockedByOther s sl.line i w.addr
  | .sweep w => match w.step with | none => false | some a => lockedByOther s sl.line i a
  | .discover w =>
    match w.phase, w.candidate with
    | .check, some a | .assign, some a => lockedByOther s sl.line i a
    | _, _ => false
  | .unknown => false

/-- A CALL to ZONE or ALL. -/
def Slot.isGroupCall (sl : Slot) : Bool :=
  match sl.work with
  | .call w => (match w.target with | .zone _ | .all => true | .node _ | .unaddressed => false)
  | .sweep _ | .param _ | .discover _ | .unknown => false

/-- BARRIER (R76): an unstarted PARAM_WRITE to a member of an older unfinished ZONE or ALL call of
its line. -/
def barrierHolds (s : State) (i : SlotId) (sl : Slot) : Bool :=
  match sl.work with
  | .param w =>
    !sl.started && anyOther s i fun x =>
      x.unfinished && x.isGroupCall && x.line == sl.line && olderSeq x.seq sl.seq
        && inSlotTarget s x w.addr
  | .call _ | .sweep _ | .discover _ | .unknown => false

/-- A slot holds a DISCOVER. -/
def Slot.isDiscover (sl : Slot) : Bool := match sl.work with | .discover _ => true | _ => false

/-- DISCOVERY (R77): another started unfinished DISCOVER on the line of an unstarted one. -/
def discoveryHolds (s : State) (i : SlotId) (sl : Slot) : Bool :=
  sl.isDiscover && !sl.started && anyOther s i fun x =>
    x.unfinished && x.started && x.isDiscover && x.line == sl.line

/-- The first reason before LOCK that applies (R70). -/
def earlyReason (s : State) (i : SlotId) (sl : Slot) : Option WaitReason :=
  if deferHolds sl then some .defer
  else if lineHolds s sl then some .line
  else if settleHolds s sl then some .settle
  else if orderHolds s i sl then some .order
  else none

/-- The first reason from LOCK on that applies (R70). -/
def lateReason (s : State) (i : SlotId) (sl : Slot) : Option WaitReason :=
  if lockHolds s i sl then some .lock
  else if barrierHolds s i sl then some .barrier
  else if discoveryHolds s i sl then some .discovery
  else none

/-! ## Step addresses -/

/-- The first pass of a sweep's choice (R99, case 1): locked UNVISITED addresses are set aside, the
first unlocked one is the step address. -/
def firstPass (locked : Addr → Bool) : List (Addr × Mark) → List (Addr × Mark) × Option Addr
  | [] => ([], none)
  | (a, m) :: rest =>
    if m = .unvisited ∧ !locked a then ((a, m) :: rest, some a)
    else
      let next := firstPass locked rest
      ((a, if m = .unvisited then .aside else m) :: next.1, next.2)

/-- The second visit of a sweep's choice (R99, case 2): ASIDE addresses that are still locked are
counted busy, the first unlocked one is the step address. -/
def secondVisit (locked : Addr → Bool) : List (Addr × Mark) → List (Addr × Mark) × Option Addr
  | [] => ([], none)
  | (a, m) :: rest =>
    if m = .aside ∧ !locked a then ((a, m) :: rest, some a)
    else
      let next := secondVisit locked rest
      ((a, if m = .aside then .busy else m) :: next.1, next.2)

/-- A sweep's choice of its step address (R99); no address means that nothing is left. -/
def SweepWork.choose (locked : Addr → Bool) (w : SweepWork) : SweepWork :=
  match firstPass locked w.marks with
  | (marks, some a) => { w with marks := marks, step := some a }
  | (marks, none) =>
    let second := secondVisit locked marks
    { w with marks := second.1, step := second.2 }

/-- The candidate for an identity (R132): its former address in the pool, else the lowest VACANT
pool address, neither CLASH nor avoided. -/
def chooseCandidate (s : State) (l : Line) (w : DiscoverWork) (identity : UnitNo) : Option Addr :=
  let open_ := allAddrs.filter fun a => w.inPool a && !w.avoid.contains a
  match open_.find? fun a =>
      (s.entry l a).identity == some identity && (s.entry l a).state != .clash with
  | some a => some a
  | none => open_.find? fun a => (s.entry l a).state == .vacant

/-- A new candidate is chosen for the current position (R132): phase CHECK with a candidate, or end
reason POOL_EXHAUSTED without one. -/
def DiscoverWork.withCandidate (s : State) (l : Line) (w : DiscoverWork) : DiscoverWork :=
  match w.current with
  | none => w
  | some c =>
    match chooseCandidate s l w c.identity with
    | some a => { w with phase := .check, candidate := some a }
    | none => { w with candidate := none, endReason := .poolExhausted }

/-- The candidate test (R134): VACANT, or holding the current identity and not CLASH. -/
def candidateAcceptable (s : State) (l : Line) (identity : UnitNo) (a : Addr) : Bool :=
  (s.entry l a).state == .vacant
    || ((s.entry l a).identity == some identity && (s.entry l a).state != .clash)

/-- The discovery after the candidate test of a judgement in phase CHECK or ASSIGN (R134). -/
def DiscoverWork.tested (s : State) (l : Line) (w : DiscoverWork) : DiscoverWork :=
  match w.phase, w.current, w.candidate with
  | .check, some c, some a | .assign, some c, some a =>
    if candidateAcceptable s l c.identity a then w
    else ({ w with avoid := w.avoid ++ [a] }).withCandidate s l
  | _, _, _ => w

end Sys2Proof.Machine
end

