-- ==== Sys2Proof/Machine/Finish.lean ====
section
/-! DEFINITION. The ends of slots: results on their way to a result ring (R82, R182, R185), the
commit outcome (R120, R121), and the ring unit's hold conditions (R176). -/

namespace Sys2Proof.Machine

/-! ## Results -/

/-- The sender of a result is told that it was written or counted lost (R82, R182): a slot becomes
FREE, the admin unit holds no request. -/
def tellSender (who : Sender) (s : State) : State :=
  match who with
  | .slot i => s.setSlot i none
  | .admin => { s with admin := none }

/-- A result is counted lost on its ring (R185). -/
def loseResult (q : ResultRingId) (s : State) (r : ResultRecord) : State :=
  let ring := s.resultRing q
  tellSender r.sender (s.setResultRing q { ring with lost := min 65535 (ring.lost + 1) })

/-- A result arrives for its ring (R182, R185, R186): it joins the pending list of an ACTIVE ring
and is counted lost on a FAULTED or CLOSED one. -/
def submitResult (q : ResultRingId) (r : ResultRecord) (s : State) : State :=
  let ring := s.resultRing q
  match ring.out.state with
  | .active => s.setResultRing q { ring with pending := ring.pending ++ [r] }
  | .closed | .faulted => loseResult q s r

/-- The result of the current request (R203): it goes to result ring 0, and the request stays
current until it has been written. -/
def adminAnswer (st : Status) (detail : List Byte) (s : State) : State :=
  match s.admin with
  | none => s
  | some a =>
    submitResult 0
      { sender := .admin, code := a.code, status := st, ring := 0, tag := a.tag, detail := detail }
      { s with admin := some { a with phase := .answered } }

/-! ## Entering FINISHING -/

/-- A slot's result is decided (R82): its lock is released, its deadlines stop, and its result goes
to the result ring bound to its work ring. -/
def finishSlot (i : SlotId) (st : Status) (s : State) : State :=
  match s.slot i with
  | none => s
  | some sl =>
    let r : ResultRecord :=
      { sender := .slot i, code := sl.code, status := st, ring := sl.ring, tag := sl.tag,
        detail := slotDetail s st sl }
    let s := match sl.work with
      | .param w => releaseLock sl.line w.addr i s
      | .call _ | .sweep _ | .discover _ | .unknown => s
    let s := s.setSlot i (some { sl with
      state := .finishing, deferAt := none, expireAt := none, budgetAt := none, pollAt := none,
      result := some r })
    submitResult (s.workRing sl.ring).bound r s

/-- The results of a commit that R121 gives no outcome MISMATCH. -/
def narrowStatus : Status → Bool
  | .commitTimeout | .refused | .protected_ | .noReply | .garbled | .collided => true
  | _ => false

/-- The commit outcome of a decided result (R120, with the statuses of R121). `narrow` leaves out
MISMATCH, for the ends to which R121 and R122 give UNKNOWN or NONE (assumption log 11). -/
def commitOutcome (st : Status) (narrow : Bool) (w : ParamWork) : CommitOutcome :=
  if w.verified then .verified
  else if w.mismatch ∧ !(narrow || narrowStatus st) then .mismatch
  else if w.unverified ∨ w.finalFlag ∨ st = .verifyFail then .unknown
  else .none

/-- A PARAM_WRITE's result is decided (R120): the commit outcome update comes before FINISHING and
the lock's release. -/
def finishCommit (i : SlotId) (sl : Slot) (w : ParamWork) (st : Status) (narrow : Bool)
    (s : State) : State :=
  let w := { w with outcome := commitOutcome st narrow w }
  let s := s.setSlot i (some { sl with work := .param w })
  finishSlot i st (if sl.started then commitUpdate sl.line w s else s)

/-- The end reason of a discovery that an abort or a cut ends (R140, R141). -/
def DiscoverWork.endedBy (st : Status) (w : DiscoverWork) : DiscoverWork :=
  match st with
  | .aborted => { w with endReason := .aborted }
  | .lineReset => { w with endReason := .cut }
  | _ => w

/-- A slot ends with a status: with the commit outcome update for a PARAM_WRITE (R120), and with
the end reason for a DISCOVER that is aborted or cut. -/
def endSlot (i : SlotId) (st : Status) (narrow : Bool) (s : State) : State :=
  match s.slot i with
  | none => s
  | some sl =>
    match sl.work with
    | .param w => finishCommit i sl w st narrow s
    | .discover w =>
      finishSlot i st (s.setSlot i (some { sl with work := .discover (w.endedBy st) }))
    | .call _ | .sweep _ | .unknown => finishSlot i st s

/-! ## Work rings -/

/-- A hold condition of a work ring 1 to 7 is present (R176). -/
def holdCondition (s : State) (w : WorkRing) : Bool :=
  !(s.engine w.line).state.usable || (s.resultRing w.bound).out.state != .active

/-- The state of a work ring after its judgement for its hold conditions (R176). -/
def judgedState (s : State) (w : WorkRing) : WorkRingState :=
  match w.state with
  | .active | .held => if holdCondition s w then .held else .active
  | .closed => .closed
  | .draining => .draining
  | .faulted => .faulted

/-- Every work ring 1 to 7 is judged for its hold conditions (R176). -/
def judgeRings (s : State) : State :=
  { s with work := Vector.ofFn fun r =>
      if r = 0 then s.workRing 0
      else { s.workRing r with state := judgedState s (s.workRing r) } }

/-- The device enters HALTED (R201): the reason shows in STAT, the device event is set, and the
timers of the rings stop (R193). A series record in progress is kept as it stands: DESIGN CHOICE,
assumption log 24. -/
def haltDevice (reason : HaltReason) (s : State) : State :=
  let stopTimer (r : ResultRing) : ResultRing := { r with out := { r.out with timer := none } }
  let s := allResultRings.foldl (fun s q => s.setResultRing q (stopTimer (s.resultRing q))) s
  { s with
    device := .halted, halt := reason, deviceEvent := true, bootRead := none,
    notice := { s.notice with timer := none } }

/-- A work ring enters FAULTED (R178), and the device halts for ring 0 (R187). -/
def faultWorkRing (r : WorkRingId) (reason : FaultReason) (s : State) : State :=
  let s := s.setWorkRing r { s.workRing r with state := .faulted }
  let s := createNotice none (.ringFault (.work r) reason 0) s
  if r = 0 then haltDevice .adminFault s else s

/-- The results of the pending list that a fault of their ring does not count lost (R185): none, but
for a record whose write is in flight and runs to its end. Of result ring 0 the result in flight is
counted lost too (R187). -/
def ResultRing.keptAtFault (q : ResultRingId) (r : ResultRing) : List ResultRecord :=
  if q = 0 then []
  else match r.out.access with
    | .record _ _ => r.pending.take 1
    | .idle | .progress _ _ => []

/-- A result ring enters FAULTED (R185): its pending results are counted lost in order, RING_FAULT
is created, its timer stops, its work rings are judged, and the device halts for ring 0 (R187). -/
def faultResultRing (q : ResultRingId) (reason : FaultReason) (s : State) : State :=
  let ring := s.resultRing q
  let kept := ring.keptAtFault q
  let s := s.setResultRing q { ring with pending := kept }
  let s := (ring.pending.drop kept.length).foldl (loseResult q) s
  let ring := s.resultRing q
  let s := s.setResultRing q { ring with out := { ring.out with state := .faulted, timer := none } }
  let s := createNotice none (.ringFault (.result q) reason ring.lost) s
  if q = 0 then haltDevice .result0Fault s else judgeRings s

/-- The notice ring enters FAULTED (R188). -/
def faultNoticeRing (reason : FaultReason) (s : State) : State :=
  createNotice none (.ringFault .notice reason 0)
    { s with notice := { s.notice with state := .faulted, timer := none } }

end Sys2Proof.Machine
end

