-- ==== Sys2Proof/Machine/Judge.lean ====
section
/-! DEFINITION. Judgement of slots (R70, R78, R99, R119, R134) and the aborts of slots (R83, R84). -/

namespace Sys2Proof.Machine

/-! ## Judgement -/

/-- A slot is judged: it is WAITING or READY (R70). -/
def Slot.judged (sl : Slot) : Bool :=
  match sl.state with
  | .waiting _ | .ready => true
  | .onLine | .paused | .finishing => false

/-- The phase of a PARAM_WRITE is FINAL (R119). -/
def Slot.inFinal (sl : Slot) : Bool :=
  match sl.work with
  | .param w => w.phase == some .final
  | .call _ | .sweep _ | .discover _ | .unknown => false

/-- The commit ends with its budget passed (R117, R119, R122): COMMIT_TIMEOUT, or ABORTED with the
outcome unknown when an abort is pending. -/
def endTimedOut (i : SlotId) (s : State) : State :=
  match s.slot i with
  | none => s
  | some sl => endSlot i (if sl.abortPending then .aborted else .commitTimeout) true s

/-- The slot with its step address chosen (R99) or its candidate tested (R134). -/
def Slot.withChoice (s : State) (i : SlotId) (sl : Slot) : Slot :=
  match sl.work with
  | .sweep w => { sl with work := .sweep (w.choose (lockedByOther s sl.line i)) }
  | .discover w => { sl with work := .discover (w.tested s sl.line) }
  | .call _ | .param _ | .unknown => sl

/-- The choice leaves nothing to do: a sweep without a step address (R99), or a discovery that is
out of addresses (R132). -/
def Slot.exhausted (sl : Slot) : Bool :=
  match sl.work with
  | .sweep w => w.step.isNone
  | .discover w => w.endReason == .poolExhausted
  | .call _ | .param _ | .unknown => false

/-- The CLASH refusal (R78): an unstarted CALL to NODE or PARAM_WRITE that is not yet READY, to an
entry that is CLASH, without FORCE. -/
def clashRefused (s : State) (sl : Slot) : Bool :=
  !sl.started && sl.state != .ready && !sl.force &&
    (match sl.work with
     | .call w => (match w.target with
        | .node a => (s.entry sl.line a).state == .clash
        | .zone _ | .all | .unaddressed => false)
     | .param w => (s.entry sl.line w.addr).state == .clash
     | .sweep _ | .discover _ | .unknown => false)

/-- A slot that no reason before LOCK holds back is judged for the others (R70, R78). -/
def judgeLate (i : SlotId) (sl : Slot) (s : State) : State :=
  if sl.exhausted then endSlot i .ok false (s.setSlot i (some sl))
  else match lateReason s i sl with
    | some r => s.setSlot i (some { sl with state := .waiting r })
    | none =>
      if clashRefused s sl then endSlot i .nodeClash false s
      else s.setSlot i (some { sl with state := .ready })

/-- The judgement of one slot (R70). A final CHECK that LINE or SETTLE holds back is not made
(R119). -/
def judgeSlot (i : SlotId) (s : State) : State :=
  match s.slot i with
  | none => s
  | some sl =>
    if sl.judged then
      match earlyReason s i sl with
      | some r =>
        if sl.inFinal then endTimedOut i s else s.setSlot i (some { sl with state := .waiting r })
      | none => judgeLate i (sl.withChoice s i) s
    else s

/-- A slot is on a line. -/
def onLine (s : State) (l : Line) (i : SlotId) : Bool :=
  match s.slot i with
  | none => false
  | some sl => sl.line == l

/-- Every WAITING and READY slot of a line is judged once, in slot order (assumption log 10). -/
def judgeRound (l : Line) (s : State) : State :=
  allSlots.foldl (fun s i => if onLine s l i then judgeSlot i s else s) s

/-- What a slot still holds back by its work: itself while unfinished, and each address that a sweep
has still to ping. -/
def Slot.holding (sl : Slot) : Nat :=
  if sl.unfinished then
    match sl.work with
    | .sweep w => w.marks.countP (fun m => m.2.open_) + 1
    | .call _ | .param _ | .discover _ | .unknown => 1
  else 0

/-- What the slots of a line hold back in all. -/
def holdingOn (s : State) (l : Line) : Nat :=
  (allSlots.map fun i => match s.slot i with
    | none => 0
    | some sl => if sl.line = l then sl.holding else 0).sum

/-- The slots of a line are judged again as long as a judgement has ended one (R70: a slot entering
FINISHING is an event of its line) or counted an address of a sweep busy (R103): DESIGN CHOICE,
assumption log 10. -/
def judgeLoop : Nat → Line → State → State
  | 0, _, s => s
  | n + 1, l, s =>
    let s' := judgeRound l s
    if holdingOn s' l < holdingOn s l then judgeLoop n l s' else s'

/-- The judgement of a line's slots at an event of the line (R70), until a round ends no slot and
counts no address busy. -/
def judgeLine (l : Line) (s : State) : State := judgeLoop (holdingOn s l + 1) l s

/-! ## Abort -/

/-- The node of a commit is thought to be programming (R115). -/
def ParamWork.programming (w : ParamWork) : Bool :=
  match w.phase with
  | some .poll | some .final => true
  | some .prelude => w.preludeBusy
  | some .stage1 | some .stage2 | some .commit | none => false

/-- The abort of a slot in its state sets the abort-pending flag and does no more (R84, R85): an
ON_LINE slot, a PAUSED commit, or a started commit whose node is thought to be programming. -/
def Slot.abortWaits (sl : Slot) : Bool :=
  match sl.state, sl.work with
  | .onLine, _ => true
  | .paused, .param _ => true
  | .waiting _, .param w | .ready, .param w => sl.started && w.programming
  | _, _ => false

/-- An abort reaches a slot (R84, R85). -/
def abortSlot (i : SlotId) (s : State) : State :=
  match s.slot i with
  | none => s
  | some sl =>
    if sl.state = .finishing then s
    else if sl.abortWaits then s.setSlot i (some { sl with abortPending := true })
    else endSlot i .aborted false s

/-- An abort reaches every slot that meets a condition, in slot order (assumption log 10). -/
def abortWhere (p : Slot → Bool) (s : State) : State :=
  allSlots.foldl
    (fun s i => match s.slot i with
      | none => s
      | some sl => if p sl then abortSlot i s else s) s

/-- STOP aborts every unstarted slot, and every started SWEEP and DISCOVER (R83). -/
def Slot.stopAborts (sl : Slot) : Bool :=
  !sl.started || (match sl.work with
    | .sweep _ | .discover _ => true
    | .call _ | .param _ | .unknown => false)

end Sys2Proof.Machine
end

