-- ==== Sys2Proof/Machine/Calls.lean ====
section
/-! DEFINITION. What the ends of a step do to a CALL (R89 to R97) and to a SWEEP (R98 to R102), and
the three ways a slot leaves ON_LINE with work still to do or to wait for (R81). -/

namespace Sys2Proof.Machine

/-! ## Continuations -/

/-- The slot goes on with another step and is judged for it at the event's judgement (R81). -/
def stepFollows (i : SlotId) (sl : Slot) (w : Work) (s : State) : State :=
  s.setSlot i (some { sl with state := .ready, work := w })

/-- The slot goes to PAUSED with a poll deadline of now plus the line's poll interval (R81). -/
def pauseSlot (i : SlotId) (sl : Slot) (w : Work) (s : State) : State :=
  s.setSlot i (some { sl with
    state := .paused, work := w, pollAt := some (s.after (s.engine sl.line).config.pollInterval) })

/-- The slot's result is decided with these work fields (R81). -/
def decideSlot (i : SlotId) (sl : Slot) (w : Work) (st : Status) (narrow : Bool) (s : State) :
    State :=
  endSlot i st narrow (s.setSlot i (some { sl with work := w }))

/-! ## CALL -/

/-- The last valid reply in a CALL's detail (R97). -/
def CallWork.withReply (r : Reply) (w : CallWork) : CallWork :=
  { w with lastReply := some r.status, noticePending := r.noticePending, data := r.data }

/-- The table follows an UNASSIGN on the wire (R53, R54, R96). -/
def followUnassign (l : Line) (w : CallWork) (o : TryOutcome) (s : State) : State :=
  if w.verb = verbUnassign then
    match w.target, o with
    | .node a, .replied r => if r.status = .ok then unassignUpdate l a s else s
    | .all, .sent => unassignAllUpdate l s
    | _, _ => s
  else s

/-- A CALL's step ends (R91 to R94, with an abort by R85). -/
def callStepEnd (i : SlotId) (sl : Slot) (w : CallWork) (allGarbled : Bool) (o : TryOutcome)
    (s : State) : State :=
  let s := followUnassign sl.line w o s
  let w := { w with allGarbled := allGarbled && (match o with | .garbled => true | _ => false) }
  match o with
  | .sent => decideSlot i sl (.call w) .ok false s
  | .noReply => decideSlot i sl (.call w) .noReply false s
  | .garbled => decideSlot i sl (.call w) .garbled false s
  | .collided => decideSlot i sl (.call w) .collided false s
  | .replied r =>
    let w := w.withReply r
    match r.status with
    | .ok | .done => decideSlot i sl (.call w) .ok false s
    | .refused => decideSlot i sl (.call w) .refused false s
    | .locked => decideSlot i sl (.call w) .protected_ false s
    | .busy =>
      if w.busyRounds < w.busyLimit then
        if sl.abortPending then decideSlot i sl (.call w) .aborted false s
        else pauseSlot i sl (.call { w with busyRounds := w.busyRounds + 1 }) s
      else decideSlot i sl (.call w) .nodeBusy false s

/-- A CALL's step ends under a cut (R86): its last try's reply stands in the detail, and the table
follows an UNASSIGN. -/
def callCut (i : SlotId) (sl : Slot) (w : CallWork) (last : Option TryOutcome) (s : State) : State :=
  let w := { w with allGarbled := false }
  match last with
  | some (.replied r) =>
    decideSlot i sl (.call (w.withReply r)) .lineReset false
      (followUnassign sl.line w (.replied r) s)
  | some .sent =>
    decideSlot i sl (.call w) .lineReset false (followUnassign sl.line w .sent s)
  | some .garbled | some .noReply | some .collided | none =>
    decideSlot i sl (.call w) .lineReset false s

/-- A started CALL's line enters DOWN (R87, R93). -/
def callDown (i : SlotId) (sl : Slot) (w : CallWork) (s : State) : State :=
  decideSlot i sl (.call { w with allGarbled := false })
    (if sl.abortPending then .aborted else .lineDown) false s

/-! ## SWEEP -/

/-- The pinged address is marked DONE (R100). -/
def SweepWork.pinged (w : SweepWork) : SweepWork :=
  match w.step with
  | none => w
  | some a => { w with
      marks := w.marks.map fun m => if m.1 = a then (m.1, .pinged) else m
      step := none }

/-- A SWEEP's ping ends, by any outcome or by DOWN (R100, with an abort by R85). -/
def sweepStepEnd (i : SlotId) (sl : Slot) (w : SweepWork) (s : State) : State :=
  if sl.abortPending then decideSlot i sl (.sweep w.pinged) .aborted false s
  else stepFollows i sl (.sweep w.pinged) s

/-- A SWEEP's ping ends under a cut (R101): the address counts if the try was REPLIED. -/
def sweepCut (i : SlotId) (sl : Slot) (w : SweepWork) (last : Option TryOutcome) (s : State) :
    State :=
  match last with
  | some (.replied _) => decideSlot i sl (.sweep w.pinged) .lineReset false s
  | _ => decideSlot i sl (.sweep w) .lineReset false s

/-- The list of a SWEEP, formed at its fill (R98). -/
def sweepList (s : State) (l : Line) (all : Bool) : List (Addr × Mark) :=
  (allAddrs.filter fun a => all || (s.entry l a).state != .vacant).map fun a => (a, .unvisited)

end Sys2Proof.Machine
end

