-- ==== Sys2Proof/Machine/Commits.lean ====
section
/-! DEFINITION. The steps of a PARAM_WRITE and what each answer makes of the commit (chapter 6). -/

namespace Sys2Proof.Machine

/-- What a commit does after a step (R109 to R114, R119). -/
inductive CommitCont where
  /-- The result is decided, with the reply data it carries. -/
  | result (st : Status) (data : List Byte)
  /-- A poll is due later. -/
  | pause
  /-- Another step follows. -/
  | step
  /-- The attempt has failed (R114). -/
  | failed
deriving DecidableEq, Repr

/-- The call of a phase (R108). -/
def phaseCall (p : Phase) (w : ParamWork) : Call :=
  match p with
  | .prelude | .poll | .final => checkCall w.addr w.index
  | .stage1 => stageCall w.addr w.index 0 (w.data.take 4)
  | .stage2 => stageCall w.addr w.index 4 (w.data.drop 4)
  | .commit => commitCall w.addr w.index w.length w.digest

/-- The first grant of a commit (R107): the first grant time and the phase that the entry's store
state asks for. -/
def ParamWork.granted (now : Word) (store : StoreState) (w : ParamWork) : ParamWork :=
  match store with
  | .unknown => { w with firstGrant := some now, phase := some .prelude, preludeUsed := true }
  | .clean => { w with firstGrant := some now, phase := some .stage1 }

/-- A reply to the prelude CHECK (R109). -/
def preludeReply (r : Reply) (w : ParamWork) : ParamWork × CommitCont :=
  match r.status with
  | .busy => ({ w with preludeBusy := true }, .pause)
  | .done | .refused | .ok | .locked => ({ w with phase := some .stage1 }, .step)

/-- A reply to a STAGE whose success leads to a phase (R110). -/
def stageReply (onOk : Phase) (r : Reply) (w : ParamWork) : ParamWork × CommitCont :=
  match r.status with
  | .ok => ({ w with phase := some onOk }, .step)
  | .busy =>
    ({ w with unverified := true, phase := some .prelude, preludeUsed := true,
              preludeBusy := true }, .pause)
  | .refused | .done => (w, .result .refused r.data)
  | .locked => (w, .result .protected_ r.data)

/-- The digest of a DONE reply equals the commit digest (R111, R113). -/
def ParamWork.matched (w : ParamWork) (r : Reply) : Bool := replyDigest r.data == some w.digest

/-- A reply to the COMMIT (R111, R120). -/
def commitReply (r : Reply) (w : ParamWork) : ParamWork × CommitCont :=
  match r.status with
  | .busy | .ok => ({ w with unverified := true, accepted := true, phase := some .poll }, .pause)
  | .done =>
    let w := { w with unverified := true, accepted := true }
    if w.matched r then ({ w with verified := true }, .result .ok [])
    else ({ w with mismatch := (replyDigest r.data).isSome }, .failed)
  | .refused => (w, .failed)
  | .locked => (w, .result .protected_ r.data)

/-- A reply to a CHECK poll (R113, R120). -/
def pollReply (r : Reply) (w : ParamWork) : ParamWork × CommitCont :=
  match r.status with
  | .busy => (w, .pause)
  | .done =>
    if w.matched r then ({ w with verified := true }, .result .ok [])
    else ({ w with mismatch := (replyDigest r.data).isSome }, .failed)
  | .refused | .ok | .locked => (w, .failed)

/-- A reply to the final CHECK (R119, R120). -/
def finalReply (r : Reply) (w : ParamWork) : ParamWork × CommitCont :=
  match r.status with
  | .done =>
    if w.accepted ∧ w.matched r then ({ w with verified := true }, .result .ok [])
    else ({ w with mismatch := w.accepted && (replyDigest r.data).isSome },
          .result .commitTimeout [])
  | .busy | .refused | .ok | .locked => (w, .result .commitTimeout [])

/-- A reply in a phase: the last reply status and the readback digest are kept (R104), and the
phase's own rule judges it. A DONE without 2 data bytes leaves no readback digest in any phase, as
R104, R111 and R113 have it, and not an earlier one, as R126 may be read: DESIGN CHOICE, assumption
log 27. -/
def phaseReply (p : Phase) (r : Reply) (w : ParamWork) : ParamWork × CommitCont :=
  let w := { w with
    lastReply := some r.status
    readback := if r.status = .done then replyDigest r.data else w.readback }
  match p with
  | .prelude => preludeReply r w
  | .stage1 => stageReply (if w.length ≤ 4 then .commit else .stage2) r w
  | .stage2 => stageReply .commit r w
  | .commit => commitReply r w
  | .poll => pollReply r w
  | .final => finalReply r w

/-- A step failure (R112), or one of the final CHECK (R119). -/
def stepFailure (p : Phase) (st : Status) : CommitCont :=
  match p with
  | .final => .result .commitTimeout []
  | .prelude | .stage1 | .stage2 | .commit | .poll => .result st []

/-- The step outcome of a phase (R109 to R113, R119). -/
def phaseOutcome (p : Phase) (o : TryOutcome) (w : ParamWork) : ParamWork × CommitCont :=
  match o with
  | .replied r => phaseReply p r w
  | .noReply => (w, stepFailure p .noReply)
  | .garbled => (w, stepFailure p .garbled)
  | .collided => (w, stepFailure p .collided)
  | .sent => (w, .step)

/-- A CHECK step of phase POLL or FINAL has been made (R108, R126, assumption log 12). -/
def ParamWork.countPoll (w : ParamWork) : ParamWork :=
  match w.phase with
  | some .poll | some .final => { w with polls := min 255 (w.polls + 1) }
  | some .prelude | some .stage1 | some .stage2 | some .commit | none => w

/-- The next attempt, when one remains (R114). -/
def ParamWork.nextAttempt (w : ParamWork) : Option ParamWork :=
  if w.attempt < w.attempts then
    some { w with attempt := w.attempt + 1, phase := some .stage1 }
  else none

/-- The final CHECK is to be made (R116, R117). -/
def ParamWork.toFinal (w : ParamWork) : ParamWork :=
  { w with finalFlag := true, phase := some .final }

/-- The poll that a passed budget turns into the final CHECK, or the end when that CHECK has just
been answered BUSY (R116, R118). -/
def pausePastBudget (i : SlotId) (sl : Slot) (w : ParamWork) (polled : Bool) (s : State) : State :=
  if polled then decideSlot i sl (.param { w with finalFlag := true }) .commitTimeout true s
  else stepFollows i sl (.param w.toFinal) s

/-- The continuation of a commit with no abort pending, the budget's expiry applied (R114, R117,
R118). `polled` says that the step was a CHECK of phase POLL or FINAL. -/
def commitContinues (i : SlotId) (sl : Slot) (w : ParamWork) (polled : Bool) (c : CommitCont)
    (s : State) : State :=
  let goOn (w : ParamWork) : State :=
    if w.budgetPassed then decideSlot i sl (.param w) .commitTimeout true s
    else stepFollows i sl (.param w) s
  match c with
  | .result st data => decideSlot i sl (.param { w with replyData :=
      if st = .refused ∨ st = .protected_ then data else [] }) st false s
  | .pause =>
    if w.budgetPassed then pausePastBudget i sl w polled s else pauseSlot i sl (.param w) s
  | .step => goOn w
  | .failed =>
    match w.nextAttempt with
    | some w => goOn w
    | none => decideSlot i sl (.param w) .verifyFail false s

/-- The continuation of a commit with an abort pending (R85, R118, R122). `narrow` leaves MISMATCH
out of the outcome. -/
def commitAborts (i : SlotId) (sl : Slot) (w : ParamWork) (narrow : Bool) (c : CommitCont)
    (s : State) : State :=
  match c with
  | .pause =>
    if w.budgetPassed then decideSlot i sl (.param { w with finalFlag := true }) .aborted true s
    else pauseSlot i sl (.param w) s
  | .result _ _ | .step | .failed => decideSlot i sl (.param w) .aborted narrow s

/-- The step of phase POLL or FINAL was answered DONE. -/
def polledDone (polled : Bool) (o : TryOutcome) : Bool :=
  polled && (match o with | .replied r => r.status == .done | _ => false)

/-- A PARAM_WRITE's step ends (R108 to R114, R118, R119, R122). -/
def commitStepEnd (i : SlotId) (sl : Slot) (w : ParamWork) (o : TryOutcome) (s : State) : State :=
  match w.phase with
  | none => s
  | some p =>
    let polled := p == .poll || p == .final
    let next := phaseOutcome p o w.countPoll
    if sl.abortPending then
      commitAborts i sl next.1 (w.programming && !polledDone polled o) next.2 s
    else commitContinues i sl next.1 polled next.2 s

/-- A PARAM_WRITE's step ends under a cut (R124): a reply is judged first. A reply that fails the
attempt leaves the attempt number as it was, although attempts remain: DESIGN CHOICE, assumption
log 26. -/
def commitCut (i : SlotId) (sl : Slot) (w : ParamWork) (last : Option TryOutcome) (s : State) :
    State :=
  match w.phase, last with
  | some p, some (.replied r) =>
    decideSlot i sl (.param (phaseReply p r w.countPoll).1) .lineReset false s
  | _, _ => decideSlot i sl (.param w.countPoll) .lineReset false s

/-- The budget has passed for a commit that is to make another step (R116, R117): the final CHECK
if the node is thought to be programming, else COMMIT_TIMEOUT. -/
def budgetTurns (i : SlotId) (sl : Slot) (w : ParamWork) (s : State) : State :=
  if w.programming then
    if sl.abortPending then decideSlot i sl (.param { w with finalFlag := true }) .aborted true s
    else stepFollows i sl (.param w.toFinal) s
  else decideSlot i sl (.param w) .commitTimeout true s

/-- A PARAM_WRITE's step is ended by DOWN (R87, R119, R123). -/
def commitDown (i : SlotId) (sl : Slot) (w : ParamWork) (s : State) : State :=
  let final := w.phase == some .final
  let w := w.countPoll
  if final then
    decideSlot i sl (.param w) (if sl.abortPending then .aborted else .commitTimeout) true s
  else if sl.abortPending then
    if w.programming then commitAborts i sl w true .pause s
    else decideSlot i sl (.param w) .aborted false s
  else if w.budgetPassed then budgetTurns i sl w s
  else stepFollows i sl (.param w) s

/-- A PARAM_WRITE's budget deadline expires (R116 to R118). -/
def budgetExpires (i : SlotId) (sl : Slot) (w : ParamWork) (s : State) : State :=
  let sl := { sl with budgetAt := none, pollAt := none }
  match sl.state with
  | .onLine => s.setSlot i (some { sl with work := .param { w with budgetPassed := true } })
  | .paused | .waiting _ | .ready => budgetTurns i sl w s
  | .finishing => s

end Sys2Proof.Machine
end

