-- ==== Sys2Proof/Machine/Discovery.lean ====
section
/-! DEFINITION. The rounds of a DISCOVER and what the ends of its steps do to it (chapter 7). -/

namespace Sys2Proof.Machine

/-- A count of a discovery rises by 1, up to 255 (R127). -/
def sat255 (n : Nat) : Nat := min 255 (n + 1)

/-! ## Rounds -/

/-- A round ends (R136). `quiet` says that it was completed after a ROLL that was SENT. -/
def DiscoverWork.roundEnd (quiet : Bool) (w : DiscoverWork) : DiscoverWork :=
  let w := { w with current := none, candidate := none }
  if quiet ∧ w.roundCollided = 0 ∧ w.clean = [] then { w with endReason := .quiet }
  else if w.rounds = w.roundLimit then { w with endReason := .roundLimit }
  else { w with phase := .roll }

/-- The lowest PENDING position becomes current and its candidate is chosen, or the round ends
(R131). -/
def DiscoverWork.takeNext (s : State) (l : Line) (w : DiscoverWork) : DiscoverWork :=
  match w.clean.find? fun c => c.mark == .pending with
  | some c => { w with current := some c, candidate := none }.withCandidate s l
  | none => w.roundEnd true

/-- A round begins with a seed, at a grant that finds phase ROLL (R129). -/
def DiscoverWork.beginRound (seed : Half) (w : DiscoverWork) : DiscoverWork :=
  { w with
    seed := some seed, rounds := w.rounds + 1, clean := [], avoid := [], roundCollided := 0,
    nextPosition := 0, current := none, candidate := none }

/-- The call of the step that the phase names (R129, R130, R135, R137). -/
def DiscoverWork.stepCall (w : DiscoverWork) : Option Call :=
  match w.phase, w.current, w.candidate with
  | .roll, _, _ => w.seed.map fun x => rollCall x w.positions
  | .pick, _, _ => some (pickCall w.nextPosition)
  | .check, _, some a => some (pingCall a)
  | .assign, some c, some a => some (assignCall c.identity a)
  | .check, _, none | .assign, _, none | .assign, none, some _ => none

/-! ## Outcomes -/

/-- A position is classed collided (R130). -/
def DiscoverWork.collidedPosition (w : DiscoverWork) : DiscoverWork :=
  { w with roundCollided := w.roundCollided + 1, collidedTotal := sat255 w.collidedTotal }

/-- The identity a PICK reply places in the clean list, if the list does not hold it (R130). -/
def DiscoverWork.cleanIdentity (w : DiscoverWork) (r : Reply) : Option UnitNo :=
  match r.status with
  | .ok =>
    (match pickIdentity r.data with
     | some identity => if w.clean.any fun c => c.identity == identity then none else some identity
     | none => none)
  | .busy | .done | .refused | .locked => none

/-- The class of the position that a PICK has asked (R130). -/
def DiscoverWork.classed (o : TryOutcome) (w : DiscoverWork) : DiscoverWork :=
  match o with
  | .noReply | .sent => w
  | .garbled | .collided => w.collidedPosition
  | .replied r =>
    match w.cleanIdentity r with
    | some identity => { w with
        clean := w.clean ++ [{ position := w.nextPosition, identity := identity, mark := .pending }]
        cleanTotal := sat255 w.cleanTotal }
    | none => w.collidedPosition

/-- The next PICK, or the turn to the clean list (R130, R131). -/
def DiscoverWork.afterPick (s : State) (l : Line) (w : DiscoverWork) : DiscoverWork :=
  let w := { w with nextPosition := w.nextPosition + 1 }
  if w.nextPosition < w.positions then w else w.takeNext s l

/-- The candidate joins the avoid list (R133). -/
def DiscoverWork.avoided (a : Addr) (w : DiscoverWork) : DiscoverWork :=
  { w with avoid := w.avoid ++ [a] }

/-- The outcome of a PING check (R135). -/
def DiscoverWork.checked (s : State) (l : Line) (o : TryOutcome) (w : DiscoverWork) : DiscoverWork :=
  match w.candidate, o with
  | none, _ => w
  | some _, .noReply => { w with phase := .assign }
  | some a, .replied _ | some a, .garbled | some a, .collided | some a, .sent =>
    (w.avoided a).withCandidate s l

/-- The PING data of an ASSIGN answered OK (R137). -/
def assignData (o : TryOutcome) : Option (UnitNo × Byte × ZoneSet) :=
  match o with
  | .replied r => if r.status = .ok then pingData r.data else none
  | .sent | .noReply | .garbled | .collided => none

/-- The mark of the current position is set in the clean list. -/
def DiscoverWork.marked (c : CleanPosition) (m : CleanMark) (w : DiscoverWork) : DiscoverWork :=
  { w with
    clean := w.clean.map fun x => if x.position = c.position then { x with mark := m } else x }

/-- The placing of the current position is settled by an ASSIGN (R137). -/
def DiscoverWork.placed (c : CleanPosition) (a : Addr) (o : TryOutcome) (w : DiscoverWork) :
    DiscoverWork :=
  let w := w.avoided a
  if (assignData o).map (fun d => d.1) = some c.identity then
    { w.marked c .assigned with assigned := sat255 w.assigned }
  else { w.marked c .lost with lost := sat255 w.lost }

/-- The table follows an ASSIGN answered OK with PING data (R55, R137). -/
def followAssign (l : Line) (w : DiscoverWork) (o : TryOutcome) (s : State) : State :=
  match w.phase, w.candidate, assignData o with
  | .assign, some a, some d => assignUpdate l a d s
  | _, _, _ => s

/-- The discovery after the end of its step (R129 to R131, R135 to R137), over the table as the
step left it. -/
def DiscoverWork.judgedStep (s : State) (l : Line) (o : TryOutcome) (w : DiscoverWork) :
    DiscoverWork :=
  match w.phase with
  | .roll =>
    match o with
    | .collided => w.roundEnd false
    | .sent | .noReply | .garbled | .replied _ => { w with phase := .pick }
  | .pick => (w.classed o).afterPick s l
  | .check => w.checked s l o
  | .assign =>
    match w.current, w.candidate with
    | some c, some a => (w.placed c a o).takeNext s l
    | _, _ => w

/-- The end of a discovery's result, or the judgement for its next step. -/
def discoverContinues (i : SlotId) (sl : Slot) (w : DiscoverWork) (s : State) : State :=
  if w.endReason = .none then stepFollows i sl (.discover w) s
  else decideSlot i sl (.discover w) .ok false s

/-- A DISCOVER's step ends (R129 to R137, with an abort by R140). -/
def discoverStepEnd (i : SlotId) (sl : Slot) (w : DiscoverWork) (o : TryOutcome) (s : State) :
    State :=
  let s := followAssign sl.line w o s
  let w := w.judgedStep s sl.line o
  if sl.abortPending then decideSlot i sl (.discover w) .aborted false s
  else discoverContinues i sl w s

/-- What the last try of a step leaves of it under a cut (R141). -/
def DiscoverWork.cutStep (last : Option TryOutcome) (w : DiscoverWork) : DiscoverWork :=
  match w.phase, last with
  | .pick, some (.replied r) => w.classed (.replied r)
  | .assign, some (.replied r) =>
    if r.status = .ok then
      (match w.current, w.candidate with
       | some c, some a => w.placed c a (.replied r)
       | _, _ => w)
    else w
  | _, _ => w

/-- A DISCOVER's step ends under a cut (R141). -/
def discoverCut (i : SlotId) (sl : Slot) (w : DiscoverWork) (last : Option TryOutcome) (s : State) :
    State :=
  let s := match last with
    | some o => followAssign sl.line w o s
    | none => s
  decideSlot i sl (.discover (w.cutStep last)) .lineReset false s

/-- A started DISCOVER's line enters DOWN (R139): a round in progress ends, not quiet. `held` says
that the discovery held the line. -/
def discoverDown (i : SlotId) (sl : Slot) (w : DiscoverWork) (held : Bool) (s : State) : State :=
  let w := if held ∨ w.phase ≠ .roll then w.roundEnd false else w
  if held ∧ sl.abortPending then decideSlot i sl (.discover w) .aborted false s
  else discoverContinues i sl w s

end Sys2Proof.Machine
end

