-- ==== Sys2Proof/Machine/Reflex.lean ====
section
/-! DEFINITION. Matching and firing of reflexes (R160 to R163), and the judgement of an accepted
notice for delivery (R147). -/

namespace Sys2Proof.Machine

/-- A notice received on a line matches an entry (R160). -/
def ReflexEntry.matchesNotice (l : Line) (n : NodeNotice) (e : ReflexEntry) : Bool :=
  e.armed && e.matchLine == l
    && (match e.matchSource with | none => true | some a => a == n.source)
    && e.matchKind == n.kind
    && (match e.matchArg with | none => true | some b => n.arg.head? == some b)

/-- The entry after a firing at a millisecond count (R161). -/
def ReflexEntry.fired (now : Word) (e : ReflexEntry) : ReflexEntry :=
  { e with
    fireCount := min 65535 (e.fireCount + 1)
    quietUntil := if 0 < e.holdoff then some (now + BitVec.ofNat 32 e.holdoff) else none }

/-- The call that a firing queues (R163). -/
def ReflexEntry.queuedCall (e : ReflexEntry) : QueuedCall :=
  { target := e.target, verb := e.verb, args := e.args }

/-- A firing is placed (R162), the entry's count and deadline updated before. -/
def placeFiring (k : ReflexId) (e : ReflexEntry) (s : State) : State :=
  let l := e.actionLine
  if !(s.engine l).state.usable then
    createNotice (some l) (.reflexDropped k .lineUnavailable) s
  else if 4 ≤ (s.queue l).length then createNotice (some l) (.reflexDropped k .queueFull) s
  else
    let s := s.setQueue l (s.queue l ++ [e.queuedCall])
    if e.report then createNotice (some l) (.reflexFired k e.fireCount) s else s

/-- One entry is compared with a notice, and fires if it matches and is not quiet (R160, R161). -/
def matchReflex (l : Line) (n : NodeNotice) (s : State) (k : ReflexId) : State :=
  let e := s.reflex k
  if e.matchesNotice l n ∧ e.quietUntil.isNone then
    let e := e.fired s.ms
    placeFiring k e (s.setReflex k e)
  else s

/-- An accepted notice is passed to the reflex unit, which matches it while the device is RUNNING
(R160). -/
def matchReflexes (l : Line) (n : NodeNotice) (s : State) : State :=
  if s.device = .running then allReflexes.foldl (matchReflex l n) s else s

/-- A valid notice is judged and delivered (R147). -/
def hearNotice (l : Line) (n : NodeNotice) (s : State) : State :=
  match noticeVerdict l n s with
  | (false, s) => s
  | (true, s) => matchReflexes l n (createNotice (some l) (.nodeNotice n) s)

end Sys2Proof.Machine
end

