-- ==== Sys2Proof/Machine/Tries.lean ====
section
/-! DEFINITION. A line engine's steps, tries and grants: how a try begins and ends (R29 to R32), how
a grant ends, what a cut and an entry to DOWN do to the holder (R27, R33, R86, R87), and the listen
series (R145, R146). -/

namespace Sys2Proof.Machine

/-! ## Tries -/

/-- The next try of the step begins (R22, R31): the line goes to CALLING with the call's frame. -/
def beginTry (l : Line) (s : State) : State :=
  let e := s.engine l
  match e.step with
  | none => s
  | some st =>
    s.setEngine l { e with
      state := .calling, frame := callFrame st.call, frameStarted := false, quiet := false,
      next := .none, step := some { st with tries := st.tries + 1 } }

/-- The next try begins when the line has been high for one gap (R31): at once if it has. -/
def afterGap (l : Line) (s : State) : State :=
  if (s.engine l).quiet then beginTry l s
  else s.setEngine l { s.engine l with next := .gap }

/-- A step of a call begins with its first try after the gap (R29, R31). -/
def beginStep (l : Line) (c : Call) (limit : Nat) (s : State) : State :=
  afterGap l (s.setEngine l { s.engine l with
    step := some { call := c, retryLimit := limit, tries := 0, allGarbled := true } })

/-- A try sent to its end got no valid reply: a commit slot in phase COMMIT takes the unverified
mark (R108). -/
def markUnverified (l : Line) (s : State) : State :=
  match (s.engine l).holder with
  | .slot i =>
    (match s.slot i with
     | some sl =>
       (match sl.work with
        | .param w =>
          if w.phase = some .commit then
            s.setSlot i (some { sl with work := .param { w with unverified := true } })
          else s
        | .call _ | .sweep _ | .discover _ | .unknown => s)
     | none => s)
  | .none | .reflex | .series => s

/-- The mark of R108 after the end of a try. -/
def noteLostCommit (l : Line) (o : TryOutcome) (s : State) : State :=
  match o with
  | .noReply | .garbled => markUnverified l s
  | .sent | .replied _ | .collided => s

/-! ## Listen series -/

/-- A series ends and the listen interval timer starts (R38, R146). -/
def endSeries (l : Line) (s : State) : State :=
  let e := s.engine l
  s.setEngine l { e with series := none, listenTimer := some (s.after e.config.listenInterval) }

/-- A window has ended, and the TAKEN that it called for with it (R146; R37 for a series that STOP
ends). A fourth, non-empty window sets listen-due although STOP has asked the series to end: DESIGN
CHOICE, assumption log 21. -/
def windowEnd (l : Line) (out : WindowOutcome) (s : State) : State :=
  let e := s.engine l
  match e.series with
  | none => s
  | some sr =>
    if out = .empty then endSeries l s
    else if 4 ≤ sr.window then endSeries l (s.setEngine l { e with listenDue := true })
    else if sr.stopping then endSeries l s
    else s.setEngine l { e with series := some { sr with last := some out, ack := none } }

/-! ## The admin unit's waits on a line -/

/-- A LINE_SET applies (R40, R48): the new values together, the entries re-evaluated when the
silence threshold has changed, and the result OK. -/
def applyLineSet (l : Line) (c : LineConfig) (s : State) : State :=
  let e := s.engine l
  let s := s.setEngine l { e with config := c }
  let s := if c.silence ≠ e.config.silence then rejudgeTable l c.silence s else s
  adminAnswer .ok [] s

/-- The line enters OFF (R23, R38, R42). -/
def enterOff (l : Line) (s : State) : State :=
  let s := s.setQueue l []
  judgeRings (s.setEngine l { s.engine l with
    state := .off, lowTimer := 0, debounce := none, settle := none, listenTimer := none,
    listenDue := false, series := none, quiet := false })

/-- The cut of a line has ended (R41, R42, R60): listen-due is cleared, the table is forgotten if
that was asked for, a LINE_DISABLE takes the line OFF, and the result is OK. -/
def finishCut (l : Line) (disable forget : Bool) (s : State) : State :=
  let s := s.setEngine l { s.engine l with listenDue := false }
  let s := if forget then forgetLine l s else s
  let s := if disable then enterOff l s else s
  adminAnswer .ok [] s

/-- The admin unit waits for the cut of a line. -/
def State.cutting (s : State) (l : Line) : Bool :=
  match s.admin with
  | none => false
  | some a => match a.phase with
    | .cutting m _ _ => m == l
    | _ => false

/-- A grant of the line has ended: the admin unit's request that waited for it goes on (R33, R40). -/
def afterGrant (l : Line) (s : State) : State :=
  match s.admin with
  | none => s
  | some a => match a.phase with
    | .settingLine m c => if m = l then applyLineSet l c s else s
    | .cutting m disable forget => if m = l then finishCut l disable forget s else s
    | _ => s

/-- A grant ends (R34): the holder becomes none. -/
def grantEnded (l : Line) (s : State) : State :=
  afterGrant l (s.setEngine l { s.engine l with
    holder := .none, step := none, next := .none, frame := [], frameStarted := false,
    headEnd := .normal })

/-! ## Slots at the end of a step -/

/-- The step outcome is handed to the slot (R81): its tries used are kept, and its kind judges. -/
def slotStepEnd (i : SlotId) (st : Step) (o : TryOutcome) (s : State) : State :=
  match s.slot i with
  | none => s
  | some sl =>
    let sl := { sl with tries := st.tries }
    match sl.work with
    | .call w => callStepEnd i sl w st.allGarbled o s
    | .sweep w => sweepStepEnd i sl w s
    | .param w => commitStepEnd i sl w o s
    | .discover w => discoverStepEnd i sl w o s
    | .unknown => s

/-- The step of a slot ends with outcome CUT after its last try, if a try was in progress (R33,
R86). -/
def slotCut (i : SlotId) (tries : Nat) (last : Option TryOutcome) (s : State) : State :=
  match s.slot i with
  | none => s
  | some sl =>
    let sl := { sl with tries := tries }
    match sl.work with
    | .call w => callCut i sl w last s
    | .sweep w => sweepCut i sl w last s
    | .param w => commitCut i sl w last s
    | .discover w => discoverCut i sl w last s
    | .unknown => s

/-- The step of a slot ends LINE_DOWN (R27, R87). -/
def slotDown (i : SlotId) (tries : Nat) (s : State) : State :=
  match s.slot i with
  | none => s
  | some sl =>
    let sl := { sl with tries := tries }
    match sl.work with
    | .call w => callDown i sl w s
    | .sweep w => sweepStepEnd i sl w s
    | .param w => commitDown i sl w s
    | .discover w => discoverDown i sl w true s
    | .unknown => s

/-- The tries begun by the step in progress. A try that an entry to DOWN interrupts counts among the
tries used: DESIGN CHOICE, assumption log 12. -/
def LineEngine.triesBegun (e : LineEngine) : Nat :=
  match e.step with
  | none => 0
  | some st => st.tries

/-! ## The reflex queue at the end of a grant -/

/-- The grant of the queue's head has ended on the line (R165, R168). -/
def queueAfterGrant (l : Line) (s : State) : State :=
  match (s.engine l).headEnd with
  | .normal => s.setQueue l (s.queue l).tail
  | .emptyQueue => s.setQueue l []
  | .leaveQueue => s

/-- The grant of the queue's head has been ended by DOWN (R165, R166, R168). -/
def queueAfterDown (l : Line) (s : State) : State :=
  match (s.engine l).headEnd with
  | .normal | .leaveQueue => s
  | .emptyQueue => s.setQueue l []

/-! ## Cut -/

/-- A call of the step in progress was answered by its last try, which is a true reply: it is
reported to the node table and sets listen-due (R32, R33). -/
def reportLast (l : Line) (last : Option TryOutcome) (s : State) : State :=
  match last, (s.engine l).step with
  | some (.replied r), some st => notePending l (.replied r) (reportStep l st.call false (.replied r) s)
  | _, _ => s

/-- A cut ends the holder's grant, its current try having ended with an outcome or none being in
progress (R33). -/
def cutHolder (l : Line) (last : Option TryOutcome) (s : State) : State :=
  let e := s.engine l
  match e.holder with
  | .none => s
  | .slot i => grantEnded l (slotCut i e.triesBegun last (reportLast l last s))
  | .reflex => grantEnded l (s.setQueue l [])
  | .series => grantEnded l (endSeries l (reportLast l last s))

/-! ## Ends of tries -/

/-- The step ends with its last try's outcome (R30): after the report, the owner receives it, and
the grant ends (R32, R34). -/
def endStep (l : Line) (st : Step) (o : TryOutcome) (s : State) : State :=
  match (s.engine l).holder with
  | .none => s
  | .slot i =>
    grantEnded l (slotStepEnd i st o (notePending l o (reportStep l st.call st.allGarbled o s)))
  | .reflex => grantEnded l (queueAfterGrant l s)
  | .series =>
    match (s.engine l).series with
    | none => grantEnded l s
    | some sr =>
      match sr.ack with
      | none => grantEnded l (windowEnd l .empty s)
      | some _ =>
        grantEnded l (windowEnd l .valid
          (notePending l o (reportStep l st.call st.allGarbled o s)))

/-- A try's outcome leaves no further try (R30), or STOP has ended the tries of a reflex call
(R168). -/
def stepOver (e : LineEngine) (st : Step) (o : TryOutcome) : Bool :=
  match o with
  | .sent | .replied _ => true
  | .noReply | .garbled | .collided =>
    decide (st.retryLimit + 1 ≤ st.tries) || e.headEnd != .normal

/-- The step after a try: the all-garbled indication holds while every try has been GARBLED (R30). -/
def Step.afterTry (st : Step) (o : TryOutcome) : Step :=
  { st with allGarbled := st.allGarbled && (match o with | .garbled => true | _ => false) }

/-- The engine at the end of a try: the line is back in IDLE (R22). Only a window without a start
leaves the gap count running (R5). -/
def LineEngine.afterTry (e : LineEngine) (st : Step) (o : TryOutcome) : LineEngine :=
  { e with
    state := .idle, frame := [], frameStarted := false, step := some st,
    quiet := e.quiet && (match o with | .noReply => true | _ => false) }

/-- The wait before the next try (R31): the gap, or after a collision a drawn backoff. -/
def waitForTry (l : Line) (o : TryOutcome) (s : State) : State :=
  match o with
  | .collided =>
    let d := drawBackoff s
    d.2.setEngine l { d.2.engine l with next := .backoff d.1 }
  | .sent | .replied _ | .noReply | .garbled => afterGap l s

/-- A try ends with an outcome (R30, R31, R33). -/
def endTry (l : Line) (o : TryOutcome) (s : State) : State :=
  let e := s.engine l
  match e.step with
  | none => s
  | some st =>
    let st := st.afterTry o
    let s := noteLostCommit l o (s.setEngine l (e.afterTry st o))
    if s.cutting l then cutHolder l (some o) s
    else if stepOver e st o then endStep l st o s
    else waitForTry l o s

/-! ## Ends of listen windows -/

/-- A listen window ends without a valid notice (R13, R146). Only a window without a start leaves
the gap count running (R5). -/
def endWindow (l : Line) (out : WindowOutcome) (s : State) : State :=
  let e := s.engine l
  let s := s.setEngine l { e with
    state := .idle, frameStarted := false, quiet := e.quiet && out == .empty }
  if s.cutting l then cutHolder l none s else grantEnded l (windowEnd l out s)

/-- A listen window ends with a valid notice (R147): it is judged and delivered, and its TAKEN
follows under the same grant (R148), unless a cut ends the grant (R33). -/
def endWindowValid (l : Line) (n : NodeNotice) (s : State) : State :=
  let s := s.setEngine l { s.engine l with state := .idle, frameStarted := false, quiet := false }
  let s := hearNotice l n s
  if s.cutting l then cutHolder l none s
  else
    let e := s.engine l
    let s := s.setEngine l { e with
      series := e.series.map fun sr =>
        { sr with last := some .valid, ack := some (n.source, n.seq) } }
    beginStep l (takenCall n.source n.seq) e.config.retryLimit s

/-! ## Entry to DOWN -/

/-- What the end of its grant by DOWN does to the holder (R28, R33, R87, R150, R165). -/
def holderDown (l : Line) (e : LineEngine) (cutting : Bool) (s : State) : State :=
  match e.holder with
  | .none | .series => s
  | .slot i => if cutting then slotCut i e.triesBegun none s else slotDown i e.triesBegun s
  | .reflex => if cutting then s.setQueue l [] else queueAfterDown l s

/-- A started slot that did not hold the line hears of DOWN (R87): a CALL ends LINE_DOWN, a DISCOVER
ends its round. -/
def otherDown (l : Line) (e : LineEngine) (s : State) (i : SlotId) : State :=
  if e.holder = .slot i then s
  else match s.slot i with
    | none => s
    | some sl =>
      if sl.line = l ∧ sl.started ∧ sl.unfinished then
        match sl.work with
        | .call w => callDown i sl w s
        | .discover w =>
          (match sl.state with
           | .waiting _ | .ready => discoverDown i sl w false s
           | .onLine | .paused | .finishing => s)
        | .sweep _ | .param _ | .unknown => s
      else s

/-- The engine on entry to DOWN (R27, R38). -/
def LineEngine.down (e : LineEngine) : LineEngine :=
  { e with
    state := .down, frame := [], frameStarted := false, quiet := false, lowTimer := 0,
    settle := none, listenTimer := none, series := none }

/-- A COMMIT try sent to its end whose reply window is ended by DOWN (R108). -/
def noteDownCommit (l : Line) (s : State) : State :=
  match (s.engine l).state with
  | .awaiting | .receiving => markUnverified l s
  | .off | .restoring | .idle | .calling | .listening | .down => s

/-- The line of an engine goes to DOWN, with its notice (R24, R27, R28, R108). -/
def goDown (l : Line) (s : State) : State :=
  (noteDownCommit l (createNotice (some l) (.lineDown (s.engine l).state) s)).setEngine l
    (s.engine l).down

/-- The slots of a line hear of DOWN, its holder first (R87). -/
def hearDown (l : Line) (e : LineEngine) (s : State) : State :=
  allSlots.foldl (otherDown l e) (holderDown l e (s.cutting l) s)

/-- The line enters DOWN (R24, R27, R28, R87). -/
def enterDown (l : Line) (s : State) : State :=
  let e := s.engine l
  let s := hearDown l e (goDown l s)
  judgeRings (if e.holder = .none then s else grantEnded l s)

end Sys2Proof.Machine
end

