-- ==== Sys2Proof/Machine/Arbiter.lean ====
section
/-! DEFINITION. The line arbiter (R34 to R37): the candidates in their order, the grants (R80, R90,
R107, R129, R145, R165), and the judgement and decision that follow each event of a line. -/

namespace Sys2Proof.Machine

/-! ## Candidates -/

/-- The device grants slot steps (R37). -/
def State.serving (s : State) : Bool :=
  match s.device with
  | .running | .stopping | .stopped => true
  | .reset | .starting | .halted => false

/-- The head of the line's reflex queue qualifies (R36, R37): no address of its target set holds a
commit lock. -/
def headQualifies (s : State) (l : Line) : Bool :=
  s.device == .running &&
    (match s.queue l with
     | [] => false
     | c :: _ => allAddrs.all fun a => !inTarget s l c.target a || (s.entry l a).lock.isNone)

/-- A listen window is wanted (R35, R37): the next of a series in progress, or the first of a series
that listen-due starts. -/
def listenWanted (s : State) (l : Line) : Bool :=
  s.device == .running && ((s.engine l).series.isSome || (s.engine l).listenDue)

/-- The place of a READY slot before its age (R35): started slots, then the classes. -/
def Slot.rank (sl : Slot) : Nat :=
  if sl.started then 0
  else match sl.cls with
    | .urgent => 1
    | .normal => 2
    | .bulk => 3

/-- The first slot comes before the second at the arbiter (R35). -/
def comesBefore (x y : Slot) : Bool :=
  x.rank < y.rank || (x.rank == y.rank && olderSeq x.seq y.seq)

/-- The better of the best slot so far and a slot of the line (R35). -/
def betterSlot (s : State) (l : Line) (best : Option (SlotId × Slot)) (i : SlotId) :
    Option (SlotId × Slot) :=
  match s.slot i with
  | none => best
  | some sl =>
    if sl.state = .ready ∧ sl.line = l then
      match best with
      | none => some (i, sl)
      | some b => if comesBefore sl b.2 then some (i, sl) else best
    else best

/-- The READY slot that the arbiter grants to (R35). -/
def chooseSlot (s : State) (l : Line) : Option (SlotId × Slot) :=
  allSlots.foldl (betterSlot s l) none

/-- The line may be granted (R34): it is IDLE, has no holder, and has been high for one gap. -/
def lineFree (s : State) (l : Line) : Bool :=
  (s.engine l).state == .idle && (s.engine l).holder == .none && (s.engine l).quiet

/-! ## Grants -/

/-- The line is granted to a user for one step of a call (R34). -/
def grantStep (l : Line) (h : Holder) (c : Call) (limit : Nat) (s : State) : State :=
  beginStep l c limit (s.setEngine l { s.engine l with holder := h })

/-- The line is granted to the head of its reflex queue (R165). -/
def grantReflex (l : Line) (s : State) : State :=
  match s.queue l with
  | [] => s
  | c :: _ =>
    grantStep l .reflex { target := c.target, verb := c.verb, reply := false, args := c.args } 1 s

/-- The line is granted to the listen series (R145): the next window of a series in progress, or
the first of a new one. -/
def grantListen (l : Line) (s : State) : State :=
  let e := s.engine l
  let e := match e.series with
    | some sr => { e with series := some { sr with window := sr.window + 1 } }
    | none => { e with
        listenDue := false, listenTimer := none,
        series := some { window := 1, last := none, ack := none, stopping := false } }
  grantStep l .series listenCall 0 (s.setEngine l e)

/-- The retry limit of a slot's step (R29, R67): the override or the line's default. -/
def Slot.retryLimit (s : State) (sl : Slot) : Nat :=
  sl.retry.getD (s.engine sl.line).config.retryLimit

/-- A CALL at its grant (R90): the first grant fixes the busy limit. -/
def CallWork.atGrant (limit : Nat) (first : Bool) (w : CallWork) : CallWork :=
  if first ∧ w.reply then { w with busyLimit := limit + 1 } else w

/-- A slot with a grant (R80): ON_LINE, started, its expiry dropped. -/
def Slot.atGrant (sl : Slot) (w : Work) : Slot :=
  { sl with state := .onLine, started := true, expireAt := none, work := w }

/-- The grant to a CALL (R89, R90). -/
def grantCall (i : SlotId) (sl : Slot) (w : CallWork) (s : State) : State :=
  let limit := sl.retryLimit s
  let w := w.atGrant limit (!sl.started)
  grantStep sl.line (.slot i)
    { target := w.target, verb := w.verb, reply := w.reply, args := w.args } limit
    (s.setSlot i (some (sl.atGrant (.call w))))

/-- The grant to a SWEEP (R100). -/
def grantSweep (i : SlotId) (sl : Slot) (w : SweepWork) (s : State) : State :=
  match w.step with
  | none => s
  | some a =>
    grantStep sl.line (.slot i) (pingCall a) (sl.retryLimit s)
      (s.setSlot i (some (sl.atGrant (.sweep w))))

/-- The budget deadline of a commit (R107): its own budget, or the line's default. -/
def budgetDeadline (s : State) (sl : Slot) (w : ParamWork) : Word :=
  s.after (if w.budget = 0 then (s.engine sl.line).config.budget else w.budget)

/-- The slot and its entry at the grant to a PARAM_WRITE (R57, R80, R107): the first grant takes the
lock and starts the budget. -/
def commitAtGrant (i : SlotId) (sl : Slot) (w : ParamWork) (s : State) : State :=
  if sl.started then s.setSlot i (some (sl.atGrant (.param w)))
  else
    acquireLock sl.line w.addr i
      (s.setSlot i (some { sl.atGrant (.param w) with budgetAt := some (budgetDeadline s sl w) }))

/-- The work fields at the grant to a PARAM_WRITE (R107). -/
def ParamWork.atGrant (s : State) (sl : Slot) (w : ParamWork) : ParamWork :=
  if sl.started then w else w.granted s.ms (s.entry sl.line w.addr).store

/-- The grant to a PARAM_WRITE (R107, R108). -/
def grantCommit (i : SlotId) (sl : Slot) (w : ParamWork) (s : State) : State :=
  let w := w.atGrant s sl
  match w.phase with
  | none => s
  | some p =>
    grantStep sl.line (.slot i) (phaseCall p w) (sl.retryLimit s) (commitAtGrant i sl w s)

/-- The retry limit of a discovery's step (R29). -/
def DiscoverWork.retryLimit (default : Nat) (w : DiscoverWork) : Nat :=
  match w.phase with
  | .pick => 0
  | .roll | .check | .assign => default

/-- A discovery at its grant (R129): a grant in phase ROLL draws a seed and begins a round. -/
def discoverAtGrant (w : DiscoverWork) (s : State) : DiscoverWork × State :=
  match w.phase with
  | .roll => let d := drawSeed s; (w.beginRound d.1, d.2)
  | .pick | .check | .assign => (w, s)

/-- The grant to a DISCOVER (R128, R129). -/
def grantDiscover (i : SlotId) (sl : Slot) (w : DiscoverWork) (s : State) : State :=
  let g := discoverAtGrant w s
  match g.1.stepCall with
  | none => s
  | some c =>
    grantStep sl.line (.slot i) c (g.1.retryLimit (s.engine sl.line).config.retryLimit)
      (g.2.setSlot i (some (sl.atGrant (.discover g.1))))

/-- The line is granted to a READY slot (R80). -/
def grantSlot (i : SlotId) (sl : Slot) (s : State) : State :=
  match sl.work with
  | .call w => grantCall i sl w s
  | .sweep w => grantSweep i sl w s
  | .param w => grantCommit i sl w s
  | .discover w => grantDiscover i sl w s
  | .unknown => s

/-! ## Decision -/

/-- The arbiter decides (R34, R35). -/
def arbiter (l : Line) (s : State) : State :=
  if s.serving ∧ lineFree s l then
    if headQualifies s l then grantReflex l s
    else if listenWanted s l then grantListen l s
    else match chooseSlot s l with
      | some (i, sl) => grantSlot i sl s
      | none => s
  else s

/-- After an event of a line: its slots are judged, its arbiter decides, and a grant is an event
that judges them again (R34, R70). -/
def settleLine (l : Line) (s : State) : State := judgeLine l (arbiter l (judgeLine l s))

/-- After an event of both lines. -/
def settleBoth (s : State) : State := settleLine .b (settleLine .a s)

/-! ## Cut -/

/-- A slot of the line that does not hold it is cut (R86). -/
def cutSlot (l : Line) (s : State) (i : SlotId) : State :=
  match s.slot i with
  | none => s
  | some sl =>
    if sl.line = l then
      match sl.state with
      | .waiting _ | .ready | .paused => endSlot i .lineReset false s
      | .onLine | .finishing => s
    else s

/-- The reflex queue at the application of a cut (R167): emptied at once, unless its head holds the
grant. -/
def cutQueue (l : Line) (s : State) : State :=
  match (s.engine l).holder with
  | .reflex => s
  | .none | .slot _ | .series => s.setQueue l []

/-- A series that does not hold the line ends at the application of a cut (R33). -/
def cutSeries (l : Line) (s : State) : State :=
  match (s.engine l).holder with
  | .series => s
  | .none | .slot _ | .reflex => if (s.engine l).series.isSome then endSeries l s else s

/-- What waits on the line is cut (R33, R86, R167): its slots, its queue and a series between two
windows. -/
def cutWaiting (l : Line) (s : State) : State :=
  cutSeries l (cutQueue l (allSlots.foldl (cutSlot l) s))

/-- The cut of a line by the current request is applied (R33, R41, R42, R86): it ends at once when
the line has no holder or the holder has no try in progress. -/
def applyCut (l : Line) (disable forget : Bool) (s : State) : State :=
  let s := cutWaiting l s
  match (s.engine l).holder with
  | .none => finishCut l disable forget s
  | .slot _ | .reflex | .series =>
    match (s.engine l).state with
    | .idle => cutHolder l none s
    | .off | .restoring | .calling | .awaiting | .receiving | .listening | .down => s

end Sys2Proof.Machine
end

