-- ==== Sys2Proof/Machine/RingUnit.lean ====
section
/-! DEFINITION. The ring unit: what it does of itself after each event (R65, R66, R180, R182, R186,
R188, R199, R203), the register writes POST, TAKE and SIGNAL (R177, R184, R191), and the ends of its
writes (R182, R185, R188). -/

namespace Sys2Proof.Machine

/-! ## Closing -/

/-- The admin unit waits in a phase. -/
def State.adminWaits (s : State) (p : AdminPhase) : Bool :=
  match s.admin with
  | none => false
  | some a => a.phase == p

/-- A work ring 1 to 7 may enter CLOSED: it is DRAINING and holds no slot (R180). -/
def State.workCloses (s : State) (r : WorkRingId) : Bool :=
  r != 0 && (s.workRing r).state == .draining && s.ringSlots r == 0

/-- A result ring 1 to 3 whose CLOSE is current may enter CLOSED (R186): it is FAULTED, or has no
result left to write and no write in progress. -/
def State.resultCloses (s : State) (q : ResultRingId) : Bool :=
  q != 0 && s.adminWaits (.closingResult q) &&
    ((s.resultRing q).out.state == .faulted ||
      ((s.resultRing q).pending.isEmpty && (s.resultRing q).out.access == .idle))

/-- The notice ring whose CLOSE is current may enter CLOSED, and the CLOSE ends (R188, R204): a record
write in progress, with its progress word, has ended, also one that a BAD_TAKE has found in flight. The
place of CLOSED beside R188's "at once" is DEDUCED, assumption log 29. -/
def State.noticeCloses (s : State) : Bool :=
  s.adminWaits .closingNotice && s.notice.access == .idle

/-- The detail that the current CLOSE is answered with when its ring may enter CLOSED: the final
counts of a work ring (R180), the written and lost counts of a result ring (R186), or the written
count of the notice ring (R188). -/
def closeDetail (s : State) : Option (List Byte) :=
  match s.admin with
  | none => none
  | some a => match a.phase with
    | .closingWork r =>
      if s.workCloses r then some (le16 (s.workRing r).posted ++ le16 (s.workRing r).fetched)
      else none
    | .closingResult q =>
      if s.resultCloses q then
        some (le16 (s.resultRing q).out.written ++ le16 (BitVec.ofNat 16 (s.resultRing q).lost))
      else none
    | .closingNotice => if s.noticeCloses then some (le16 s.notice.written) else none
    | .settingLine _ _ | .cutting _ _ _ | .readingNodes _ _ _ _ _ | .readingReflex | .answered =>
      none

/-- A written ring in CLOSED: its timer is stopped (R190). -/
def OutputRing.closed (o : OutputRing) : OutputRing := { o with state := .closed, timer := none }

/-- The rings that may enter CLOSED do so. -/
def shutRings (s : State) : State :=
  { s with
    work := Vector.ofFn fun r =>
      if s.workCloses r then { s.workRing r with state := .closed } else s.workRing r
    results := Vector.ofFn fun q =>
      if s.resultCloses q then { s.resultRing q with out := (s.resultRing q).out.closed }
      else s.resultRing q
    notice := if s.noticeCloses then s.notice.closed else s.notice }

/-- The rings that may close do so, and the CLOSE that waited for one is answered. -/
def closeRings (s : State) : State :=
  judgeRings (match closeDetail s with
    | none => shutRings s
    | some d => adminAnswer .ok d (shutRings s))

/-! ## Writes -/

/-- A written ring takes a record for its next write: it is ACTIVE, has no write in progress and is
not full (R182, R183). -/
def OutputRing.writable (o : OutputRing) : Bool :=
  o.state == .active && o.access == .idle && !o.full

/-- The record write of the next entry begins (R182). -/
def OutputRing.beginRecord (o : OutputRing) (bytes : List Byte) : OutputRing :=
  { o with access := .record { addr := entryAddr o.base o.size o.written, bytes := bytes } false }

/-- The progress word write begins (R182). -/
def OutputRing.beginProgress (o : OutputRing) : OutputRing :=
  { o with access := .progress { addr := o.progress, bytes := progressBytes o.written } false }

/-- The write of the next record, if there is one, begins when it may. -/
def OutputRing.begun (next : Option (List Byte)) (o : OutputRing) : OutputRing :=
  match next with
  | none => o
  | some bytes => if o.writable then o.beginRecord bytes else o

/-- The writes that may begin now: the head of each result ring's pending list (R182), and the head
of the notice buffer, which is offered to the notice ring (R153, R188). -/
def startWrites (s : State) : State :=
  { s with
    results := Vector.ofFn fun q =>
      { s.resultRing q with
        out := (s.resultRing q).out.begun ((s.resultRing q).pending.head?.map resultBytes) }
    notice := s.notice.begun (s.buffer.head?.map noticeBytes) }

/-! ## Fetches -/

/-- A work ring is eligible for a slot (R65). -/
def eligible (s : State) (r : WorkRingId) : Bool :=
  (s.workRing r).state == .active && 0 < (s.workRing r).ahead
    && s.ringSlots r < (s.workRing r).credit

/-- The rings 1 to 7 in ring order after a ring, round again to it (R65). -/
def ringsAfter (last : WorkRingId) : List WorkRingId :=
  (List.finRange 7).map fun i => ⟨(last.val + i.val) % 7 + 1, by omega⟩

/-- The next eligible ring of a class (R65). -/
def nextRing (s : State) (c : RingClass) (last : WorkRingId) : Option WorkRingId :=
  (ringsAfter last).find? fun r => (s.workRing r).cls == c && eligible s r

/-- The ring that the allocation arbiter serves, with the round-robin positions after it (R65). -/
def chooseRing (s : State) : Option (WorkRingId × Served) :=
  match nextRing s .urgent s.served.urgent with
  | some r => some (r, { s.served with urgent := r })
  | none =>
    match nextRing s .normal s.served.normal with
    | some r => some (r, { s.served with normal := r })
    | none =>
      if 7 ≤ s.freeSlots.length then
        (nextRing s .bulk s.served.bulk).map fun r => (r, { s.served with bulk := r })
      else none

/-- The allocation arbiter acts (R65, R66): it reserves the lowest FREE slot for the ring it serves
and asks for the fetch. -/
def allocate (s : State) : State :=
  if s.device = .running ∧ s.workFetch.isNone then
    match s.freeSlots, chooseRing s with
    | i :: _, some (r, served) =>
      let w := s.workRing r
      { s with
        served := served,
        workFetch := some
          { ring := r, slot := i, addr := entryAddr w.base w.size w.fetched, stopped := false } }
    | _, _ => s
  else s

/-- The admin unit asks for the next record of work ring 0 (R203). -/
def fetchAdmin (s : State) : State :=
  let w := s.workRing 0
  if s.device = .running ∧ w.state = .active ∧ 0 < w.ahead ∧ s.admin.isNone ∧ s.adminFetch.isNone
  then { s with adminFetch := some (entryAddr w.base w.size w.fetched) }
  else s

/-- In STOPPING, the device is STOPPED when all 24 slots are FREE (R199). -/
def enterStopped (s : State) : State :=
  if s.device = .stopping ∧ s.allFree then { s with device := .stopped } else s

/-- What the ring unit, the allocation arbiter and the admin unit do of themselves after an event.
Nothing, once the part is HALTED (R201). -/
def serviceRings (s : State) : State :=
  if s.live then enterStopped (fetchAdmin (allocate (startWrites (closeRings s)))) else s

/-! ## POST -/

/-- The ring number field of POST and TAKE, bits 23 to 16 (R213). -/
def ringField (value : Word) : Byte := value.extractLsb' 16 8

/-- The count field of POST and TAKE, bits 15 to 0 (R213). -/
def countField (value : Word) : Half := value.extractLsb' 0 16

/-- A POST to an ACTIVE or HELD ring is good (R177). -/
def WorkRing.goodPost (w : WorkRing) (count : Half) : Bool :=
  (count - w.fetched).toNat ≤ w.size && w.ahead ≤ (count - w.fetched).toNat

/-- A POST to a ring that exists (R177, R178). -/
def postRing (r : WorkRingId) (number : Byte) (count : Half) (s : State) : State :=
  let w := s.workRing r
  match w.state with
  | .closed | .draining => createNotice none (.postIgnored number .ringClosed count) s
  | .faulted => s
  | .active | .held =>
    if w.goodPost count then s.setWorkRing r { w with posted := count }
    else faultWorkRing r .badPost s

/-- A work ring number 0 to 7 (R177). -/
def workRingOf (b : Byte) : Option WorkRingId :=
  if h : b.toNat ≤ 7 then some ⟨b.toNat, by omega⟩ else none

/-- A write of POST (R177); in HALTED it is discarded (R193). -/
def writePost (value : Word) (s : State) : State :=
  if s.live then
    match workRingOf (ringField value) with
    | some r => serviceRings (postRing r (ringField value) (countField value) s)
    | none =>
      serviceRings
        (createNotice none (.postIgnored (ringField value) .noSuchRing (countField value)) s)
  else s

/-! ## TAKE -/

/-- A TAKE naming entries that have been written (R184). -/
def OutputRing.goodTake (o : OutputRing) (count : Half) : Bool :=
  (count - o.consumed).toNat ≤ o.unconsumed

/-- The ring after a good TAKE (R184, R190): one that empties it stops its holdoff timer. -/
def OutputRing.taken (o : OutputRing) (count : Half) : OutputRing :=
  { o with consumed := count, timer := if o.written = count then none else o.timer }

/-- A written ring enters FAULTED for a reason (R185, R188). -/
def faultRing (n : RingName) (reason : FaultReason) (s : State) : State :=
  match n with
  | .result q => faultResultRing q reason s
  | .notice => faultNoticeRing reason s

/-- A TAKE of a ring that exists (R184). -/
def takeRing (n : RingName) (count : Half) (s : State) : State :=
  let o := s.outRing n
  match o.state with
  | .closed | .faulted => s
  | .active =>
    if o.goodTake count then s.setOutRing n (o.taken count) else faultRing n .badTake s

/-- The ring that TAKE names (R213): 0 to 3 the result rings, 8 the notice ring. -/
def ringNameOf (b : Byte) : Option RingName :=
  if b = 8 then some .notice else (resultRingOf b).map .result

/-- A write of TAKE (R184); in HALTED it is discarded (R193). -/
def writeTake (value : Word) (s : State) : State :=
  if s.live then
    match ringNameOf (ringField value) with
    | some n => serviceRings (takeRing n (countField value) s)
    | none => s
  else s

/-! ## SIGNAL -/

/-- A ring's condition is acknowledged if its bit is written 1 (R191, R213). -/
def acknowledgeRing (value : Word) (n : RingName) (place : Nat) (s : State) : State :=
  if value.getLsbD place then s.setOutRing n ((s.outRing n).acknowledge s.ms s.live) else s

/-- A write of SIGNAL (R191), taken in every device state (R193). -/
def writeSignal (value : Word) (s : State) : State :=
  let s := acknowledgeRing value (.result 0) 0 s
  let s := acknowledgeRing value (.result 1) 1 s
  let s := acknowledgeRing value (.result 2) 2 s
  let s := acknowledgeRing value (.result 3) 3 s
  let s := acknowledgeRing value .notice 4 s
  if value.getLsbD 5 then { s with deviceEvent := false } else s

/-! ## Ends of record writes -/

/-- A record write of the ring has completed (R182): written rises, the conditions are judged, and
the progress word write begins. -/
def OutputRing.recordWritten (now : Word) (o : OutputRing) : OutputRing :=
  (({ o with written := o.written + 1 }).signalWrite now).beginProgress

/-- A record write that completes in HALTED is counted, and nothing follows it (R193, R201). -/
def OutputRing.recordWrittenHalted (o : OutputRing) : OutputRing :=
  { o with written := o.written + 1, access := .idle }

/-- The ring with no access in flight. -/
def OutputRing.idle (o : OutputRing) : OutputRing := { o with access := .idle }

/-- The sender of the head of a pending list is told that it was written (R182). -/
def tellHead (pending : List ResultRecord) (s : State) : State :=
  match pending with
  | [] => s
  | r :: _ => tellSender r.sender s

/-- A result record write completes (R182, R185). -/
def resultWritten (q : ResultRingId) (s : State) : State :=
  let ring := s.resultRing q
  match ring.out.access with
  | .idle | .progress _ _ => s
  | .record _ stale =>
    if s.live then
      let out := if stale then ring.out.idle else ring.out.recordWritten s.ms
      serviceRings
        (tellHead ring.pending (s.setResultRing q { ring with out := out, pending := ring.pending.tail }))
    else
      let out := if stale then ring.out.idle else ring.out.recordWrittenHalted
      s.setResultRing q { ring with out := out, pending := ring.pending.tail }

/-- A progress word write completes: the next record may be written (R182, R188). -/
def progressWritten (n : RingName) (s : State) : State :=
  match (s.outRing n).access with
  | .idle | .record _ _ => s
  | .progress _ _ => serviceRings (s.setOutRing n (s.outRing n).idle)

/-- The notice unit's head is written (R153, R188). -/
def noticeWritten (s : State) : State :=
  match s.notice.access with
  | .idle | .progress _ _ => s
  | .record _ stale =>
    if s.live then
      let out := if stale then s.notice.idle else s.notice.recordWritten s.ms
      serviceRings { s with notice := out, buffer := s.buffer.tail }
    else
      let out := if stale then s.notice.idle else s.notice.recordWrittenHalted
      { s with notice := out, buffer := s.buffer.tail }

/-! ## Write faults -/

/-- An ACTIVE ring enters FAULTED at a bus error of a write begun since it was opened (R185, R188). -/
def faultIfActive (n : RingName) (stale : Bool) (s : State) : State :=
  if (s.outRing n).state = .active ∧ !stale then faultRing n .writeFault s else s

/-- The result whose record write ended with a bus error is counted lost (R185). -/
def loseHead (q : ResultRingId) (s : State) : State :=
  let ring := s.resultRing q
  match ring.pending with
  | [] => s
  | r :: rest => loseResult q (s.setResultRing q { ring with pending := rest }) r

/-- A write of a result ring ends with a bus error (R185). -/
def resultFault (q : ResultRingId) (s : State) : State :=
  let ring := s.resultRing q
  let idle := s.setResultRing q { ring with out := ring.out.idle }
  if s.live then
    match ring.out.access with
    | .idle => s
    | .record _ stale => serviceRings (faultIfActive (.result q) stale (loseHead q idle))
    | .progress _ stale => serviceRings (faultIfActive (.result q) stale idle)
  else idle

/-- A write of the notice ring ends with a bus error (R188); the record stays at the head (R153). -/
def noticeFault (s : State) : State :=
  let idle := { s with notice := s.notice.idle }
  if s.live then
    match s.notice.access with
    | .idle => s
    | .record _ stale | .progress _ stale => serviceRings (faultIfActive .notice stale idle)
  else idle

/-! ## Holdoff -/

/-- The holdoff timer of a ring has reached a tick at or after its deadline (R190). The tick of the
millisecond in which a holdoff of 0 started lies before that start. -/
def OutputRing.holdoffDue (now : Word) (o : OutputRing) : Bool :=
  match o.timer with
  | none => false
  | some d => reached now d && (o.holdoff != 0 || now != d)

/-- A ring's holdoff timer expires (R190). -/
def holdoffExpiry (n : RingName) (s : State) : State :=
  if s.live ∧ (s.outRing n).holdoffDue s.ms then s.setOutRing n (s.outRing n).holdoffExpired else s

/-! ## Fetch faults -/

/-- The slot table's fetch ends with a bus error (R66, R178): the reservation is dropped, and the
ring enters FAULTED unless it is DRAINING or FAULTED already. -/
def workFetchFault (s : State) : State :=
  match s.workFetch with
  | none => s
  | some f =>
    let s := { s with workFetch := none }
    if s.live then
      serviceRings (match (s.workRing f.ring).state with
        | .active | .held => faultWorkRing f.ring .fetchFault s
        | .closed | .draining | .faulted => s)
    else s

/-- The admin unit's fetch ends with a bus error (R178, R187). -/
def adminFetchFault (s : State) : State :=
  match s.adminFetch with
  | none => s
  | some _ =>
    let s := { s with adminFetch := none }
    if s.live then
      match (s.workRing 0).state with
      | .active | .held => faultWorkRing 0 .fetchFault s
      | .closed | .draining | .faulted => s
    else s

end Sys2Proof.Machine
end

