-- ==== Sys2Proof/Machine/Fill.lean ====
section
/-! DEFINITION. The five commands of the slot table's fetch: CALL, SWEEP, PARAM_WRITE, DISCOVER and
a record of unknown kind, each filling its reserved slot (R64, R66 to R68), and FETCH_FAULT (R178). -/

namespace Sys2Proof.Machine

/-- The work fields at the fill: a SWEEP's list is formed from the table as it stands (R98). -/
def filledWork (s : State) (l : Line) (w : Work) : Work :=
  match w with
  | .sweep w => .sweep { w with marks := sweepList s l w.all }
  | .call w => .call w
  | .param w => .param w
  | .discover w => .discover w
  | .unknown => .unknown

/-- A deadline of a record some milliseconds after its fetch, none for 0 (R64). -/
def recordDeadline (s : State) (ms : Nat) : Option Word := if ms = 0 then none else some (s.after ms)

/-- The slot as a fill sets it (R64, R66), from its ring, the record and what validation made of
it. A record that failed keeps none of its work fields. Until its first judgement, which follows at
once (R70), a slot stands as WAITING: it is not yet READY, so that judgement can refuse it (R78). -/
def filledSlot (s : State) (ring : WorkRingId) (r : Record) (d : Option (Option Nat × Work)) : Slot :=
  let w := s.workRing ring
  { state := .waiting .defer, ring := ring, tag := recordTag r, code := r[0], line := w.line, cls := w.cls,
    seq := s.fetchSeq, fetchTime := s.ms, force := recordForce r,
    retry := match d with | none => none | some p => p.1,
    work := match d with | none => .unknown | some p => filledWork s w.line p.2,
    tries := 0, started := false, abortPending := false,
    deferAt := recordDeadline s (recordDefer r), expireAt := recordDeadline s (recordExpire r),
    budgetAt := none, pollAt := none, result := none }

/-- A slot filled now is aborted at once (R66): its ring is DRAINING, or a STOP has come since its
fetch began. -/
def abortedAtFill (s : State) (f : WorkFetch) : Bool :=
  (s.workRing f.ring).state == .draining || f.stopped || s.device != .running

/-- The reserved slot is filled (R66 to R68). -/
def fillSlot (k : WorkKind) (f : WorkFetch) (r : Record) (s : State) : State :=
  let d := decodeWork k r
  let abort := abortedAtFill s f
  let sl := filledSlot s f.ring r d
  let s := { s.setSlot f.slot (some sl) with fetchSeq := s.fetchSeq + 1 }
  let s := if d.isNone then endSlot f.slot .badRecord false s
    else if abort then abortSlot f.slot s
    else s
  serviceRings (settleLine sl.line s)

/-- The slot table's fetch arrives with a record of a kind (R66, R179); in HALTED the record is
discarded (R193). -/
def takeWork (k : WorkKind) (r : Record) (s : State) : State :=
  match s.workFetch with
  | none => s
  | some f =>
    let s := { s with workFetch := none }
    if s.live then
      let w := s.workRing f.ring
      fillSlot k f r (s.setWorkRing f.ring { w with fetched := w.fetched + 1 })
    else s

/-- CALL (R66, R68, R89). -/
def execCall (r : Record) (s : State) : Host.Outcome State Fault Refusal :=
  .next (takeWork .call r s)

/-- SWEEP (R66, R68, R98). -/
def execSweep (r : Record) (s : State) : Host.Outcome State Fault Refusal :=
  .next (takeWork .sweep r s)

/-- PARAM_WRITE (R66, R68, R104). -/
def execParamWrite (r : Record) (s : State) : Host.Outcome State Fault Refusal :=
  .next (takeWork .param r s)

/-- DISCOVER (R66, R68, R127). -/
def execDiscover (r : Record) (s : State) : Host.Outcome State Fault Refusal :=
  .next (takeWork .discover r s)

/-- UNKNOWN_WORK_KIND (R66, R67). -/
def execUnknownWorkKind (r : Record) (s : State) : Host.Outcome State Fault Refusal :=
  .next (takeWork .unknown r s)

/-- FETCH_FAULT (R66, R178, R187). -/
def execFetchFault (f : Fetcher) (s : State) : Host.Outcome State Fault Refusal :=
  match f with
  | .slotTable => .next (workFetchFault s)
  | .adminUnit => .next (adminFetchFault s)

end Sys2Proof.Machine
end

