-- ==== Sys2Proof/Machine/Device.lean ====
section
/-! DEFINITION. The register writes and the device states (R194 to R202), and the boot block read
(R197, R198). -/

namespace Sys2Proof.Machine

/-! ## Reset -/

/-- The level of SENSE is a pin: a reset of the part leaves it. -/
def resetEngine (e : LineEngine) : LineEngine := { LineEngine.reset with sense := e.sense }

/-- A power-on reset and a host reset return the whole part to its initial values (R202). The model
keeps its own fields, the queue and the draws, and the levels of the pins. -/
def resetPart (s : State) : State :=
  { State.reset with
    lines := ⟨resetEngine (s.engine .a), resetEngine (s.engine .b)⟩, draws := s.draws,
    resetPinLow := s.resetPinLow, pending := s.pending }

/-- A register write: while the RESET pin is held low it is not taken (R194). -/
def registerTaken (write : State → State) (s : State) : State :=
  if s.resetPinLow then s else write s

/-! ## START and STOP -/

/-- The reflex queue of a line is empty at the start of RUNNING (R163): a head whose grant has not
ended since a STOP has left the queue. -/
def startLine (l : Line) (s : State) : State :=
  let e := s.engine l
  let s := s.setQueue l []
  match e.headEnd with
  | .emptyQueue => s.setEngine l { e with headEnd := .leaveQueue }
  | .normal | .leaveQueue => s

/-- START in RESET begins the boot block read (R197); START in STOPPED returns to RUNNING (R200); in
any other state it is ignored (R195). -/
def startDevice (s : State) : State :=
  match s.device with
  | .reset =>
    let s := { s with device := .starting }
    if s.boot.toNat % 32 = 0 then { s with bootRead := some s.boot } else haltDevice .bootInvalid s
  | .stopped =>
    serviceRings (settleBoth (startLine .b (startLine .a { s with device := .running })))
  | .starting | .running | .stopping | .halted => s

/-- STOP reaches the listen series of a line (R37, R38): one with a window in progress ends after
it, one between two windows ends at once. -/
def stopSeries (l : Line) (s : State) : State :=
  let e := s.engine l
  match e.series with
  | none => s
  | some sr =>
    if e.holder = .series then s.setEngine l { e with series := some { sr with stopping := true } }
    else endSeries l s

/-- STOP reaches the reflex queue of a line (R163, R168): it is emptied, but a head that holds the
grant keeps it until its current try has ended. -/
def stopQueue (l : Line) (s : State) : State :=
  let e := s.engine l
  if e.holder = .reflex then
    if e.state = .idle then grantEnded l (s.setQueue l [])
    else s.setEngine l { e with headEnd := .emptyQueue }
  else s.setQueue l []

/-- STOP reaches a line. -/
def stopLine (l : Line) (s : State) : State := stopQueue l (stopSeries l s)

/-- STOP in RUNNING enters STOPPING (R199); in any other state it is ignored (R195). -/
def stopDevice (s : State) : State :=
  if s.device = .running then
    let s := { s with
      device := .stopping
      workFetch := s.workFetch.map fun f => { f with stopped := true } }
    let s := abortWhere Slot.stopAborts s
    serviceRings (settleBoth (stopLine .b (stopLine .a s)))
  else s

/-- The interrupt enable takes a value (R192, R195). -/
def State.setEnable (s : State) (b : Bool) : State := { s with intEnable := b }

/-- A write of CTRL (R195, R213). -/
def writeCtrl (value : Word) (s : State) : State :=
  let start := value.getLsbD 0
  let stop := value.getLsbD 1
  let s' := s.setEnable (value.getLsbD 8)
  if value.getLsbD 2 then resetPart s
  else if start && stop then s'
  else if start then startDevice s'
  else if stop then stopDevice s'
  else s'

/-- A write of the register at an offset (R194, R213). -/
def writeRegister (offset value : Word) (s : State) : State :=
  if offset = 0x04 then writeCtrl value s
  else if offset = 0x0C then { s with boot := value }
  else if offset = 0x10 then writePost value s
  else if offset = 0x14 then writeTake value s
  else if offset = 0x18 then writeSignal value s
  else s

/-! ## Boot -/

/-- Entry to RUNNING from STARTING (R198). -/
def enterRunning (w : WorkRing) (o : OutputRing) (s : State) : State :=
  serviceRings
    { (s.setWorkRing 0 w).setResultRing 0 { out := o, lost := 0, pending := [] } with
      device := .running, bootRead := none }

/-- The boot block read completes (R197, R198). -/
def bootRead (block : Record) (s : State) : State :=
  if s.device = .starting ∧ s.bootRead.isSome then
    match decodeBoot block with
    | some (w, o) => enterRunning w o s
    | none => haltDevice .bootInvalid s
  else s

/-- The boot block read ends with a bus error (R197). -/
def bootFails (s : State) : State :=
  if s.device = .starting ∧ s.bootRead.isSome then haltDevice .bootFault s else s

/-! ## Commands -/

/-- POWER_ON_RESET (R202). -/
def execPowerOnReset (s : State) : Host.Outcome State Fault Refusal := .next (resetPart s)

/-- HOST_RESET (R195, R202): START, STOP and the enable of the same write are not acted on. -/
def execHostReset (_start _stop _enable : Bool) (s : State) : Host.Outcome State Fault Refusal :=
  .next (registerTaken resetPart s)

/-- START (R195, R197, R200). -/
def execStart (enable : Bool) (s : State) : Host.Outcome State Fault Refusal :=
  .next (registerTaken (fun s => startDevice (s.setEnable enable)) s)

/-- STOP (R195, R199). -/
def execStop (enable : Bool) (s : State) : Host.Outcome State Fault Refusal :=
  .next (registerTaken (fun s => stopDevice (s.setEnable enable)) s)

/-- INTERRUPT_ENABLE (R195): with both START and STOP named, neither is acted on. -/
def execInterruptEnable (_both enable : Bool) (s : State) : Host.Outcome State Fault Refusal :=
  .next (registerTaken (fun s => s.setEnable enable) s)

/-- REGISTER_WRITE (R194, R213). -/
def execRegisterWrite (offset value : Word) (s : State) : Host.Outcome State Fault Refusal :=
  .next (registerTaken (writeRegister offset value) s)

/-- POST (R177). -/
def execPost (value : Word) (s : State) : Host.Outcome State Fault Refusal :=
  .next (registerTaken (writePost value) s)

/-- TAKE (R184). -/
def execTake (value : Word) (s : State) : Host.Outcome State Fault Refusal :=
  .next (registerTaken (writeTake value) s)

/-- SIGNAL (R191). -/
def execSignal (value : Word) (s : State) : Host.Outcome State Fault Refusal :=
  .next (registerTaken (writeSignal value) s)

/-- BOOT_BLOCK_READ (R197, R198). -/
def execBootBlockRead (block : Record) (s : State) : Host.Outcome State Fault Refusal :=
  .next (bootRead block s)

/-- BOOT_FAULT (R197). -/
def execBootFault (s : State) : Host.Outcome State Fault Refusal := .next (bootFails s)

end Sys2Proof.Machine
end

