-- ==== Sys2Proof/Machine/Admin.lean ====
section
/-! DEFINITION. The administrative requests (R203 to R209), and the ends of the image writes of
NODE_READ and REFLEX_READ (R171, R208). -/

namespace Sys2Proof.Machine

/-! ## The current request -/

/-- The current request waits in a phase (R204). -/
def State.setPhase (s : State) (p : AdminPhase) : State :=
  { s with admin := s.admin.map fun a => { a with phase := p } }

/-- The admin unit's fetch arrives (R179, R203): the record becomes the current request, which a
meaning then executes. In HALTED it is discarded (R193). -/
def takeAdmin (r : Record) (run : State → State) (s : State) : State :=
  match s.adminFetch with
  | none => s
  | some _ =>
    let s := { s with adminFetch := none }
    if s.live then
      let w := s.workRing 0
      let s := s.setWorkRing 0 { w with fetched := w.fetched + 1 }
      serviceRings
        (run { s with admin := some { code := r[0], tag := recordTag r, phase := .answered } })
    else s

/-! ## Ring requests -/

/-- OPEN_WORK_RING's effect on a ring (R174, R205). -/
def openWork (ring : WorkRingId) (w : WorkRing) (s : State) : State :=
  if (s.workRing ring).state = .closed ∧ (s.resultRing w.bound).out.state = .active then
    adminAnswer .ok []
      (s.setWorkRing ring { w with state := if holdCondition s w then .held else .active })
  else adminAnswer .badState [] s

/-- A slot that holds work of a ring and is not started (R83). -/
def Slot.unstartedOf (ring : WorkRingId) (sl : Slot) : Bool := sl.ring == ring && !sl.started

/-- CLOSE_WORK_RING's effect on a ring (R83, R180). -/
def drainWork (ring : WorkRingId) (s : State) : State :=
  let w := s.workRing ring
  match w.state with
  | .closed | .draining => adminAnswer .badState [] s
  | .active | .held | .faulted =>
    let s := (s.setWorkRing ring { w with state := .draining }).setPhase (.closingWork ring)
    settleLine w.line (abortWhere (Slot.unstartedOf ring) s)

/-- An access that was in flight when its ring is opened anew (assumption log 17). -/
def RingAccess.madeStale : RingAccess → RingAccess
  | .idle => .idle
  | .record w _ => .record w true
  | .progress w _ => .progress w true

/-- OPEN_RESULT_RING's effect on a ring (R181, R205). -/
def openResult (q : ResultRingId) (o : OutputRing) (s : State) : State :=
  let ring := s.resultRing q
  if ring.out.state = .closed then
    let s := s.setResultRing q
      { ring with out := { o with access := ring.out.access.madeStale }, lost := 0 }
    adminAnswer .ok (le16 (BitVec.ofNat 16 ring.lost)) s
  else adminAnswer .badState [] s

/-- A work ring bound to a result ring is open and not FAULTED (R186). -/
def boundOpen (s : State) (q : ResultRingId) : Bool :=
  lineRings.any fun r => (s.workRing r).bound == q &&
    (match (s.workRing r).state with
     | .active | .held | .draining => true
     | .closed | .faulted => false)

/-- CLOSE_RESULT_RING's effect on a ring (R186). -/
def drainResult (q : ResultRingId) (s : State) : State :=
  match (s.resultRing q).out.state with
  | .closed => adminAnswer .badState [] s
  | .faulted => s.setPhase (.closingResult q)
  | .active =>
    if boundOpen s q then adminAnswer .bound [] s else s.setPhase (.closingResult q)

/-- OPEN_NOTICE_RING's effect (R188, R205). -/
def openNotice (o : OutputRing) (s : State) : State :=
  if s.notice.state = .closed then
    adminAnswer .ok [] { s with notice := { o with access := s.notice.access.madeStale } }
  else adminAnswer .badState [] s

/-- CLOSE_NOTICE_RING's effect (R188): a FAULTED ring enters CLOSED at once. The request is current
until a write in progress has ended (R204), on a FAULTED ring too: DEDUCED, assumption log 29. -/
def drainNotice (s : State) : State :=
  match s.notice.state with
  | .closed => adminAnswer .badState [] s
  | .active => s.setPhase .closingNotice
  | .faulted => { s with notice := s.notice.closed }.setPhase .closingNotice

/-! ## Line requests -/

/-- LINE_SET's effect on a line (R40, R206): refused for a new bit rate on a line that is not OFF,
applied between grants. -/
def setLine (l : Line) (c : LineConfig) (s : State) : State :=
  let e := s.engine l
  if c.rate ≠ e.config.rate ∧ e.state ≠ .off then adminAnswer .badState [] s
  else if e.holder = .none then settleLine l (applyLineSet l c s)
  else s.setPhase (.settingLine l c)

/-- LINE_ENABLE's effect on a line (R23, R25, R206). -/
def enableLine (l : Line) (s : State) : State :=
  let e := s.engine l
  if e.state = .off then
    let s := s.setEngine l { e with
      state := .restoring, origin := .off, lowTimer := 0,
      debounce := if e.sense then some (s.after 500) else none }
    settleLine l (adminAnswer .ok [] (judgeRings s))
  else adminAnswer .badState [] s

/-- LINE_RESET's and LINE_DISABLE's effect on a line (R41, R42, R206). -/
def cutLine (l : Line) (disable forget : Bool) (s : State) : State :=
  settleLine l (applyCut l disable forget (s.setPhase (.cutting l disable forget)))

/-! ## Table requests -/

/-- REFLEX_READ's write of the entry's image begins (R171). -/
def readReflex (k : ReflexId) (a : Word) (s : State) : State :=
  { s.setPhase .readingReflex with
    imageWrite := some { addr := a, bytes := reflexImage k (s.reflex k) } }

/-- The address some places after another, or the last one. -/
def addrAfter (first : Addr) (n : Nat) : Addr := ⟨min 79 (first.val + n), by omega⟩

/-- The write of NODE_READ's next image begins (R61, R208), `done` images having been written. Its
host address wraps modulo 2^32: DESIGN CHOICE, assumption log 25. -/
def readNode (l : Line) (first : Addr) (count done : Nat) (buffer : Word) (s : State) : State :=
  let a := addrAfter first done
  { s.setPhase (.readingNodes l first count done buffer) with
    imageWrite := some
      { addr := buffer + BitVec.ofNat 32 (32 * done), bytes := nodeImage l a (s.entry l a) } }

/-- NODE_CLEAR's effect on an entry (R59). -/
def clearNode (l : Line) (a : Addr) (s : State) : State :=
  if (s.entry l a).lock.isSome then adminAnswer .badState [] s
  else settleLine l (adminAnswer .ok [] (s.setEntry l a NodeEntry.initial))

/-- A slot holds a work ring and a tag (R209). -/
def Slot.named (ring : WorkRingId) (tag : Word) (sl : Slot) : Bool :=
  sl.ring == ring && sl.tag == tag

/-- The number of slots that are not FREE and meet a condition. -/
def countSlots (s : State) (p : Slot → Bool) : Nat :=
  (allSlots.filter fun i => match s.slot i with | none => false | some sl => p sl).length

/-- ABORT's effect on the slots of a ring and tag (R84, R85, R209), with the counts matched, ended
and pending. -/
def abortNamed (ring : WorkRingId) (tag : Word) (s : State) : State :=
  let named := Slot.named ring tag
  let matched := countSlots s named
  let ended := countSlots s fun sl => named sl && sl.unfinished && !sl.abortWaits
  let waits := countSlots s fun sl => named sl && sl.unfinished && sl.abortWaits
  if matched = 0 then adminAnswer .notFound [] s
  else
    settleBoth
      (adminAnswer .ok [byteOf matched, byteOf ended, byteOf waits] (abortWhere named s))

/-! ## Image writes -/

/-- An image write of NODE_READ completes (R208): the next begins, or the request ends OK. -/
def nodeImageWritten (s : State) : State :=
  match s.admin, s.imageWrite with
  | some ⟨_, _, .readingNodes l first count done buffer⟩, some _ =>
    let s := { s with imageWrite := none }
    if s.live then
      if done + 1 < count then readNode l first count (done + 1) buffer s
      else serviceRings (adminAnswer .ok [byteOf (done + 1)] s)
    else s
  | _, _ => s

/-- An image write of NODE_READ ends with a bus error (R208). -/
def nodeImageFault (s : State) : State :=
  match s.admin, s.imageWrite with
  | some ⟨_, _, .readingNodes _ _ _ done _⟩, some _ =>
    let s := { s with imageWrite := none }
    if s.live then serviceRings (adminAnswer .hostFault [byteOf done] s) else s
  | _, _ => s

/-- The image write of REFLEX_READ ends, and the request with a status (R171). -/
def reflexImageEnds (st : Status) (s : State) : State :=
  match s.admin, s.imageWrite with
  | some ⟨_, _, .readingReflex⟩, some _ =>
    let s := { s with imageWrite := none }
    if s.live then serviceRings (adminAnswer st [] s) else s
  | _, _ => s

/-! ## Commands -/

/-- A request whose record fails its checks is BAD_RECORD (R203); one that passes is executed. -/
def checked {α : Type} (fields : Option α) (run : α → State → State) (s : State) : State :=
  match fields with
  | none => adminAnswer .badRecord [] s
  | some x => run x s

/-- OPEN_WORK_RING (R174, R205). -/
def execOpenWorkRing (r : Record) (s : State) : Host.Outcome State Fault Refusal :=
  .next (takeAdmin r (checked (decodeOpenWork r) fun p => openWork p.1 p.2) s)

/-- CLOSE_WORK_RING (R180, R205). -/
def execCloseWorkRing (r : Record) (s : State) : Host.Outcome State Fault Refusal :=
  .next (takeAdmin r (checked (lineRingOf r[12]) drainWork) s)

/-- OPEN_RESULT_RING (R181, R205). -/
def execOpenResultRing (r : Record) (s : State) : Host.Outcome State Fault Refusal :=
  .next (takeAdmin r (checked (openResultRingOf r[12]) fun q =>
    checked (decodeOpenOut r) (openResult q)) s)

/-- CLOSE_RESULT_RING (R186, R205). -/
def execCloseResultRing (r : Record) (s : State) : Host.Outcome State Fault Refusal :=
  .next (takeAdmin r (checked (openResultRingOf r[12]) drainResult) s)

/-- OPEN_NOTICE_RING (R188, R205). -/
def execOpenNoticeRing (r : Record) (s : State) : Host.Outcome State Fault Refusal :=
  .next (takeAdmin r (checked (decodeOpenOut r) openNotice) s)

/-- CLOSE_NOTICE_RING (R188, R205). -/
def execCloseNoticeRing (r : Record) (s : State) : Host.Outcome State Fault Refusal :=
  .next (takeAdmin r drainNotice s)

/-- LINE_SET (R40, R206). -/
def execLineSet (r : Record) (s : State) : Host.Outcome State Fault Refusal :=
  .next (takeAdmin r (checked (decodeLineSet r) fun p => setLine p.1 p.2) s)

/-- LINE_ENABLE (R23, R206). -/
def execLineEnable (r : Record) (s : State) : Host.Outcome State Fault Refusal :=
  .next (takeAdmin r (checked (lineOf r[12]) enableLine) s)

/-- LINE_DISABLE (R42, R206). -/
def execLineDisable (r : Record) (s : State) : Host.Outcome State Fault Refusal :=
  .next (takeAdmin r (checked (lineOf r[12]) fun l => cutLine l true false) s)

/-- LINE_RESET (R41, R60, R206): byte 13 bit 0 is the forget flag (R212). -/
def execLineReset (r : Record) (s : State) : Host.Outcome State Fault Refusal :=
  .next (takeAdmin r (checked (lineOf r[12]) fun l => cutLine l false (r[13].getLsbD 0)) s)

/-- REFLEX_PUT (R169). -/
def execReflexPut (r : Record) (s : State) : Host.Outcome State Fault Refusal :=
  .next (takeAdmin r (checked (decodeReflexPut r) fun p s =>
    adminAnswer .ok [] (s.setReflex p.1 p.2)) s)

/-- REFLEX_DROP (R170). -/
def execReflexDrop (r : Record) (s : State) : Host.Outcome State Fault Refusal :=
  .next (takeAdmin r (checked (reflexIdOf r[12]) fun k s =>
    adminAnswer .ok [] (s.setReflex k ReflexEntry.empty)) s)

/-- REFLEX_READ (R171, R207). -/
def execReflexRead (r : Record) (s : State) : Host.Outcome State Fault Refusal :=
  .next (takeAdmin r (checked (decodeReflexRead r) fun p => readReflex p.1 p.2) s)

/-- NODE_READ (R208). -/
def execNodeRead (r : Record) (s : State) : Host.Outcome State Fault Refusal :=
  .next (takeAdmin r (checked (decodeNodeRead r) fun p =>
    readNode p.1 p.2.1 p.2.2.1 0 p.2.2.2) s)

/-- NODE_CLEAR (R59). -/
def execNodeClear (r : Record) (s : State) : Host.Outcome State Fault Refusal :=
  .next (takeAdmin r (checked (decodeNodeClear r) fun p => clearNode p.1 p.2) s)

/-- ABORT (R209). -/
def execAbort (r : Record) (s : State) : Host.Outcome State Fault Refusal :=
  .next (takeAdmin r (checked (decodeAbort r) fun p => abortNamed p.1 p.2) s)

/-- UNKNOWN_ADMIN_REQUEST (R203). -/
def execUnknownAdminRequest (r : Record) (s : State) : Host.Outcome State Fault Refusal :=
  .next (takeAdmin r (adminAnswer .badRecord []) s)

/-- NODE_READ_IMAGE_WRITTEN (R208). -/
def execNodeReadImageWritten (s : State) : Host.Outcome State Fault Refusal :=
  .next (nodeImageWritten s)

/-- NODE_READ_WRITE_FAULT (R208). -/
def execNodeReadWriteFault (s : State) : Host.Outcome State Fault Refusal :=
  .next (nodeImageFault s)

/-- REFLEX_READ_IMAGE_WRITTEN (R171). -/
def execReflexReadImageWritten (s : State) : Host.Outcome State Fault Refusal :=
  .next (reflexImageEnds .ok s)

/-- REFLEX_READ_WRITE_FAULT (R171). -/
def execReflexReadWriteFault (s : State) : Host.Outcome State Fault Refusal :=
  .next (reflexImageEnds .hostFault s)

end Sys2Proof.Machine
end

