-- ==== Sys2Proof/Machine/LineEvents.lean ====
section
/-! DEFINITION. The events of a field line: the line monitor (R24 to R26), the gap and the backoff
(R5, R31, R34), and the frames and windows (R4, R6, R9, R13, R22). An event whose premise the state
does not hold changes nothing (assumption log 6). -/

namespace Sys2Proof.Machine

/-- What follows every event that may change a line: its slots are judged, its arbiter decides, and
the rings are served. -/
def afterLine (l : Line) (s : State) : State := serviceRings (settleLine l s)

/-- As `afterLine`, for an event of one line that can queue a reflex call on the other. -/
def afterBoth (s : State) : State := serviceRings (settleBoth s)

/-! ## Line monitor -/

/-- The low timer reaches 50 ms (R24). -/
def lowTimerExpires (l : Line) (s : State) : State :=
  let e := s.engine l
  if s.live ∧ e.state.usable ∧ 50 ≤ e.lowTimer ∧ !e.sense then afterLine l (enterDown l s) else s

/-- The engine at a rise of SENSE (R24, R25): the low timer is cleared, a DOWN line enters
RESTORING, and the debounce starts from zero. -/
def LineEngine.risen (deadline : Word) (e : LineEngine) : LineEngine :=
  let e := { e with sense := true, lowTimer := 0 }
  match e.state with
  | .down => { e with state := .restoring, origin := .down, debounce := some deadline }
  | .restoring => { e with debounce := some deadline }
  | .off | .idle | .calling | .awaiting | .receiving | .listening => e

/-- SENSE rises (R24, R25). In HALTED the line monitor has stopped, and only the pin's level
changes. -/
def senseRises (l : Line) (s : State) : State :=
  let e := s.engine l
  if s.live then
    afterLine l (judgeRings (s.setEngine l (e.risen (s.after 500))))
  else s.setEngine l { e with sense := true }

/-- The engine at a fall of SENSE (R25). -/
def LineEngine.fallen (e : LineEngine) : LineEngine :=
  match e.state with
  | .restoring => { e with sense := false, debounce := none }
  | .off | .idle | .calling | .awaiting | .receiving | .listening | .down => { e with sense := false }

/-- SENSE falls (R24, R25): the debounce stops in RESTORING, and the low timer counts by the time
base (assumption log 7). -/
def senseFalls (l : Line) (s : State) : State :=
  let e := s.engine l
  if s.live then s.setEngine l e.fallen else s.setEngine l { e with sense := false }

/-- The engine at entry to IDLE from RESTORING (R25, R26, R38). The line has been high for far more
than one gap (assumption log 8). -/
def LineEngine.restored (now : Word) (e : LineEngine) : LineEngine :=
  { e with
    state := .idle, debounce := none, quiet := true,
    settle := if e.config.settle = 0 then none else some (now + BitVec.ofNat 32 e.config.settle),
    listenTimer := some (now + BitVec.ofNat 32 e.config.listenInterval) }

/-- SENSE has stayed high for 500 ms in RESTORING (R25, R26, R156). -/
def debounceExpires (l : Line) (s : State) : State :=
  let e := s.engine l
  if s.live ∧ e.state = .restoring ∧ s.due e.debounce then
    let s := s.setEngine l (e.restored s.ms)
    afterLine l (judgeRings (createNotice (some l) (.lineUp e.origin) s))
  else s

/-- The settle timer expires (R26, R73). -/
def settleExpires (l : Line) (s : State) : State :=
  let e := s.engine l
  if s.live ∧ s.due e.settle then afterLine l (s.setEngine l { e with settle := none }) else s

/-- The listen interval timer expires (R38, R144). -/
def listenExpires (l : Line) (s : State) : State :=
  let e := s.engine l
  if s.live ∧ s.due e.listenTimer then
    afterLine l (s.setEngine l { e with listenTimer := none, listenDue := true })
  else s

/-! ## Gap and backoff -/

/-- The line has been high for one gap (R5, R34). In IDLE the holder's next try or frame begins, or
the arbiter of a free line decides; in a window without a start it is counted for the next try
(R31). -/
def gapPasses (l : Line) (s : State) : State :=
  let e := s.engine l
  if s.live then
    match e.state with
    | .idle =>
      let s := s.setEngine l { e with quiet := true }
      (match e.holder, e.next with
       | .none, _ => afterLine l s
       | _, .gap => beginTry l s
       | _, .none | _, .backoff _ => s)
    | .awaiting | .listening =>
      if e.frameStarted then s else s.setEngine l { e with quiet := true }
    | .off | .restoring | .calling | .receiving | .down => s
  else s

/-- The line has been high for the drawn backoff (R31). -/
def backoffPasses (l : Line) (s : State) : State :=
  let e := s.engine l
  if s.live then
    match e.state, e.next with
    | .idle, .backoff _ => beginTry l s
    | _, _ => s
  else s

/-- A low is seen on RX while the part waits (R5): the gap count and a backoff count start again.
The drawn backoff keeps its value (R31). -/
def rxGoesLow (l : Line) (s : State) : State :=
  let e := s.engine l
  if s.live ∧ e.state ≠ .calling then s.setEngine l { e with quiet := false } else s

/-! ## Frames -/

/-- The receiver is armed after a frame that opens a window (R9, R13, R22). -/
def LineEngine.opened (w : LineState) (e : LineEngine) : LineEngine :=
  { e with state := w, frame := [], frameStarted := false, quiet := false }

/-- A frame of the step in progress has been sent (R6, R22): a call with reply opens its reply
window, a LISTEN its listen window, and any other call ends its try SENT. -/
def frameIsSent (l : Line) (st : Step) (s : State) : State :=
  let e := s.engine l
  if st.call.reply then s.setEngine l (e.opened .awaiting)
  else if e.holder = .series then s.setEngine l (e.opened .listening)
  else afterLine l (endTry l .sent s)

/-- The frame being sent reaches the end of its stop (R6). In HALTED nothing follows it (R37). -/
def frameEnds (l : Line) (s : State) : State :=
  let e := s.engine l
  if s.live then
    match e.state, e.step with
    | .calling, some st => frameIsSent l st s
    | _, _ => s
  else s.setEngine l { e with frame := [] }

/-- Readback finds a mismatch (R6): the part releases the line, and the try ends COLLIDED. -/
def frameCollides (l : Line) (s : State) : State :=
  let e := s.engine l
  if s.live then
    match e.state with
    | .calling => afterLine l (endTry l .collided s)
    | .off | .restoring | .idle | .awaiting | .receiving | .listening | .down => s
  else s.setEngine l { e with frame := [] }

/-- The start of a frame (R4, R22): AWAITING goes to RECEIVING, and a listen window has a start. -/
def frameStarts (l : Line) (s : State) : State :=
  let e := s.engine l
  if s.live then
    match e.state with
    | .awaiting => s.setEngine l { e with state := .receiving, frameStarted := true, quiet := false }
    | .listening => s.setEngine l { e with frameStarted := true, quiet := false }
    | .off | .restoring | .idle | .calling | .receiving | .down => s
  else s

/-- The outcome of a reply window whose frame ended well-formed (R8 to R10). -/
def replyOutcome (c : Call) (frame : List Byte) : TryOutcome :=
  match judgeReply c frame with
  | some r => .replied r
  | none => .garbled

/-- A well-formed frame ends in the reply window (R9). -/
def replyEnds (l : Line) (frame : List Byte) (s : State) : State :=
  let e := s.engine l
  if s.live then
    match e.state, e.step with
    | .receiving, some st => afterLine l (endTry l (replyOutcome st.call frame) s)
    | _, _ => s
  else s

/-- The reply window passes without a start (R9). -/
def replyTimesOut (l : Line) (s : State) : State :=
  let e := s.engine l
  if s.live then
    match e.state with
    | .awaiting => afterLine l (endTry l .noReply s)
    | .off | .restoring | .idle | .calling | .receiving | .listening | .down => s
  else s

/-- A garbled reception ends (R4): a reply window's try ends GARBLED, a listen window is garbled. -/
def receptionGarbles (l : Line) (s : State) : State :=
  let e := s.engine l
  if s.live then
    match e.state with
    | .receiving => afterLine l (endTry l .garbled s)
    | .listening => if e.frameStarted then afterLine l (endWindow l .garbled s) else s
    | .off | .restoring | .idle | .calling | .awaiting | .down => s
  else s

/-- A well-formed frame ends in a listen window (R13, R147). -/
def noticeEnds (l : Line) (frame : List Byte) (s : State) : State :=
  let e := s.engine l
  if s.live ∧ e.state = .listening ∧ e.frameStarted then
    match judgeNotice frame with
    | some n => afterBoth (endWindowValid l n s)
    | none => afterLine l (endWindow l .garbled s)
  else s

/-- A listen window passes without a start (R13). -/
def windowEmpties (l : Line) (s : State) : State :=
  let e := s.engine l
  if s.live ∧ e.state = .listening ∧ !e.frameStarted then afterLine l (endWindow l .empty s) else s

/-! ## Commands -/

/-- LOW_TIMER_EXPIRY (R24, R27, R28). -/
def execLowTimerExpiry (l : Line) (s : State) : Host.Outcome State Fault Refusal :=
  .next (lowTimerExpires l s)

/-- SENSE_RISE (R25). -/
def execSenseRise (l : Line) (s : State) : Host.Outcome State Fault Refusal := .next (senseRises l s)

/-- SENSE_FALL (R25). -/
def execSenseFall (l : Line) (s : State) : Host.Outcome State Fault Refusal := .next (senseFalls l s)

/-- DEBOUNCE_EXPIRY (R25). -/
def execDebounceExpiry (l : Line) (s : State) : Host.Outcome State Fault Refusal :=
  .next (debounceExpires l s)

/-- SETTLE_EXPIRY (R26). -/
def execSettleExpiry (l : Line) (s : State) : Host.Outcome State Fault Refusal :=
  .next (settleExpires l s)

/-- LISTEN_INTERVAL_EXPIRY (R38). -/
def execListenIntervalExpiry (l : Line) (s : State) : Host.Outcome State Fault Refusal :=
  .next (listenExpires l s)

/-- GAP_COMPLETE (R34). -/
def execGapComplete (l : Line) (s : State) : Host.Outcome State Fault Refusal := .next (gapPasses l s)

/-- BACKOFF_EXPIRY (R31). -/
def execBackoffExpiry (l : Line) (s : State) : Host.Outcome State Fault Refusal :=
  .next (backoffPasses l s)

/-- FRAME_SENT (R6). -/
def execFrameSent (l : Line) (s : State) : Host.Outcome State Fault Refusal := .next (frameEnds l s)

/-- COLLISION_DETECTED (R6). -/
def execCollisionDetected (l : Line) (s : State) : Host.Outcome State Fault Refusal :=
  .next (frameCollides l s)

/-- REPLY_FRAME_END (R9). -/
def execReplyFrameEnd (l : Line) (frame : List Byte) (s : State) :
    Host.Outcome State Fault Refusal := .next (replyEnds l frame s)

/-- REPLY_WINDOW_TIMEOUT (R9). -/
def execReplyWindowTimeout (l : Line) (s : State) : Host.Outcome State Fault Refusal :=
  .next (replyTimesOut l s)

/-- GARBLED_RECEPTION (R4). -/
def execGarbledReception (l : Line) (s : State) : Host.Outcome State Fault Refusal :=
  .next (receptionGarbles l s)

/-- NOTICE_FRAME_END (R13). -/
def execNoticeFrameEnd (l : Line) (frame : List Byte) (s : State) :
    Host.Outcome State Fault Refusal := .next (noticeEnds l frame s)

/-- LISTEN_WINDOW_EMPTY (R13). -/
def execListenWindowEmpty (l : Line) (s : State) : Host.Outcome State Fault Refusal :=
  .next (windowEmpties l s)

/-- FRAME_START (R22). -/
def execFrameStart (l : Line) (s : State) : Host.Outcome State Fault Refusal := .next (frameStarts l s)

/-- RX_LOW (R5). -/
def execRxLow (l : Line) (s : State) : Host.Outcome State Fault Refusal := .next (rxGoesLow l s)

end Sys2Proof.Machine
end

