-- ==== Sys2Proof/Machine/Deadlines.lean ====
section
/-! DEFINITION. The deadlines of slots (R71, R79, R81, R116), reflex entries (R161) and rings (R190),
and the ends of the ring unit's writes (R153, R182, R185, R188). A deadline's event takes place once
the millisecond count has reached it (assumption log 5). -/

namespace Sys2Proof.Machine

/-- A slot's deadline event: it takes place when the slot's deadline has been reached. -/
def slotDue (s : State) (deadline : Slot → Option Word) (i : SlotId) : Option Slot :=
  match s.slot i with
  | none => none
  | some sl => if s.live ∧ s.due (deadline sl) then some sl else none

/-- A slot's defer deadline expires (R71). -/
def deferExpires (i : SlotId) (s : State) : State :=
  match slotDue s (fun x => x.deferAt) i with
  | none => s
  | some sl => afterLine sl.line (s.setSlot i (some { sl with deferAt := none }))

/-- An unstarted slot's expiry deadline passes (R79). -/
def expireExpires (i : SlotId) (s : State) : State :=
  match slotDue s (fun x => x.expireAt) i with
  | none => s
  | some sl =>
    if sl.started then s else afterLine sl.line (endSlot i .expired false s)

/-- A PAUSED slot's poll deadline expires (R81): the slot is judged. -/
def pollExpires (i : SlotId) (s : State) : State :=
  match slotDue s (fun x => x.pollAt) i with
  | none => s
  | some sl =>
    if sl.state = .paused then
      afterLine sl.line (s.setSlot i (some { sl with state := .ready, pollAt := none }))
    else s

/-- A PARAM_WRITE's budget deadline expires (R116 to R118). -/
def budgetEnds (i : SlotId) (s : State) : State :=
  match slotDue s (fun x => x.budgetAt) i with
  | none => s
  | some sl =>
    match sl.work with
    | .param w => afterLine sl.line (budgetExpires i sl w s)
    | .call _ | .sweep _ | .discover _ | .unknown => s

/-- A reflex entry's quiet-until deadline expires (R161). -/
def quietExpires (k : ReflexId) (s : State) : State :=
  if s.live ∧ s.due (s.reflex k).quietUntil then
    s.setReflex k { s.reflex k with quietUntil := none }
  else s

/-! ## Commands -/

/-- DEFER_EXPIRY (R71). -/
def execDeferExpiry (i : SlotId) (s : State) : Host.Outcome State Fault Refusal :=
  .next (deferExpires i s)

/-- EXPIRE_DEADLINE_EXPIRY (R79). -/
def execExpireDeadlineExpiry (i : SlotId) (s : State) : Host.Outcome State Fault Refusal :=
  .next (expireExpires i s)

/-- POLL_DEADLINE_EXPIRY (R81). -/
def execPollDeadlineExpiry (i : SlotId) (s : State) : Host.Outcome State Fault Refusal :=
  .next (pollExpires i s)

/-- BUDGET_EXPIRY (R116 to R118). -/
def execBudgetExpiry (i : SlotId) (s : State) : Host.Outcome State Fault Refusal :=
  .next (budgetEnds i s)

/-- QUIET_UNTIL_EXPIRY (R161). -/
def execQuietUntilExpiry (k : ReflexId) (s : State) : Host.Outcome State Fault Refusal :=
  .next (quietExpires k s)

/-- HOLDOFF_TIMER_EXPIRY (R190). -/
def execHoldoffTimerExpiry (r : RingName) (s : State) : Host.Outcome State Fault Refusal :=
  .next (holdoffExpiry r s)

/-- RESULT_RECORD_WRITTEN (R182). -/
def execResultRecordWritten (q : ResultRingId) (s : State) : Host.Outcome State Fault Refusal :=
  .next (resultWritten q s)

/-- PROGRESS_WORD_WRITTEN (R182, R188). -/
def execProgressWordWritten (r : RingName) (s : State) : Host.Outcome State Fault Refusal :=
  .next (progressWritten r s)

/-- WRITE_FAULT (R185). -/
def execWriteFault (q : ResultRingId) (s : State) : Host.Outcome State Fault Refusal :=
  .next (resultFault q s)

/-- NOTICE_RECORD_WRITTEN (R153). -/
def execNoticeRecordWritten (s : State) : Host.Outcome State Fault Refusal := .next (noticeWritten s)

/-- NOTICE_WRITE_FAULT (R188). -/
def execNoticeWriteFault (s : State) : Host.Outcome State Fault Refusal := .next (noticeFault s)

end Sys2Proof.Machine
end

