-- ==== Sys2Proof/Machine/Dispatch.lean ====
section
/-! DEFINITION. The meaning of every command: one arm for each row of the table. -/

namespace Sys2Proof.Machine

def exec (i : Instr) (s : State) : Host.Outcome State Fault Refusal :=
  match i with
  | .powerOnReset => Sys2Proof.Machine.execPowerOnReset s
  | .hostReset start stop enable => Sys2Proof.Machine.execHostReset start stop enable s
  | .start enable => Sys2Proof.Machine.execStart enable s
  | .stop enable => Sys2Proof.Machine.execStop enable s
  | .interruptEnable both enable => Sys2Proof.Machine.execInterruptEnable both enable s
  | .registerWrite offset value => Sys2Proof.Machine.execRegisterWrite offset value s
  | .post value => Sys2Proof.Machine.execPost value s
  | .take value => Sys2Proof.Machine.execTake value s
  | .signal value => Sys2Proof.Machine.execSignal value s
  | .bootBlockRead block => Sys2Proof.Machine.execBootBlockRead block s
  | .bootFault => Sys2Proof.Machine.execBootFault s
  | .call r => Sys2Proof.Machine.execCall r s
  | .sweep r => Sys2Proof.Machine.execSweep r s
  | .paramWrite r => Sys2Proof.Machine.execParamWrite r s
  | .discover r => Sys2Proof.Machine.execDiscover r s
  | .unknownWorkKind r => Sys2Proof.Machine.execUnknownWorkKind r s
  | .fetchFault f => Sys2Proof.Machine.execFetchFault f s
  | .openWorkRing r => Sys2Proof.Machine.execOpenWorkRing r s
  | .closeWorkRing r => Sys2Proof.Machine.execCloseWorkRing r s
  | .openResultRing r => Sys2Proof.Machine.execOpenResultRing r s
  | .closeResultRing r => Sys2Proof.Machine.execCloseResultRing r s
  | .openNoticeRing r => Sys2Proof.Machine.execOpenNoticeRing r s
  | .closeNoticeRing r => Sys2Proof.Machine.execCloseNoticeRing r s
  | .lineSet r => Sys2Proof.Machine.execLineSet r s
  | .lineEnable r => Sys2Proof.Machine.execLineEnable r s
  | .lineDisable r => Sys2Proof.Machine.execLineDisable r s
  | .lineReset r => Sys2Proof.Machine.execLineReset r s
  | .reflexPut r => Sys2Proof.Machine.execReflexPut r s
  | .reflexDrop r => Sys2Proof.Machine.execReflexDrop r s
  | .reflexRead r => Sys2Proof.Machine.execReflexRead r s
  | .nodeRead r => Sys2Proof.Machine.execNodeRead r s
  | .nodeClear r => Sys2Proof.Machine.execNodeClear r s
  | .abort r => Sys2Proof.Machine.execAbort r s
  | .unknownAdminRequest r => Sys2Proof.Machine.execUnknownAdminRequest r s
  | .lowTimerExpiry l => Sys2Proof.Machine.execLowTimerExpiry l s
  | .senseRise l => Sys2Proof.Machine.execSenseRise l s
  | .senseFall l => Sys2Proof.Machine.execSenseFall l s
  | .debounceExpiry l => Sys2Proof.Machine.execDebounceExpiry l s
  | .settleExpiry l => Sys2Proof.Machine.execSettleExpiry l s
  | .listenIntervalExpiry l => Sys2Proof.Machine.execListenIntervalExpiry l s
  | .gapComplete l => Sys2Proof.Machine.execGapComplete l s
  | .backoffExpiry l => Sys2Proof.Machine.execBackoffExpiry l s
  | .frameSent l => Sys2Proof.Machine.execFrameSent l s
  | .collisionDetected l => Sys2Proof.Machine.execCollisionDetected l s
  | .replyFrameEnd l frame => Sys2Proof.Machine.execReplyFrameEnd l frame s
  | .replyWindowTimeout l => Sys2Proof.Machine.execReplyWindowTimeout l s
  | .garbledReception l => Sys2Proof.Machine.execGarbledReception l s
  | .noticeFrameEnd l frame => Sys2Proof.Machine.execNoticeFrameEnd l frame s
  | .listenWindowEmpty l => Sys2Proof.Machine.execListenWindowEmpty l s
  | .deferExpiry slot => Sys2Proof.Machine.execDeferExpiry slot s
  | .expireDeadlineExpiry slot => Sys2Proof.Machine.execExpireDeadlineExpiry slot s
  | .pollDeadlineExpiry slot => Sys2Proof.Machine.execPollDeadlineExpiry slot s
  | .budgetExpiry slot => Sys2Proof.Machine.execBudgetExpiry slot s
  | .quietUntilExpiry k => Sys2Proof.Machine.execQuietUntilExpiry k s
  | .holdoffTimerExpiry r => Sys2Proof.Machine.execHoldoffTimerExpiry r s
  | .resultRecordWritten q => Sys2Proof.Machine.execResultRecordWritten q s
  | .progressWordWritten r => Sys2Proof.Machine.execProgressWordWritten r s
  | .writeFault q => Sys2Proof.Machine.execWriteFault q s
  | .noticeRecordWritten => Sys2Proof.Machine.execNoticeRecordWritten s
  | .noticeWriteFault => Sys2Proof.Machine.execNoticeWriteFault s
  | .nodeReadImageWritten => Sys2Proof.Machine.execNodeReadImageWritten s
  | .nodeReadWriteFault => Sys2Proof.Machine.execNodeReadWriteFault s
  | .reflexReadImageWritten => Sys2Proof.Machine.execReflexReadImageWritten s
  | .reflexReadWriteFault => Sys2Proof.Machine.execReflexReadWriteFault s
  | .frameStart l => Sys2Proof.Machine.execFrameStart l s
  | .rxLow l => Sys2Proof.Machine.execRxLow l s

end Sys2Proof.Machine
end

