-- ==== Sys2Proof/Machine/Tick.lean ====
section
/-! DEFINITION. A millisecond of the time base (R198) and what it does to the low timers (R24). -/

namespace Sys2Proof.Machine

/-- The low timer of a line after one more millisecond (R24, assumption log 7): it runs while SENSE
is low and TX is released, on a line that is not OFF, and is held at 50 once it has reached 50.
`released` says whether TX was released in a millisecond of CALLING. -/
def LineEngine.lowCounted (released : Bool) (e : LineEngine) : LineEngine :=
  let runs := match e.state with
    | .off => false
    | .calling => released
    | .restoring | .idle | .awaiting | .receiving | .listening | .down => true
  if runs && !e.sense then { e with lowTimer := min 50 (e.lowTimer + 1) } else e

/-- A millisecond passes (R198, assumption log 4): the count rises modulo 2^32 while it runs, and so
do the low timers, for which a free value is drawn (assumption log 7). In RESET and HALTED nothing
runs. -/
def tick (s : State) : State :=
  if s.counting then
    { s with
      ms := s.ms + 1
      draws := s.draws + 1
      lines := ⟨(s.engine .a).lowCounted (Config.released s.draws .a),
        (s.engine .b).lowCounted (Config.released s.draws .b)⟩ }
  else s

end Sys2Proof.Machine
end

