-- ==== Sys2Proof/Safety.lean ====
section
/-! DEFINITION. The terms claims are stated in: the laws of the spec over one state, and the frames
that say what the judgement and the grants of a line (`Settled`) and the ring unit's own actions
(`Serviced`) may change after an event. -/

namespace Sys2Proof.Safety

open Sys2Proof.Machine

/-! ## Laws of one state -/

/-- The notice buffer holds at most 16 records, the lost count is at most 255 (R151), and each
reflex queue holds at most 4 calls (R163). -/
structure BufferLaw (s : State) : Prop where
  buffer : s.buffer.length ≤ 16
  lost : s.lost ≤ 255
  queue : ∀ l : Line, (s.queue l).length ≤ 4

/-- Posted − fetched of every work ring is at most its size (R177), a fetch in flight is of a ring
that is not CLOSED and still has a record posted (R65, R179, R180), and none is in flight before
RUNNING (R193). -/
structure WorkCountLaw (s : State) : Prop where
  ahead : ∀ r : WorkRingId, (s.workRing r).ahead ≤ (s.workRing r).size
  fetch : ∀ f, s.workFetch = some f →
    f.ring ≠ 0 ∧ (s.workRing f.ring).state ≠ .closed ∧ 0 < (s.workRing f.ring).ahead
  admin : s.adminFetch.isSome → 0 < (s.workRing 0).ahead
  idle : s.device = .reset ∨ s.device = .starting → s.workFetch = none ∧ s.adminFetch = none

/-- The counts of one written ring (R183): written − consumed is at most the size, and below it
while a record is on its way to the entry it is to be written to. -/
def outCountLaw (o : OutputRing) : Prop :=
  o.size ≤ 1024 ∧ o.unconsumed ≤ o.size ∧
    ∀ w : HostWrite, o.access = .record w false → o.unconsumed < o.size

/-- The count law of every result ring and of the notice ring (R183). -/
def OutCountLaw (s : State) : Prop := ∀ n : RingName, outCountLaw (s.outRing n)

/-- No work ring 1 to 7 holds more slots than its credit, and a CLOSED one holds none (R65, R180). -/
def CreditLaw (s : State) : Prop :=
  ∀ r : WorkRingId, r ≠ 0 →
    ((s.workRing r).state = .closed → s.ringSlots r = 0) ∧
    ((s.workRing r).state ≠ .closed → s.ringSlots r ≤ (s.workRing r).credit)

/-- On a line, an identity stands in at most one entry (R50). -/
def IdentityLaw (s : State) : Prop :=
  ∀ (l : Line) (a b : Addr) (u : UnitNo),
    (s.entry l a).identity = some u → (s.entry l b).identity = some u → a = b

/-! ## What the work of a line may change -/

/-- A slot keeps what its fill gave it: ring, tag, record code, line, class, fetch sequence, fetch
time, FORCE flag and retry override (R64); and its tries used and abort-pending flag. Once started
it stays started (R80). -/
structure SlotKept (x y : Slot) : Prop where
  ring : y.ring = x.ring
  tag : y.tag = x.tag
  code : y.code = x.code
  line : y.line = x.line
  cls : y.cls = x.cls
  seq : y.seq = x.seq
  fetchTime : y.fetchTime = x.fetchTime
  force : y.force = x.force
  retry : y.retry = x.retry
  tries : y.tries = x.tries
  abortPending : y.abortPending = x.abortPending
  started : x.started = true → y.started = true

/-- A line engine keeps its pin level, its monitor's timers, its settle timer and its settings, and
stays usable or not. -/
structure EngineKept (x y : LineEngine) : Prop where
  usable : y.state.usable = x.state.usable
  sense : y.sense = x.sense
  lowTimer : y.lowTimer = x.lowTimer
  debounce : y.debounce = x.debounce
  origin : y.origin = x.origin
  settle : y.settle = x.settle
  config : y.config = x.config

/-- A node entry keeps everything but its commit lock, its store state and its zones, which a commit
may change (R57, R58). -/
structure EntryKept (x y : NodeEntry) : Prop where
  state : y.state = x.state
  identity : y.identity = x.identity
  kind : y.kind = x.kind
  misses : y.misses = x.misses
  garbles : y.garbles = x.garbles
  lastSeq : y.lastSeq = x.lastSeq
  lastHeard : y.lastHeard = x.lastHeard

/-- What the ends of a line's slots and a grant of the line may change: the line's engine, its slots
and its entries within the bounds above, and results that join pending lists or are counted lost.
Everything else is unchanged. -/
structure LineKept (l : Line) (s t : State) : Prop where
  device : t.device = s.device
  halt : t.halt = s.halt
  intEnable : t.intEnable = s.intEnable
  boot : t.boot = s.boot
  bootRead : t.bootRead = s.bootRead
  ms : t.ms = s.ms
  work : t.work = s.work
  notice : t.notice = s.notice
  deviceEvent : t.deviceEvent = s.deviceEvent
  workFetch : t.workFetch = s.workFetch
  adminFetch : t.adminFetch = s.adminFetch
  admin : t.admin = s.admin
  imageWrite : t.imageWrite = s.imageWrite
  fetchSeq : t.fetchSeq = s.fetchSeq
  served : t.served = s.served
  reflexes : t.reflexes = s.reflexes
  queues : t.queues = s.queues
  buffer : t.buffer = s.buffer
  lost : t.lost = s.lost
  resetPinLow : t.resetPinLow = s.resetPinLow
  pending : t.pending = s.pending
  otherEngine : ∀ m, m ≠ l → t.engine m = s.engine m
  engine : EngineKept (s.engine l) (t.engine l)
  otherTable : ∀ m, m ≠ l → t.table m = s.table m
  entry : ∀ a, EntryKept (s.entry l a) (t.entry l a)
  out : ∀ q, (t.resultRing q).out = (s.resultRing q).out
  results : ∀ q, ∃ more, (t.resultRing q).pending = (s.resultRing q).pending ++ more
  lostCount : ∀ q, (s.resultRing q).lost ≤ (t.resultRing q).lost ∨ 65535 ≤ (t.resultRing q).lost
  free : ∀ i, s.slot i = none → t.slot i = none
  otherSlot : ∀ i x, s.slot i = some x → x.line ≠ l → t.slot i = some x
  slot : ∀ i y, t.slot i = some y → ∃ x, s.slot i = some x ∧ SlotKept x y

/-- What the judgement of a line's slots and a grant of the line do: exactly what `settleLine` does.
That is judgement, the arbiter's decision and its grant, and judgement again (R34, R70). It changes
no more than `LineKept` allows, no slot but the WAITING and READY ones (R70, R80), and no engine but
one that may be granted (R34). -/
structure Settled (l : Line) (s t : State) : Prop where
  exact : t = settleLine l s
  kept : LineKept l s t
  still : ∀ i x, s.slot i = some x → x.judged = false → t.slot i = some x
  held : lineFree s l = false → t.engine l = s.engine l

/-! ## What the ring unit does of itself -/

/-- A work ring keeps its fields but its state, which moves between ACTIVE and HELD, and from
DRAINING to CLOSED. -/
structure WorkKept (x y : WorkRing) : Prop where
  fields : { y with state := x.state } = x
  closed : x.state = .closed → y.state = .closed
  faulted : x.state = .faulted → y.state = .faulted
  draining : x.state = .draining → y.state = .draining ∨ y.state = .closed
  open_ : x.state = .active ∨ x.state = .held → y.state = .active ∨ y.state = .held

/-- What the ring unit, the allocation arbiter and the admin unit do of themselves after an event,
field by field. Nothing in HALTED (R201). Otherwise a DRAINING work ring without slots is CLOSED
(R180), and every ACTIVE or HELD one is judged by its hold conditions (R176). A CLOSE that has waited
for its ring ends with its answer, and only that ring is CLOSED (R180, R186, R188, R203). The head of
a pending list or of the notice buffer begins to be written to a ring that may take it (R182, R183,
R188). The allocation arbiter reserves the lowest FREE slot for the ring it chooses (R65, R66), the
admin unit asks for its next record (R203), and the device enters STOPPED with its last slot (R199).
Everything else is unchanged. -/
structure Serviced (s t : State) : Prop where
  halted : s.device = .halted → t = s
  device : t.device = if s.device = .stopping ∧ s.allFree = true then .stopped else s.device
  halt : t.halt = s.halt
  intEnable : t.intEnable = s.intEnable
  boot : t.boot = s.boot
  bootRead : t.bootRead = s.bootRead
  ms : t.ms = s.ms
  deviceEvent : t.deviceEvent = s.deviceEvent
  imageWrite : t.imageWrite = s.imageWrite
  slots : t.slots = s.slots
  fetchSeq : t.fetchSeq = s.fetchSeq
  lines : t.lines = s.lines
  nodes : t.nodes = s.nodes
  reflexes : t.reflexes = s.reflexes
  queues : t.queues = s.queues
  buffer : t.buffer = s.buffer
  lost : t.lost = s.lost
  draws : t.draws = s.draws
  resetPinLow : t.resetPinLow = s.resetPinLow
  pending : t.pending = s.pending
  work0 : t.workRing 0 = s.workRing 0
  work : s.device ≠ .halted → ∀ r, r ≠ 0 → t.workRing r =
    { s.workRing r with
      state := match (s.workRing r).state with
        | .draining => if s.ringSlots r = 0 then .closed else .draining
        | .active | .held =>
          if (s.engine (s.workRing r).line).state.usable = true ∧
              (t.resultRing (s.workRing r).bound).out.state = .active then .active else .held
        | .closed => .closed
        | .faulted => .faulted }
  admin : s.device ≠ .halted → closeDetail s = none →
    t.admin = s.admin ∧ (t.resultRing 0).pending = (s.resultRing 0).pending ∧
      (t.resultRing 0).lost = (s.resultRing 0).lost
  answer : s.device ≠ .halted → ∀ a d, s.admin = some a → closeDetail s = some d →
    if (s.resultRing 0).out.state = .active then
      t.admin = some { a with phase := .answered } ∧
        (t.resultRing 0).pending = (s.resultRing 0).pending ++
          [{ sender := .admin, code := a.code, status := .ok, ring := 0, tag := a.tag,
             detail := d }] ∧
        (t.resultRing 0).lost = (s.resultRing 0).lost
    else
      t.admin = none ∧ (t.resultRing 0).pending = (s.resultRing 0).pending ∧
        (t.resultRing 0).lost = min 65535 ((s.resultRing 0).lost + 1)
  otherResults : ∀ q, q ≠ 0 → (t.resultRing q).pending = (s.resultRing q).pending ∧
    (t.resultRing q).lost = (s.resultRing q).lost
  out : s.device ≠ .halted → ∀ q, (t.resultRing q).out =
    (if s.resultCloses q = true then (s.resultRing q).out.closed
      else (s.resultRing q).out).begun ((t.resultRing q).pending.head?.map resultBytes)
  notice : s.device ≠ .halted → t.notice =
    (if s.noticeCloses = true then s.notice.closed else s.notice).begun
      (s.buffer.head?.map noticeBytes)
  fetch : s.device ≠ .halted →
    (t.workFetch, t.served) =
      if s.device = .running ∧ s.workFetch = none then
        match s.freeSlots.head?, chooseRing { s with work := t.work } with
        | some i, some (r, served) =>
          (some { ring := r, slot := i, stopped := false,
                  addr := entryAddr (s.workRing r).base (s.workRing r).size (s.workRing r).fetched },
            served)
        | _, _ => (none, s.served)
      else (s.workFetch, s.served)
  adminFetch : s.device ≠ .halted →
    t.adminFetch =
      if s.device = .running ∧ s.adminFetch = none ∧ t.admin = none ∧
          (s.workRing 0).state = .active ∧ 0 < (s.workRing 0).ahead then
        some (entryAddr (s.workRing 0).base (s.workRing 0).size (s.workRing 0).fetched)
      else s.adminFetch

/-! ## What an event of a line may change before that -/

/-- A slot keeps its ring, tag, record code, line, class, fetch sequence, fetch time, FORCE flag and
retry override (R64). -/
structure SlotSame (x y : Slot) : Prop where
  ring : y.ring = x.ring
  tag : y.tag = x.tag
  code : y.code = x.code
  line : y.line = x.line
  cls : y.cls = x.cls
  seq : y.seq = x.seq
  fetchTime : y.fetchTime = x.fetchTime
  force : y.force = x.force
  retry : y.retry = x.retry

/-- What the ends of tries, windows and grants, an entry to DOWN, a cut and an abort may change: the
line engines, the node tables, the reflex queues, the notice buffer, the draws, the current request,
the slots in use and the results on their way, with the work rings judged for it. Everything else is
unchanged. -/
structure Worked (s t : State) : Prop where
  device : t.device = s.device
  halt : t.halt = s.halt
  intEnable : t.intEnable = s.intEnable
  boot : t.boot = s.boot
  bootRead : t.bootRead = s.bootRead
  ms : t.ms = s.ms
  notice : t.notice = s.notice
  deviceEvent : t.deviceEvent = s.deviceEvent
  workFetch : t.workFetch = s.workFetch
  adminFetch : t.adminFetch = s.adminFetch
  imageWrite : t.imageWrite = s.imageWrite
  fetchSeq : t.fetchSeq = s.fetchSeq
  served : t.served = s.served
  reflexes : t.reflexes = s.reflexes
  resetPinLow : t.resetPinLow = s.resetPinLow
  pending : t.pending = s.pending
  work : ∀ r, WorkKept (s.workRing r) (t.workRing r)
  out : ∀ q, (t.resultRing q).out = (s.resultRing q).out
  results : ∀ q, ∃ more, (t.resultRing q).pending = (s.resultRing q).pending ++ more
  free : ∀ i, s.slot i = none → t.slot i = none
  slot : ∀ i y, t.slot i = some y → ∃ x, s.slot i = some x ∧ SlotSame x y

/-- The current request waits for no grant of the line to end (R33, R40). -/
def noWaiting (s : State) (l : Line) : Bool :=
  match s.admin with
  | none => true
  | some a => match a.phase with
    | .settingLine m _ | .cutting m _ _ => m != l
    | _ => true

/-- The current request waits for no cut of the line (R33). -/
def noCut (s : State) (l : Line) : Bool :=
  match s.admin with
  | none => true
  | some a => match a.phase with
    | .cutting m _ _ => m != l
    | _ => true

/-- A line engine whose grant has ended (R34). -/
def grantOver (e : LineEngine) : LineEngine :=
  { e with
    holder := .none, step := none, next := .none, frame := [], frameStarted := false,
    headEnd := .normal }

/-- What follows an event of a line, and nothing else: its slots are judged and its arbiter decides
(`Settled.exact` gives the state after it), and then the ring unit acts (`Serviced` gives each field
of the state after it). That an event's consequences follow it at once, in this order, is the model's
reading (assumption log 18). -/
def After (l : Line) (s t : State) : Prop := ∃ m, Settled l s m ∧ Serviced m t

/-- What follows an event of both lines, and nothing else. That line A is settled first is the model's
choice (assumption log 18). -/
def AfterBoth (s t : State) : Prop :=
  ∃ m n, Settled .a s m ∧ Settled .b m n ∧ Serviced n t

/-! ## The admin unit and the device -/

/-- A record of the admin unit's fetch may arrive and be answered: the fetch is in flight, the part
is not HALTED, and result ring 0 is ACTIVE. -/
structure AdminReady (s : State) : Prop where
  fetch : s.adminFetch.isSome = true
  live : s.device ≠ .halted
  ring : (s.resultRing 0).out.state = .active

/-- The state once the admin unit's record has arrived: it is counted, and is the current request
(R179, R203). -/
def requestTaken (r : Record) (s : State) : State :=
  { s.setWorkRing 0 { s.workRing 0 with fetched := (s.workRing 0).fetched + 1 } with
    adminFetch := none
    admin := some { code := r[0], tag := recordTag r, phase := .answered } }

/-- The state once the result of the current request has been decided while result ring 0 is ACTIVE
(R182, R203): the result joins that ring's pending list, and the request waits for its write. -/
def answered (code : Byte) (tag : Word) (st : Status) (detail : List Byte) (s : State) : State :=
  { s.setResultRing 0 { s.resultRing 0 with
      pending := (s.resultRing 0).pending ++
        [{ sender := .admin, code := code, status := st, ring := 0, tag := tag,
           detail := detail }] } with
    admin := some { code := code, tag := tag, phase := .answered } }

/-- Between two states the result of a request has joined the pending list of result ring 0
(R203). -/
def Answered (code : Byte) (tag : Word) (st : Status) (detail : List Byte) (s t : State) : Prop :=
  ∃ more, (t.resultRing 0).pending = (s.resultRing 0).pending ++ more ∧
    { sender := .admin, code := code, status := st, ring := 0, tag := tag, detail := detail } ∈ more

/-- The device has entered HALTED for a reason (R201): the reason and the device event show, the
timers of the rings are stopped (R193), a boot read is over, and everything else is unchanged. -/
structure HaltedBy (reason : HaltReason) (s t : State) : Prop where
  device : t.device = .halted
  halt : t.halt = reason
  deviceEvent : t.deviceEvent = true
  bootRead : t.bootRead = none
  timers : ∀ n, t.outRing n = { s.outRing n with timer := none }
  results : ∀ q, (t.resultRing q).pending = (s.resultRing q).pending
  lost : ∀ q, (t.resultRing q).lost = (s.resultRing q).lost
  rest : { t with
    device := s.device, halt := s.halt, deviceEvent := s.deviceEvent, bootRead := s.bootRead,
    results := s.results, notice := s.notice } = s

/-! ## Judgement, grants and the ends of steps -/

/-- The place of a waiting reason in the order of R70. -/
def place : WaitReason → Nat
  | .defer => 1
  | .line => 2
  | .settle => 3
  | .order => 4
  | .lock => 5
  | .barrier => 6
  | .discovery => 7

/-- A waiting reason applies to a slot (R70 to R77). -/
def Applies (s : State) (i : SlotId) (x : Slot) : WaitReason → Prop
  | .defer => x.started = false ∧ x.deferAt ≠ none
  | .line => (s.engine x.line).state ∈ [LineState.off, .restoring, .down]
  | .settle => (∃ w, x.work = .param w) ∧ (s.engine x.line).settle ≠ none
  | .order => x.started = false ∧ ∃ j y a, j ≠ i ∧ s.slot j = some y ∧ y.state ≠ .finishing ∧
      y.ring = x.ring ∧ olderSeq y.seq x.seq = true ∧ inSlotTarget s y a = true ∧
      inSlotTarget s x a = true
  | .lock => ∃ a j, (s.entry x.line a).lock = some j ∧ j ≠ i ∧
      match x.work with
      | .call _ | .param _ => inSlotTarget s x a = true
      | .sweep w => w.step = some a
      | .discover w => (w.phase = .check ∨ w.phase = .assign) ∧ w.candidate = some a
      | .unknown => False
  | .barrier => x.started = false ∧ ∃ w j y v, x.work = .param w ∧ j ≠ i ∧ s.slot j = some y ∧
      y.state ≠ .finishing ∧ y.line = x.line ∧ olderSeq y.seq x.seq = true ∧ y.work = .call v ∧
      (v.target = .all ∨ ∃ z, v.target = .zone z) ∧ inTarget s x.line v.target w.addr = true
  | .discovery => x.started = false ∧ (∃ w, x.work = .discover w) ∧ ∃ j y v, j ≠ i ∧
      s.slot j = some y ∧ y.state ≠ .finishing ∧ y.started = true ∧ y.line = x.line ∧
      y.work = .discover v

/-- The line granted to a user whose step's first try begins at once, the gap having passed (R22, R29,
R34). -/
def granted (l : Line) (h : Holder) (c : Call) (limit : Nat) (s : State) : State :=
  s.setEngine l { s.engine l with
    holder := h, state := .calling, frame := callFrame c, frameStarted := false, quiet := false,
    next := .none
    step := some { call := c, retryLimit := limit, tries := 1, allGarbled := true } }

/-- The result of a slot (R82, R212). -/
def resultOf (i : SlotId) (x : Slot) (st : Status) (detail : List Byte) : ResultRecord :=
  { sender := .slot i, code := x.code, status := st, ring := x.ring, tag := x.tag,
    detail := detail }

/-- A slot whose result has been decided (R82): its deadlines are stopped. -/
def finished (i : SlotId) (x : Slot) (st : Status) (detail : List Byte) : Slot :=
  { x with
    state := .finishing, deferAt := none, expireAt := none, budgetAt := none, pollAt := none
    result := some (resultOf i x st detail) }

/-- The result ring bound to a slot's work ring is ACTIVE and takes its result (R182, R185). -/
abbrev RingTakes (x : Slot) (s : State) : Prop :=
  (s.resultRing (s.workRing x.ring).bound).out.state = .active

/-- A slot's result has been decided (R82, R182, R185): on an ACTIVE result ring the slot is FINISHING
and the result has joined the ring's pending list, on any other one it is counted lost and the slot is
FREE. -/
def ended (i : SlotId) (x : Slot) (st : Status) (detail : List Byte) (s : State) : State :=
  if RingTakes x s then
    (s.setSlot i (some (finished i x st detail))).setResultRing (s.workRing x.ring).bound
      { s.resultRing (s.workRing x.ring).bound with
        pending := (s.resultRing (s.workRing x.ring).bound).pending
          ++ [resultOf i x st detail] }
  else
    (s.setSlot i none).setResultRing (s.workRing x.ring).bound
      { s.resultRing (s.workRing x.ring).bound with
        lost := min 65535 ((s.resultRing (s.workRing x.ring).bound).lost + 1) }

/-- Between two states a slot's result has been decided, and no other one for its result ring (R82,
R182, R185). -/
structure Decided (i : SlotId) (x : Slot) (st : Status) (detail : List Byte) (s m : State) :
    Prop where
  taken : RingTakes x s → m.slot i = some (finished i x st detail) ∧
    (m.resultRing (s.workRing x.ring).bound).pending =
      (s.resultRing (s.workRing x.ring).bound).pending ++ [resultOf i x st detail] ∧
    (m.resultRing (s.workRing x.ring).bound).lost = (s.resultRing (s.workRing x.ring).bound).lost
  lost : ¬RingTakes x s → m.slot i = none ∧
    (m.resultRing (s.workRing x.ring).bound).pending =
      (s.resultRing (s.workRing x.ring).bound).pending ∧
    (m.resultRing (s.workRing x.ring).bound).lost =
      min 65535 ((s.resultRing (s.workRing x.ring).bound).lost + 1)

/-- A command ends the current try of a step with an outcome (R6, R9, R10): the frame of a call
without reply has been sent, a collision is found, the reply window passes without a start or with a
garbled reception, or a well-formed frame ends in it. -/
def TryEnds (l : Line) (s : State) (st : Step) (c : Instr) (o : TryOutcome) : Prop :=
  (c = .frameSent l ∧ (s.engine l).state = .calling ∧ st.call.reply = false ∧ o = .sent) ∨
  (c = .collisionDetected l ∧ (s.engine l).state = .calling ∧ o = .collided) ∨
  (c = .replyWindowTimeout l ∧ (s.engine l).state = .awaiting ∧ o = .noReply) ∨
  (c = .garbledReception l ∧ (s.engine l).state = .receiving ∧ o = .garbled) ∨
  ∃ frame, c = .replyFrameEnd l frame ∧ (s.engine l).state = .receiving ∧
    o = match judgeReply st.call frame with
      | some r => .replied r
      | none => .garbled

/-- A command ends the step of a slot that holds the line (R30): its try was SENT or REPLIED, or the
last one. No request waits for the grant's end. -/
structure StepEnds (l : Line) (s : State) (st : Step) (i : SlotId) (x : Slot) (c : Instr)
    (o : TryOutcome) : Prop where
  live : s.device ≠ .halted
  step : (s.engine l).step = some st
  holder : (s.engine l).holder = .slot i
  slot : s.slot i = some x
  line : x.line = l
  waits : noWaiting s l = true
  ends : TryEnds l s st c o
  last : o = .noReply ∨ o = .garbled ∨ o = .collided → st.retryLimit < st.tries

/-- What the end of a slot's step does but for the slot, the node table and their notices (R22, R32,
R34): the grant ends, and a valid reply with notice-pending sets listen-due. -/
structure StepOver (l : Line) (s : State) (i : SlotId) (c : Instr) (o : TryOutcome)
    (m t : State) : Prop where
  run : exec c s = .next t
  worked : Worked s m
  after : After l m t
  engine : m.engine l = grantOver { s.engine l with
    state := .idle
    quiet := (s.engine l).quiet && (match o with | .noReply => true | _ => false)
    listenDue := (s.engine l).listenDue ||
      (match o with | .replied r => r.noticePending | _ => false) }
  otherEngine : ∀ k, k ≠ l → m.engine k = s.engine k
  otherSlot : ∀ j, j ≠ i → m.slot j = s.slot j
  queues : m.queues = s.queues
  admin : m.admin = s.admin
  draws : m.draws = s.draws

/-- Between two states a slot's result has been decided, among other results (R82, R182, R185). -/
structure EndsAmong (i : SlotId) (x : Slot) (st : Status) (detail : List Byte) (s m : State) :
    Prop where
  taken : RingTakes x s → m.slot i = some (finished i x st detail) ∧
    ∃ more, (m.resultRing (s.workRing x.ring).bound).pending =
      (s.resultRing (s.workRing x.ring).bound).pending ++ more ∧ resultOf i x st detail ∈ more
  lost : ¬RingTakes x s → m.slot i = none ∧
    min 65535 ((s.resultRing (s.workRing x.ring).bound).lost + 1)
      ≤ (m.resultRing (s.workRing x.ring).bound).lost

/-! ## The ends of a commit's steps -/

/-- The outcome of a commit that ends without a verdict of its last step (R120, R121): a mismatch seen
before counts only where it is kept (assumption log 11). -/
def outcomeOf (kept : Bool) (w : ParamWork) : CommitOutcome :=
  if w.verified = true then .verified
  else if kept = true ∧ w.mismatch = true then .mismatch
  else if w.unverified = true ∨ w.finalFlag = true then .unknown
  else .none

/-- The entry after the end of the commit of a slot (R57, R58, R120): the lock is released, the store
and the zones follow the commit outcome. -/
def committed (i : SlotId) (w : ParamWork) (e : NodeEntry) : NodeEntry :=
  { e with
    lock := if e.lock = some i then none else e.lock
    store := match w.outcome with
      | .none => e.store
      | .verified => .clean
      | .mismatch | .unknown => .unknown
    zones := if w.outcome = .verified ∧ w.index = 0 ∧ e.state ≠ .vacant then
      some (committedZones w.data) else e.zones }

/-- The commit's result is decided (R58, R82, R120), and its entry follows. -/
def CommitEnds (l : Line) (i : SlotId) (x : Slot) (w : ParamWork) (st : Status) (e : NodeEntry)
    (s m : State) : Prop :=
  Decided i { x with work := .param w } st (paramDetail s.ms w) s m ∧
  m.entry l w.addr = committed i w e

/-- The commit ends ABORTED, its abort having been pending (R85, R122). -/
def CommitAborted (l : Line) (i : SlotId) (x : Slot) (w : ParamWork) (kept : Bool) (e : NodeEntry)
    (s m : State) : Prop :=
  CommitEnds l i x { w with outcome := outcomeOf kept w } .aborted e s m

/-- The step has decided the commit's result, with the reply data it carries; an abort pending takes
its place (R85, R122). -/
def CommitResult (l : Line) (i : SlotId) (x : Slot) (w : ParamWork) (kept : Bool)
    (data : List Byte) (outcome : CommitOutcome) (st : Status) (e : NodeEntry) (s m : State) :
    Prop :=
  if x.abortPending = true then CommitAborted l i x w kept e s m
  else CommitEnds l i x { w with replyData := data, outcome := outcome } st e s m

/-- The commit waits for its next poll, over the entry as the step left it (R81, R113), an abort still
pending. With its budget passed (R116, R118, R122) an aborted commit ends instead, and any other one
makes the final CHECK, or ends COMMIT_TIMEOUT if the step was a poll itself. -/
def CommitPauses (l : Line) (i : SlotId) (x : Slot) (w : ParamWork) (polled : Bool)
    (e : NodeEntry) (s m : State) : Prop :=
  if w.budgetPassed = false then
    m.slot i = some { x with
      state := .paused, work := .param w
      pollAt := some (s.ms + BitVec.ofNat 32 (s.engine l).config.pollInterval) } ∧
    m.entry l w.addr = e
  else if x.abortPending = true then
    CommitEnds l i x { w with finalFlag := true, outcome := .unknown } .aborted e s m
  else if polled = true then
    CommitEnds l i x { w with finalFlag := true, outcome := .unknown } .commitTimeout e s m
  else
    m.slot i = some { x with
      state := .ready, work := .param { w with finalFlag := true, phase := some .final } } ∧
    m.entry l w.addr = e

/-- The commit is to make another step (R81), unless its abort is pending (R85, R122) or its budget
has passed (R117). -/
def CommitGoesOn (l : Line) (i : SlotId) (x : Slot) (w : ParamWork) (kept : Bool) (e : NodeEntry)
    (s m : State) : Prop :=
  if x.abortPending = true then CommitAborted l i x w kept e s m
  else if w.budgetPassed = true then
    CommitEnds l i x { w with outcome := outcomeOf false w } .commitTimeout e s m
  else m.slot i = some { x with state := .ready, work := .param w } ∧ m.entry l w.addr = e

/-- The attempt has failed (R114): an aborted commit ends, the next attempt stages afresh, or the
commit ends VERIFY_FAIL. -/
def AttemptFails (l : Line) (i : SlotId) (x : Slot) (w : ParamWork) (kept : Bool) (e : NodeEntry)
    (s m : State) : Prop :=
  if x.abortPending = true then CommitAborted l i x w kept e s m
  else if w.attempt < w.attempts then
    CommitGoesOn l i x { w with attempt := w.attempt + 1, phase := some .stage1 } kept e s m
  else
    CommitEnds l i x { w with outcome := if w.mismatch = true then .mismatch else .unknown }
      .verifyFail e s m

/-! ## Slots that end from outside a step -/

/-- An abort that reaches an unfinished slot only sets its abort-pending flag (R84, R85, R115): the
slot is ON_LINE, or holds a PARAM_WRITE that is PAUSED or, started, has a node that is thought to be
programming. -/
def AbortWaits (x : Slot) : Prop :=
  x.state = .onLine ∨ ∃ w, x.work = .param w ∧ (x.state = .paused ∨
    ((x.state = .ready ∨ ∃ r, x.state = .waiting r) ∧ x.started = true ∧
      (w.phase = some .poll ∨ w.phase = some .final ∨
        (w.phase = some .prelude ∧ w.preludeBusy = true))))

/-- The work of a slot that an abort or a cut has ended (R120, R140, R141): a commit has its outcome, a
discovery its end reason. -/
def endedWork (st : Status) : Work → Work
  | .param w => .param { w with outcome := outcomeOf true w }
  | .discover w => .discover { w with
      endReason := if st = .aborted then .aborted else if st = .lineReset then .cut
        else w.endReason }
  | w => w

/-- The detail of a slot that an abort or a cut has ended (R97, R102, R126, R143): zero for a CALL,
SWEEP or PARAM_WRITE aborted before its first grant. -/
def endedDetail (s : State) (st : Status) (x : Slot) : List Byte :=
  match x.work with
  | .call w =>
    if st = .aborted ∧ x.started = false then []
    else [byteOf x.tries, byteOf w.busyRounds, lastReplyByte w.lastReply,
      flagBit w.allGarbled 0 ||| flagBit w.noticePending 1, 0] ++ padTo 8 []
  | .sweep w => if st = .aborted ∧ x.started = false then [] else sweepDetail (s.table x.line) w
  | .param w => if st = .aborted ∧ x.started = false then [] else paramDetail s.ms w
  | .discover w => discoverDetail w
  | .unknown => []

/-- Between two states an abort or a cut has ended a slot, among others. -/
def EndedBy (st : Status) (i : SlotId) (x : Slot) (s m : State) : Prop :=
  EndsAmong i { x with work := endedWork st x.work } st
    (endedDetail s st { x with work := endedWork st x.work }) s m

/-- Between two states the commits of a line that `ends` names have ended from outside a step (R57,
R58, R120): the entry that a started one has locked follows its outcome, and an entry that none of them
names is unchanged. -/
structure CommitsEnded (l : Line) (ends : SlotId → Slot → Prop) (s m : State) : Prop where
  entry : ∀ i x w, s.slot i = some x → x.line = l → x.work = .param w → x.started = true →
    ends i x → (s.entry l w.addr).lock = some i →
    (∀ j y v, j ≠ i → s.slot j = some y → y.line = l → y.work = .param v → y.started = true →
      v.addr ≠ w.addr) →
    m.entry l w.addr = committed i { w with outcome := outcomeOf true w } (s.entry l w.addr)
  others : ∀ a, (∀ i x w, s.slot i = some x → x.line = l → x.work = .param w → ends i x →
    w.addr ≠ a) → m.entry l a = s.entry l a

/-- Between two states an abort has reached a slot (R84, R85), among others. -/
structure Aborted (i : SlotId) (x : Slot) (s m : State) : Prop where
  finishing : x.state = .finishing → m.slot i = some x
  waits : x.state ≠ .finishing → AbortWaits x →
    m.slot i = some { x with abortPending := true }
  ends : x.state ≠ .finishing → ¬AbortWaits x → EndedBy .aborted i x s m

/-- Between two states a slot that did not hold the line has heard of the line's entry to DOWN (R87),
among others: a started CALL has ended LINE_DOWN, or ABORTED with an abort pending, the round of a
started DISCOVER is over, and any other slot is left. -/
structure HearsDown (l : Line) (i : SlotId) (x : Slot) (s m : State) : Prop where
  left : x.line ≠ l ∨ x.started = false ∨ x.state = .finishing ∨ (∃ w, x.work = .sweep w) ∨
    (∃ w, x.work = .param w) → m.slot i = some x
  call : ∀ w, x.line = l → x.started = true → x.state ≠ .finishing → x.work = .call w →
    EndsAmong i { x with work := .call { w with allGarbled := false } }
      (if x.abortPending = true then .aborted else .lineDown)
      ([byteOf x.tries, byteOf w.busyRounds, lastReplyByte w.lastReply,
        flagBit w.noticePending 1, 0] ++ padTo 8 []) s m
  discover : ∀ w w', x.line = l → x.started = true → x.work = .discover w →
    (x.state = .ready ∨ ∃ r, x.state = .waiting r) →
    w' = (if w.phase ≠ .roll then w.roundEnd false else w) →
    if w'.endReason = .none then m.slot i = some { x with state := .ready, work := .discover w' }
    else EndsAmong i { x with work := .discover w' } .ok (discoverDetail w') s m

/-! ## Cuts -/

/-- A slot's result has been decided, and is the first that has joined its ring's pending list or has
been counted lost on it (R82, R182, R185). -/
structure EndsFirst (i : SlotId) (x : Slot) (st : Status) (detail : List Byte) (s m : State) :
    Prop where
  taken : RingTakes x s → m.slot i = some (finished i x st detail) ∧
    ∃ rest, (m.resultRing (s.workRing x.ring).bound).pending =
      (s.resultRing (s.workRing x.ring).bound).pending ++ resultOf i x st detail :: rest
  lost : ¬RingTakes x s → m.slot i = none ∧
    min 65535 ((s.resultRing (s.workRing x.ring).bound).lost + 1)
      ≤ (m.resultRing (s.workRing x.ring).bound).lost

/-- A slot of a line when a cut is applied to it (R86): FINISHING and ON_LINE slots are left, any other
one ends LINE_RESET. -/
structure CutOff (i : SlotId) (x : Slot) (s m : State) : Prop where
  left : x.state = .finishing ∨ x.state = .onLine → m.slot i = some x
  ends : x.state ≠ .finishing → x.state ≠ .onLine → EndedBy .lineReset i x s m

/-- The cut that has waited for the end of a line's grant has ended (R33, R41, R42, R60): the engine
that the grant's end left has listen-due cleared, a LINE_DISABLE takes the line OFF with its queue
empty, forget returns every entry to its initial value, and the request is answered OK. -/
structure CutEnds (l : Line) (code : Byte) (tag : Word) (disable forget : Bool) (e : LineEngine)
    (s m : State) : Prop where
  engine : m.engine l =
    if disable = true then
      { grantOver e with
        state := .off, lowTimer := 0, debounce := none, settle := none, listenTimer := none,
        listenDue := false, series := none, quiet := false }
    else { grantOver e with listenDue := false }
  queue : disable = true → m.queue l = []
  forget : forget = true → ∀ a, m.entry l a = NodeEntry.initial
  admin : m.admin = some ⟨code, tag, .answered⟩
  answer : Answered code tag .ok [] s m

/-- What the last reply of a cut commit makes of it (R104, R109 to R111, R113, R119, R124). The attempt
number stays (assumption log 26). -/
def lastJudged (p : Phase) (r : Reply) (w : ParamWork) : ParamWork :=
  let w := { w with
    lastReply := some r.status
    readback := if r.status = .done then replyDigest r.data else w.readback }
  let missed := { w with mismatch := (replyDigest r.data).isSome }
  match p, r.status with
  | .prelude, .busy => { w with preludeBusy := true }
  | .prelude, _ => { w with phase := some .stage1 }
  | .stage1, .ok => { w with phase := some (if w.length ≤ 4 then .commit else .stage2) }
  | .stage2, .ok => { w with phase := some .commit }
  | .stage1, .busy | .stage2, .busy =>
    { w with unverified := true, phase := some .prelude, preludeUsed := true, preludeBusy := true }
  | .commit, .ok | .commit, .busy =>
    { w with unverified := true, accepted := true, phase := some .poll }
  | .commit, .done =>
    if replyDigest r.data = some w.digest then
      { w with unverified := true, accepted := true, verified := true }
    else { missed with unverified := true, accepted := true }
  | .poll, .done =>
    if replyDigest r.data = some w.digest then { w with verified := true } else missed
  | .final, .done =>
    if w.accepted = true ∧ replyDigest r.data = some w.digest then { w with verified := true }
    else { w with mismatch := w.accepted && (replyDigest r.data).isSome }
  | _, _ => w

/-! ## Discoveries -/

/-- The class of the position that a PICK has asked (R130). -/
def pickClassed (o : TryOutcome) (w : DiscoverWork) : DiscoverWork :=
  match o with
  | .noReply | .sent => w
  | .garbled | .collided =>
    { w with roundCollided := w.roundCollided + 1, collidedTotal := min 255 (w.collidedTotal + 1) }
  | .replied r =>
    match if r.status = .ok then pickIdentity r.data else none with
    | none =>
      { w with roundCollided := w.roundCollided + 1
               collidedTotal := min 255 (w.collidedTotal + 1) }
    | some u =>
      if ∃ p ∈ w.clean, p.identity = u then
        { w with roundCollided := w.roundCollided + 1
                 collidedTotal := min 255 (w.collidedTotal + 1) }
      else
        { w with
          clean := w.clean ++ [{ position := w.nextPosition, identity := u, mark := .pending }]
          cleanTotal := min 255 (w.cleanTotal + 1) }

/-- An ASSIGN has settled the placing of the current position (R133, R137): the candidate is avoided,
and the position is ASSIGNED if the reply was OK with PING data of its identity, else LOST. -/
def assignSettled (c : CleanPosition) (a : Addr) (taken : Bool) (w : DiscoverWork) : DiscoverWork :=
  if taken = true then
    { w with
      avoid := w.avoid ++ [a], assigned := min 255 (w.assigned + 1)
      clean := w.clean.map fun (p : CleanPosition) =>
        if p.position = c.position then { p with mark := .assigned } else p }
  else
    { w with
      avoid := w.avoid ++ [a], lost := min 255 (w.lost + 1)
      clean := w.clean.map fun (p : CleanPosition) =>
        if p.position = c.position then { p with mark := .lost } else p }

/-! ## The node table -/

/-- An entry under a changed silence threshold (R48): a PRESENT one with misses at or above it becomes
SILENT, a SILENT one with misses below it becomes PRESENT, and any other one stays. -/
def underThreshold (silence : Nat) (e : NodeEntry) : NodeEntry :=
  { e with
    state :=
      if e.state = .present ∧ silence ≤ e.misses then .silent
      else if e.state = .silent ∧ e.misses < silence then .present
      else e.state }

/-- The notices of a line's re-evaluation (R48): NODE_SILENT for each entry that becomes SILENT, in
ascending address order. -/
def silentNotices (l : Line) (silence : Nat) (s : State) : State :=
  allAddrs.foldl
    (fun n a =>
      if (s.entry l a).state = .present ∧ silence ≤ (s.entry l a).misses then
        createNotice (some l) (.nodeSilent a (s.entry l a).identity (s.entry l a).misses) n
      else n) s

/-- Between two states the settings of a line have been set (R40, R48): its entries are re-evaluated,
with their notices, if the silence threshold has changed. -/
structure LineSet (l : Line) (c : LineConfig) (s m : State) : Prop where
  entry : ∀ a, m.entry l a =
    if c.silence = (s.engine l).config.silence then s.entry l a
    else underThreshold c.silence (s.entry l a)
  otherTable : ∀ k, k ≠ l → m.table k = s.table k
  buffer : m.buffer = (if c.silence = (s.engine l).config.silence then s
    else silentNotices l c.silence s).buffer
  lost : m.lost = (if c.silence = (s.engine l).config.silence then s
    else silentNotices l c.silence s).lost

/-- Between two states a waiting LINE_SET has been applied to a line whose grant is over (R40): the
settings stand, the table follows them, the request is answered OK, and nothing else has changed. -/
structure WithSettings (l : Line) (c : LineConfig) (code : Byte) (tag : Word) (n m : State) :
    Prop where
  engine : m.engine l = { n.engine l with config := c }
  otherEngine : ∀ k, k ≠ l → m.engine k = n.engine k
  table : LineSet l c n m
  admin : m.admin = some ⟨code, tag, .answered⟩
  answer : (m.resultRing 0).pending = (n.resultRing 0).pending ++
    [{ sender := .admin, code := code, status := .ok, ring := 0, tag := tag, detail := [] }]
  results : ∀ q, { m.resultRing q with pending := (n.resultRing q).pending } = n.resultRing q
  otherResults : ∀ q, q ≠ 0 → m.resultRing q = n.resultRing q
  rest : { m with
    lines := n.lines, nodes := n.nodes, admin := n.admin, results := n.results,
    buffer := n.buffer, lost := n.lost } = n

/-- Between two states the entry of a heard address, not CLASH, has taken PING data (R49, R50, R55):
identity, kind and zones, and the store state of R50; `former`, the other entry that held the
identity, is VACANT, its lock kept. `first` is created, then NODE_REPLACED and NODE_MOVED where they
apply, and nothing else has changed. -/
structure DataTaken (l : Line) (a : Addr) (u : UnitNo) (kind : Byte) (zones : ZoneSet)
    (former : Option Addr) (first : Option NoticeBody) (s t : State) : Prop where
  entry : t.entry l a =
    { state := .present, identity := some u, kind := some kind, zones := some zones, misses := 0,
      garbles := 0, lastSeq := (s.entry l a).lastSeq, lock := (s.entry l a).lock
      store :=
        if former.map (fun b => (s.entry l b).store) = some .unknown then .unknown
        else if (s.entry l a).identity ≠ none ∧ (s.entry l a).identity ≠ some u then .clean
        else (s.entry l a).store
      lastHeard := some s.ms }
  vacated : ∀ b, former = some b →
    t.entry l b = { NodeEntry.initial with lock := (s.entry l b).lock }
  others : ∀ b, b ≠ a → former ≠ some b → t.entry l b = s.entry l b
  otherLine : ∀ k, k ≠ l → t.table k = s.table k
  notices : { t with nodes := s.nodes } =
    [first,
      (match (s.entry l a).identity with
        | some v => if v = u then none else some (.nodeReplaced a v u)
        | none => none),
      former.map fun b => .nodeMoved b a u].foldl
      (fun n body => match body with
        | some b => createNotice (some l) b n
        | none => n) s

end Sys2Proof.Safety
end

