-- ==== Sys2Proof/Laws/State.lean ====
section
/-! SUPPORT. One lemma per field and per update of the state, and what each update reads back as. -/

namespace Sys2Proof.Laws

open Sys2Proof.Machine

/-! ## What each update leaves unchanged -/

/-! ### setEngine -/

@[simp] theorem setEngine_device (s : State) (l : Line) (e : LineEngine) : (s.setEngine l e).device = s.device := rfl
@[simp] theorem setEngine_halt (s : State) (l : Line) (e : LineEngine) : (s.setEngine l e).halt = s.halt := rfl
@[simp] theorem setEngine_intEnable (s : State) (l : Line) (e : LineEngine) : (s.setEngine l e).intEnable = s.intEnable := rfl
@[simp] theorem setEngine_boot (s : State) (l : Line) (e : LineEngine) : (s.setEngine l e).boot = s.boot := rfl
@[simp] theorem setEngine_bootRead (s : State) (l : Line) (e : LineEngine) : (s.setEngine l e).bootRead = s.bootRead := rfl
@[simp] theorem setEngine_ms (s : State) (l : Line) (e : LineEngine) : (s.setEngine l e).ms = s.ms := rfl
@[simp] theorem setEngine_work (s : State) (l : Line) (e : LineEngine) : (s.setEngine l e).work = s.work := rfl
@[simp] theorem setEngine_results (s : State) (l : Line) (e : LineEngine) : (s.setEngine l e).results = s.results := rfl
@[simp] theorem setEngine_notice (s : State) (l : Line) (e : LineEngine) : (s.setEngine l e).notice = s.notice := rfl
@[simp] theorem setEngine_deviceEvent (s : State) (l : Line) (e : LineEngine) : (s.setEngine l e).deviceEvent = s.deviceEvent := rfl
@[simp] theorem setEngine_workFetch (s : State) (l : Line) (e : LineEngine) : (s.setEngine l e).workFetch = s.workFetch := rfl
@[simp] theorem setEngine_adminFetch (s : State) (l : Line) (e : LineEngine) : (s.setEngine l e).adminFetch = s.adminFetch := rfl
@[simp] theorem setEngine_admin (s : State) (l : Line) (e : LineEngine) : (s.setEngine l e).admin = s.admin := rfl
@[simp] theorem setEngine_imageWrite (s : State) (l : Line) (e : LineEngine) : (s.setEngine l e).imageWrite = s.imageWrite := rfl
@[simp] theorem setEngine_slots (s : State) (l : Line) (e : LineEngine) : (s.setEngine l e).slots = s.slots := rfl
@[simp] theorem setEngine_fetchSeq (s : State) (l : Line) (e : LineEngine) : (s.setEngine l e).fetchSeq = s.fetchSeq := rfl
@[simp] theorem setEngine_served (s : State) (l : Line) (e : LineEngine) : (s.setEngine l e).served = s.served := rfl
@[simp] theorem setEngine_nodes (s : State) (l : Line) (e : LineEngine) : (s.setEngine l e).nodes = s.nodes := rfl
@[simp] theorem setEngine_reflexes (s : State) (l : Line) (e : LineEngine) : (s.setEngine l e).reflexes = s.reflexes := rfl
@[simp] theorem setEngine_queues (s : State) (l : Line) (e : LineEngine) : (s.setEngine l e).queues = s.queues := rfl
@[simp] theorem setEngine_buffer (s : State) (l : Line) (e : LineEngine) : (s.setEngine l e).buffer = s.buffer := rfl
@[simp] theorem setEngine_lost (s : State) (l : Line) (e : LineEngine) : (s.setEngine l e).lost = s.lost := rfl
@[simp] theorem setEngine_draws (s : State) (l : Line) (e : LineEngine) : (s.setEngine l e).draws = s.draws := rfl
@[simp] theorem setEngine_resetPinLow (s : State) (l : Line) (e : LineEngine) : (s.setEngine l e).resetPinLow = s.resetPinLow := rfl
@[simp] theorem setEngine_pending (s : State) (l : Line) (e : LineEngine) : (s.setEngine l e).pending = s.pending := rfl
@[simp] theorem setEngine_table (s : State) (l : Line) (e : LineEngine) (m : Line) :
    (s.setEngine l e).table m = s.table m := rfl
@[simp] theorem setEngine_entry (s : State) (l : Line) (e : LineEngine) (m : Line) (b : Addr) :
    (s.setEngine l e).entry m b = s.entry m b := rfl
@[simp] theorem setEngine_slot (s : State) (l : Line) (e : LineEngine) (j : SlotId) :
    (s.setEngine l e).slot j = s.slot j := rfl
@[simp] theorem setEngine_workRing (s : State) (l : Line) (e : LineEngine) (n : WorkRingId) :
    (s.setEngine l e).workRing n = s.workRing n := rfl
@[simp] theorem setEngine_resultRing (s : State) (l : Line) (e : LineEngine) (n : ResultRingId) :
    (s.setEngine l e).resultRing n = s.resultRing n := rfl
@[simp] theorem setEngine_reflex (s : State) (l : Line) (e : LineEngine) (n : ReflexId) :
    (s.setEngine l e).reflex n = s.reflex n := rfl
@[simp] theorem setEngine_queue (s : State) (l : Line) (e : LineEngine) (m : Line) :
    (s.setEngine l e).queue m = s.queue m := rfl

/-! ### setTable -/

@[simp] theorem setTable_device (s : State) (l : Line) (t : Vector NodeEntry 80) : (s.setTable l t).device = s.device := rfl
@[simp] theorem setTable_halt (s : State) (l : Line) (t : Vector NodeEntry 80) : (s.setTable l t).halt = s.halt := rfl
@[simp] theorem setTable_intEnable (s : State) (l : Line) (t : Vector NodeEntry 80) : (s.setTable l t).intEnable = s.intEnable := rfl
@[simp] theorem setTable_boot (s : State) (l : Line) (t : Vector NodeEntry 80) : (s.setTable l t).boot = s.boot := rfl
@[simp] theorem setTable_bootRead (s : State) (l : Line) (t : Vector NodeEntry 80) : (s.setTable l t).bootRead = s.bootRead := rfl
@[simp] theorem setTable_ms (s : State) (l : Line) (t : Vector NodeEntry 80) : (s.setTable l t).ms = s.ms := rfl
@[simp] theorem setTable_work (s : State) (l : Line) (t : Vector NodeEntry 80) : (s.setTable l t).work = s.work := rfl
@[simp] theorem setTable_results (s : State) (l : Line) (t : Vector NodeEntry 80) : (s.setTable l t).results = s.results := rfl
@[simp] theorem setTable_notice (s : State) (l : Line) (t : Vector NodeEntry 80) : (s.setTable l t).notice = s.notice := rfl
@[simp] theorem setTable_deviceEvent (s : State) (l : Line) (t : Vector NodeEntry 80) : (s.setTable l t).deviceEvent = s.deviceEvent := rfl
@[simp] theorem setTable_workFetch (s : State) (l : Line) (t : Vector NodeEntry 80) : (s.setTable l t).workFetch = s.workFetch := rfl
@[simp] theorem setTable_adminFetch (s : State) (l : Line) (t : Vector NodeEntry 80) : (s.setTable l t).adminFetch = s.adminFetch := rfl
@[simp] theorem setTable_admin (s : State) (l : Line) (t : Vector NodeEntry 80) : (s.setTable l t).admin = s.admin := rfl
@[simp] theorem setTable_imageWrite (s : State) (l : Line) (t : Vector NodeEntry 80) : (s.setTable l t).imageWrite = s.imageWrite := rfl
@[simp] theorem setTable_slots (s : State) (l : Line) (t : Vector NodeEntry 80) : (s.setTable l t).slots = s.slots := rfl
@[simp] theorem setTable_fetchSeq (s : State) (l : Line) (t : Vector NodeEntry 80) : (s.setTable l t).fetchSeq = s.fetchSeq := rfl
@[simp] theorem setTable_served (s : State) (l : Line) (t : Vector NodeEntry 80) : (s.setTable l t).served = s.served := rfl
@[simp] theorem setTable_lines (s : State) (l : Line) (t : Vector NodeEntry 80) : (s.setTable l t).lines = s.lines := rfl
@[simp] theorem setTable_reflexes (s : State) (l : Line) (t : Vector NodeEntry 80) : (s.setTable l t).reflexes = s.reflexes := rfl
@[simp] theorem setTable_queues (s : State) (l : Line) (t : Vector NodeEntry 80) : (s.setTable l t).queues = s.queues := rfl
@[simp] theorem setTable_buffer (s : State) (l : Line) (t : Vector NodeEntry 80) : (s.setTable l t).buffer = s.buffer := rfl
@[simp] theorem setTable_lost (s : State) (l : Line) (t : Vector NodeEntry 80) : (s.setTable l t).lost = s.lost := rfl
@[simp] theorem setTable_draws (s : State) (l : Line) (t : Vector NodeEntry 80) : (s.setTable l t).draws = s.draws := rfl
@[simp] theorem setTable_resetPinLow (s : State) (l : Line) (t : Vector NodeEntry 80) : (s.setTable l t).resetPinLow = s.resetPinLow := rfl
@[simp] theorem setTable_pending (s : State) (l : Line) (t : Vector NodeEntry 80) : (s.setTable l t).pending = s.pending := rfl
@[simp] theorem setTable_engine (s : State) (l : Line) (t : Vector NodeEntry 80) (m : Line) :
    (s.setTable l t).engine m = s.engine m := rfl
@[simp] theorem setTable_slot (s : State) (l : Line) (t : Vector NodeEntry 80) (j : SlotId) :
    (s.setTable l t).slot j = s.slot j := rfl
@[simp] theorem setTable_workRing (s : State) (l : Line) (t : Vector NodeEntry 80) (n : WorkRingId) :
    (s.setTable l t).workRing n = s.workRing n := rfl
@[simp] theorem setTable_resultRing (s : State) (l : Line) (t : Vector NodeEntry 80) (n : ResultRingId) :
    (s.setTable l t).resultRing n = s.resultRing n := rfl
@[simp] theorem setTable_reflex (s : State) (l : Line) (t : Vector NodeEntry 80) (n : ReflexId) :
    (s.setTable l t).reflex n = s.reflex n := rfl
@[simp] theorem setTable_queue (s : State) (l : Line) (t : Vector NodeEntry 80) (m : Line) :
    (s.setTable l t).queue m = s.queue m := rfl

/-! ### setEntry -/

@[simp] theorem setEntry_device (s : State) (l : Line) (a : Addr) (e : NodeEntry) : (s.setEntry l a e).device = s.device := rfl
@[simp] theorem setEntry_halt (s : State) (l : Line) (a : Addr) (e : NodeEntry) : (s.setEntry l a e).halt = s.halt := rfl
@[simp] theorem setEntry_intEnable (s : State) (l : Line) (a : Addr) (e : NodeEntry) : (s.setEntry l a e).intEnable = s.intEnable := rfl
@[simp] theorem setEntry_boot (s : State) (l : Line) (a : Addr) (e : NodeEntry) : (s.setEntry l a e).boot = s.boot := rfl
@[simp] theorem setEntry_bootRead (s : State) (l : Line) (a : Addr) (e : NodeEntry) : (s.setEntry l a e).bootRead = s.bootRead := rfl
@[simp] theorem setEntry_ms (s : State) (l : Line) (a : Addr) (e : NodeEntry) : (s.setEntry l a e).ms = s.ms := rfl
@[simp] theorem setEntry_work (s : State) (l : Line) (a : Addr) (e : NodeEntry) : (s.setEntry l a e).work = s.work := rfl
@[simp] theorem setEntry_results (s : State) (l : Line) (a : Addr) (e : NodeEntry) : (s.setEntry l a e).results = s.results := rfl
@[simp] theorem setEntry_notice (s : State) (l : Line) (a : Addr) (e : NodeEntry) : (s.setEntry l a e).notice = s.notice := rfl
@[simp] theorem setEntry_deviceEvent (s : State) (l : Line) (a : Addr) (e : NodeEntry) : (s.setEntry l a e).deviceEvent = s.deviceEvent := rfl
@[simp] theorem setEntry_workFetch (s : State) (l : Line) (a : Addr) (e : NodeEntry) : (s.setEntry l a e).workFetch = s.workFetch := rfl
@[simp] theorem setEntry_adminFetch (s : State) (l : Line) (a : Addr) (e : NodeEntry) : (s.setEntry l a e).adminFetch = s.adminFetch := rfl
@[simp] theorem setEntry_admin (s : State) (l : Line) (a : Addr) (e : NodeEntry) : (s.setEntry l a e).admin = s.admin := rfl
@[simp] theorem setEntry_imageWrite (s : State) (l : Line) (a : Addr) (e : NodeEntry) : (s.setEntry l a e).imageWrite = s.imageWrite := rfl
@[simp] theorem setEntry_slots (s : State) (l : Line) (a : Addr) (e : NodeEntry) : (s.setEntry l a e).slots = s.slots := rfl
@[simp] theorem setEntry_fetchSeq (s : State) (l : Line) (a : Addr) (e : NodeEntry) : (s.setEntry l a e).fetchSeq = s.fetchSeq := rfl
@[simp] theorem setEntry_served (s : State) (l : Line) (a : Addr) (e : NodeEntry) : (s.setEntry l a e).served = s.served := rfl
@[simp] theorem setEntry_lines (s : State) (l : Line) (a : Addr) (e : NodeEntry) : (s.setEntry l a e).lines = s.lines := rfl
@[simp] theorem setEntry_reflexes (s : State) (l : Line) (a : Addr) (e : NodeEntry) : (s.setEntry l a e).reflexes = s.reflexes := rfl
@[simp] theorem setEntry_queues (s : State) (l : Line) (a : Addr) (e : NodeEntry) : (s.setEntry l a e).queues = s.queues := rfl
@[simp] theorem setEntry_buffer (s : State) (l : Line) (a : Addr) (e : NodeEntry) : (s.setEntry l a e).buffer = s.buffer := rfl
@[simp] theorem setEntry_lost (s : State) (l : Line) (a : Addr) (e : NodeEntry) : (s.setEntry l a e).lost = s.lost := rfl
@[simp] theorem setEntry_draws (s : State) (l : Line) (a : Addr) (e : NodeEntry) : (s.setEntry l a e).draws = s.draws := rfl
@[simp] theorem setEntry_resetPinLow (s : State) (l : Line) (a : Addr) (e : NodeEntry) : (s.setEntry l a e).resetPinLow = s.resetPinLow := rfl
@[simp] theorem setEntry_pending (s : State) (l : Line) (a : Addr) (e : NodeEntry) : (s.setEntry l a e).pending = s.pending := rfl
@[simp] theorem setEntry_engine (s : State) (l : Line) (a : Addr) (e : NodeEntry) (m : Line) :
    (s.setEntry l a e).engine m = s.engine m := rfl
@[simp] theorem setEntry_slot (s : State) (l : Line) (a : Addr) (e : NodeEntry) (j : SlotId) :
    (s.setEntry l a e).slot j = s.slot j := rfl
@[simp] theorem setEntry_workRing (s : State) (l : Line) (a : Addr) (e : NodeEntry) (n : WorkRingId) :
    (s.setEntry l a e).workRing n = s.workRing n := rfl
@[simp] theorem setEntry_resultRing (s : State) (l : Line) (a : Addr) (e : NodeEntry) (n : ResultRingId) :
    (s.setEntry l a e).resultRing n = s.resultRing n := rfl
@[simp] theorem setEntry_reflex (s : State) (l : Line) (a : Addr) (e : NodeEntry) (n : ReflexId) :
    (s.setEntry l a e).reflex n = s.reflex n := rfl
@[simp] theorem setEntry_queue (s : State) (l : Line) (a : Addr) (e : NodeEntry) (m : Line) :
    (s.setEntry l a e).queue m = s.queue m := rfl

/-! ### setSlot -/

@[simp] theorem setSlot_device (s : State) (i : SlotId) (x : Option Slot) : (s.setSlot i x).device = s.device := rfl
@[simp] theorem setSlot_halt (s : State) (i : SlotId) (x : Option Slot) : (s.setSlot i x).halt = s.halt := rfl
@[simp] theorem setSlot_intEnable (s : State) (i : SlotId) (x : Option Slot) : (s.setSlot i x).intEnable = s.intEnable := rfl
@[simp] theorem setSlot_boot (s : State) (i : SlotId) (x : Option Slot) : (s.setSlot i x).boot = s.boot := rfl
@[simp] theorem setSlot_bootRead (s : State) (i : SlotId) (x : Option Slot) : (s.setSlot i x).bootRead = s.bootRead := rfl
@[simp] theorem setSlot_ms (s : State) (i : SlotId) (x : Option Slot) : (s.setSlot i x).ms = s.ms := rfl
@[simp] theorem setSlot_work (s : State) (i : SlotId) (x : Option Slot) : (s.setSlot i x).work = s.work := rfl
@[simp] theorem setSlot_results (s : State) (i : SlotId) (x : Option Slot) : (s.setSlot i x).results = s.results := rfl
@[simp] theorem setSlot_notice (s : State) (i : SlotId) (x : Option Slot) : (s.setSlot i x).notice = s.notice := rfl
@[simp] theorem setSlot_deviceEvent (s : State) (i : SlotId) (x : Option Slot) : (s.setSlot i x).deviceEvent = s.deviceEvent := rfl
@[simp] theorem setSlot_workFetch (s : State) (i : SlotId) (x : Option Slot) : (s.setSlot i x).workFetch = s.workFetch := rfl
@[simp] theorem setSlot_adminFetch (s : State) (i : SlotId) (x : Option Slot) : (s.setSlot i x).adminFetch = s.adminFetch := rfl
@[simp] theorem setSlot_admin (s : State) (i : SlotId) (x : Option Slot) : (s.setSlot i x).admin = s.admin := rfl
@[simp] theorem setSlot_imageWrite (s : State) (i : SlotId) (x : Option Slot) : (s.setSlot i x).imageWrite = s.imageWrite := rfl
@[simp] theorem setSlot_fetchSeq (s : State) (i : SlotId) (x : Option Slot) : (s.setSlot i x).fetchSeq = s.fetchSeq := rfl
@[simp] theorem setSlot_served (s : State) (i : SlotId) (x : Option Slot) : (s.setSlot i x).served = s.served := rfl
@[simp] theorem setSlot_lines (s : State) (i : SlotId) (x : Option Slot) : (s.setSlot i x).lines = s.lines := rfl
@[simp] theorem setSlot_nodes (s : State) (i : SlotId) (x : Option Slot) : (s.setSlot i x).nodes = s.nodes := rfl
@[simp] theorem setSlot_reflexes (s : State) (i : SlotId) (x : Option Slot) : (s.setSlot i x).reflexes = s.reflexes := rfl
@[simp] theorem setSlot_queues (s : State) (i : SlotId) (x : Option Slot) : (s.setSlot i x).queues = s.queues := rfl
@[simp] theorem setSlot_buffer (s : State) (i : SlotId) (x : Option Slot) : (s.setSlot i x).buffer = s.buffer := rfl
@[simp] theorem setSlot_lost (s : State) (i : SlotId) (x : Option Slot) : (s.setSlot i x).lost = s.lost := rfl
@[simp] theorem setSlot_draws (s : State) (i : SlotId) (x : Option Slot) : (s.setSlot i x).draws = s.draws := rfl
@[simp] theorem setSlot_resetPinLow (s : State) (i : SlotId) (x : Option Slot) : (s.setSlot i x).resetPinLow = s.resetPinLow := rfl
@[simp] theorem setSlot_pending (s : State) (i : SlotId) (x : Option Slot) : (s.setSlot i x).pending = s.pending := rfl
@[simp] theorem setSlot_engine (s : State) (i : SlotId) (x : Option Slot) (m : Line) :
    (s.setSlot i x).engine m = s.engine m := rfl
@[simp] theorem setSlot_table (s : State) (i : SlotId) (x : Option Slot) (m : Line) :
    (s.setSlot i x).table m = s.table m := rfl
@[simp] theorem setSlot_entry (s : State) (i : SlotId) (x : Option Slot) (m : Line) (b : Addr) :
    (s.setSlot i x).entry m b = s.entry m b := rfl
@[simp] theorem setSlot_workRing (s : State) (i : SlotId) (x : Option Slot) (n : WorkRingId) :
    (s.setSlot i x).workRing n = s.workRing n := rfl
@[simp] theorem setSlot_resultRing (s : State) (i : SlotId) (x : Option Slot) (n : ResultRingId) :
    (s.setSlot i x).resultRing n = s.resultRing n := rfl
@[simp] theorem setSlot_reflex (s : State) (i : SlotId) (x : Option Slot) (n : ReflexId) :
    (s.setSlot i x).reflex n = s.reflex n := rfl
@[simp] theorem setSlot_queue (s : State) (i : SlotId) (x : Option Slot) (m : Line) :
    (s.setSlot i x).queue m = s.queue m := rfl

/-! ### setWorkRing -/

@[simp] theorem setWorkRing_device (s : State) (r : WorkRingId) (w : WorkRing) : (s.setWorkRing r w).device = s.device := rfl
@[simp] theorem setWorkRing_halt (s : State) (r : WorkRingId) (w : WorkRing) : (s.setWorkRing r w).halt = s.halt := rfl
@[simp] theorem setWorkRing_intEnable (s : State) (r : WorkRingId) (w : WorkRing) : (s.setWorkRing r w).intEnable = s.intEnable := rfl
@[simp] theorem setWorkRing_boot (s : State) (r : WorkRingId) (w : WorkRing) : (s.setWorkRing r w).boot = s.boot := rfl
@[simp] theorem setWorkRing_bootRead (s : State) (r : WorkRingId) (w : WorkRing) : (s.setWorkRing r w).bootRead = s.bootRead := rfl
@[simp] theorem setWorkRing_ms (s : State) (r : WorkRingId) (w : WorkRing) : (s.setWorkRing r w).ms = s.ms := rfl
@[simp] theorem setWorkRing_results (s : State) (r : WorkRingId) (w : WorkRing) : (s.setWorkRing r w).results = s.results := rfl
@[simp] theorem setWorkRing_notice (s : State) (r : WorkRingId) (w : WorkRing) : (s.setWorkRing r w).notice = s.notice := rfl
@[simp] theorem setWorkRing_deviceEvent (s : State) (r : WorkRingId) (w : WorkRing) : (s.setWorkRing r w).deviceEvent = s.deviceEvent := rfl
@[simp] theorem setWorkRing_workFetch (s : State) (r : WorkRingId) (w : WorkRing) : (s.setWorkRing r w).workFetch = s.workFetch := rfl
@[simp] theorem setWorkRing_adminFetch (s : State) (r : WorkRingId) (w : WorkRing) : (s.setWorkRing r w).adminFetch = s.adminFetch := rfl
@[simp] theorem setWorkRing_admin (s : State) (r : WorkRingId) (w : WorkRing) : (s.setWorkRing r w).admin = s.admin := rfl
@[simp] theorem setWorkRing_imageWrite (s : State) (r : WorkRingId) (w : WorkRing) : (s.setWorkRing r w).imageWrite = s.imageWrite := rfl
@[simp] theorem setWorkRing_slots (s : State) (r : WorkRingId) (w : WorkRing) : (s.setWorkRing r w).slots = s.slots := rfl
@[simp] theorem setWorkRing_fetchSeq (s : State) (r : WorkRingId) (w : WorkRing) : (s.setWorkRing r w).fetchSeq = s.fetchSeq := rfl
@[simp] theorem setWorkRing_served (s : State) (r : WorkRingId) (w : WorkRing) : (s.setWorkRing r w).served = s.served := rfl
@[simp] theorem setWorkRing_lines (s : State) (r : WorkRingId) (w : WorkRing) : (s.setWorkRing r w).lines = s.lines := rfl
@[simp] theorem setWorkRing_nodes (s : State) (r : WorkRingId) (w : WorkRing) : (s.setWorkRing r w).nodes = s.nodes := rfl
@[simp] theorem setWorkRing_reflexes (s : State) (r : WorkRingId) (w : WorkRing) : (s.setWorkRing r w).reflexes = s.reflexes := rfl
@[simp] theorem setWorkRing_queues (s : State) (r : WorkRingId) (w : WorkRing) : (s.setWorkRing r w).queues = s.queues := rfl
@[simp] theorem setWorkRing_buffer (s : State) (r : WorkRingId) (w : WorkRing) : (s.setWorkRing r w).buffer = s.buffer := rfl
@[simp] theorem setWorkRing_lost (s : State) (r : WorkRingId) (w : WorkRing) : (s.setWorkRing r w).lost = s.lost := rfl
@[simp] theorem setWorkRing_draws (s : State) (r : WorkRingId) (w : WorkRing) : (s.setWorkRing r w).draws = s.draws := rfl
@[simp] theorem setWorkRing_resetPinLow (s : State) (r : WorkRingId) (w : WorkRing) : (s.setWorkRing r w).resetPinLow = s.resetPinLow := rfl
@[simp] theorem setWorkRing_pending (s : State) (r : WorkRingId) (w : WorkRing) : (s.setWorkRing r w).pending = s.pending := rfl
@[simp] theorem setWorkRing_engine (s : State) (r : WorkRingId) (w : WorkRing) (m : Line) :
    (s.setWorkRing r w).engine m = s.engine m := rfl
@[simp] theorem setWorkRing_table (s : State) (r : WorkRingId) (w : WorkRing) (m : Line) :
    (s.setWorkRing r w).table m = s.table m := rfl
@[simp] theorem setWorkRing_entry (s : State) (r : WorkRingId) (w : WorkRing) (m : Line) (b : Addr) :
    (s.setWorkRing r w).entry m b = s.entry m b := rfl
@[simp] theorem setWorkRing_slot (s : State) (r : WorkRingId) (w : WorkRing) (j : SlotId) :
    (s.setWorkRing r w).slot j = s.slot j := rfl
@[simp] theorem setWorkRing_resultRing (s : State) (r : WorkRingId) (w : WorkRing) (n : ResultRingId) :
    (s.setWorkRing r w).resultRing n = s.resultRing n := rfl
@[simp] theorem setWorkRing_reflex (s : State) (r : WorkRingId) (w : WorkRing) (n : ReflexId) :
    (s.setWorkRing r w).reflex n = s.reflex n := rfl
@[simp] theorem setWorkRing_queue (s : State) (r : WorkRingId) (w : WorkRing) (m : Line) :
    (s.setWorkRing r w).queue m = s.queue m := rfl

/-! ### setResultRing -/

@[simp] theorem setResultRing_device (s : State) (q : ResultRingId) (x : ResultRing) : (s.setResultRing q x).device = s.device := rfl
@[simp] theorem setResultRing_halt (s : State) (q : ResultRingId) (x : ResultRing) : (s.setResultRing q x).halt = s.halt := rfl
@[simp] theorem setResultRing_intEnable (s : State) (q : ResultRingId) (x : ResultRing) : (s.setResultRing q x).intEnable = s.intEnable := rfl
@[simp] theorem setResultRing_boot (s : State) (q : ResultRingId) (x : ResultRing) : (s.setResultRing q x).boot = s.boot := rfl
@[simp] theorem setResultRing_bootRead (s : State) (q : ResultRingId) (x : ResultRing) : (s.setResultRing q x).bootRead = s.bootRead := rfl
@[simp] theorem setResultRing_ms (s : State) (q : ResultRingId) (x : ResultRing) : (s.setResultRing q x).ms = s.ms := rfl
@[simp] theorem setResultRing_work (s : State) (q : ResultRingId) (x : ResultRing) : (s.setResultRing q x).work = s.work := rfl
@[simp] theorem setResultRing_notice (s : State) (q : ResultRingId) (x : ResultRing) : (s.setResultRing q x).notice = s.notice := rfl
@[simp] theorem setResultRing_deviceEvent (s : State) (q : ResultRingId) (x : ResultRing) : (s.setResultRing q x).deviceEvent = s.deviceEvent := rfl
@[simp] theorem setResultRing_workFetch (s : State) (q : ResultRingId) (x : ResultRing) : (s.setResultRing q x).workFetch = s.workFetch := rfl
@[simp] theorem setResultRing_adminFetch (s : State) (q : ResultRingId) (x : ResultRing) : (s.setResultRing q x).adminFetch = s.adminFetch := rfl
@[simp] theorem setResultRing_admin (s : State) (q : ResultRingId) (x : ResultRing) : (s.setResultRing q x).admin = s.admin := rfl
@[simp] theorem setResultRing_imageWrite (s : State) (q : ResultRingId) (x : ResultRing) : (s.setResultRing q x).imageWrite = s.imageWrite := rfl
@[simp] theorem setResultRing_slots (s : State) (q : ResultRingId) (x : ResultRing) : (s.setResultRing q x).slots = s.slots := rfl
@[simp] theorem setResultRing_fetchSeq (s : State) (q : ResultRingId) (x : ResultRing) : (s.setResultRing q x).fetchSeq = s.fetchSeq := rfl
@[simp] theorem setResultRing_served (s : State) (q : ResultRingId) (x : ResultRing) : (s.setResultRing q x).served = s.served := rfl
@[simp] theorem setResultRing_lines (s : State) (q : ResultRingId) (x : ResultRing) : (s.setResultRing q x).lines = s.lines := rfl
@[simp] theorem setResultRing_nodes (s : State) (q : ResultRingId) (x : ResultRing) : (s.setResultRing q x).nodes = s.nodes := rfl
@[simp] theorem setResultRing_reflexes (s : State) (q : ResultRingId) (x : ResultRing) : (s.setResultRing q x).reflexes = s.reflexes := rfl
@[simp] theorem setResultRing_queues (s : State) (q : ResultRingId) (x : ResultRing) : (s.setResultRing q x).queues = s.queues := rfl
@[simp] theorem setResultRing_buffer (s : State) (q : ResultRingId) (x : ResultRing) : (s.setResultRing q x).buffer = s.buffer := rfl
@[simp] theorem setResultRing_lost (s : State) (q : ResultRingId) (x : ResultRing) : (s.setResultRing q x).lost = s.lost := rfl
@[simp] theorem setResultRing_draws (s : State) (q : ResultRingId) (x : ResultRing) : (s.setResultRing q x).draws = s.draws := rfl
@[simp] theorem setResultRing_resetPinLow (s : State) (q : ResultRingId) (x : ResultRing) : (s.setResultRing q x).resetPinLow = s.resetPinLow := rfl
@[simp] theorem setResultRing_pending (s : State) (q : ResultRingId) (x : ResultRing) : (s.setResultRing q x).pending = s.pending := rfl
@[simp] theorem setResultRing_engine (s : State) (q : ResultRingId) (x : ResultRing) (m : Line) :
    (s.setResultRing q x).engine m = s.engine m := rfl
@[simp] theorem setResultRing_table (s : State) (q : ResultRingId) (x : ResultRing) (m : Line) :
    (s.setResultRing q x).table m = s.table m := rfl
@[simp] theorem setResultRing_entry (s : State) (q : ResultRingId) (x : ResultRing) (m : Line) (b : Addr) :
    (s.setResultRing q x).entry m b = s.entry m b := rfl
@[simp] theorem setResultRing_slot (s : State) (q : ResultRingId) (x : ResultRing) (j : SlotId) :
    (s.setResultRing q x).slot j = s.slot j := rfl
@[simp] theorem setResultRing_workRing (s : State) (q : ResultRingId) (x : ResultRing) (n : WorkRingId) :
    (s.setResultRing q x).workRing n = s.workRing n := rfl
@[simp] theorem setResultRing_reflex (s : State) (q : ResultRingId) (x : ResultRing) (n : ReflexId) :
    (s.setResultRing q x).reflex n = s.reflex n := rfl
@[simp] theorem setResultRing_queue (s : State) (q : ResultRingId) (x : ResultRing) (m : Line) :
    (s.setResultRing q x).queue m = s.queue m := rfl

/-! ### setReflex -/

@[simp] theorem setReflex_device (s : State) (k : ReflexId) (e : ReflexEntry) : (s.setReflex k e).device = s.device := rfl
@[simp] theorem setReflex_halt (s : State) (k : ReflexId) (e : ReflexEntry) : (s.setReflex k e).halt = s.halt := rfl
@[simp] theorem setReflex_intEnable (s : State) (k : ReflexId) (e : ReflexEntry) : (s.setReflex k e).intEnable = s.intEnable := rfl
@[simp] theorem setReflex_boot (s : State) (k : ReflexId) (e : ReflexEntry) : (s.setReflex k e).boot = s.boot := rfl
@[simp] theorem setReflex_bootRead (s : State) (k : ReflexId) (e : ReflexEntry) : (s.setReflex k e).bootRead = s.bootRead := rfl
@[simp] theorem setReflex_ms (s : State) (k : ReflexId) (e : ReflexEntry) : (s.setReflex k e).ms = s.ms := rfl
@[simp] theorem setReflex_work (s : State) (k : ReflexId) (e : ReflexEntry) : (s.setReflex k e).work = s.work := rfl
@[simp] theorem setReflex_results (s : State) (k : ReflexId) (e : ReflexEntry) : (s.setReflex k e).results = s.results := rfl
@[simp] theorem setReflex_notice (s : State) (k : ReflexId) (e : ReflexEntry) : (s.setReflex k e).notice = s.notice := rfl
@[simp] theorem setReflex_deviceEvent (s : State) (k : ReflexId) (e : ReflexEntry) : (s.setReflex k e).deviceEvent = s.deviceEvent := rfl
@[simp] theorem setReflex_workFetch (s : State) (k : ReflexId) (e : ReflexEntry) : (s.setReflex k e).workFetch = s.workFetch := rfl
@[simp] theorem setReflex_adminFetch (s : State) (k : ReflexId) (e : ReflexEntry) : (s.setReflex k e).adminFetch = s.adminFetch := rfl
@[simp] theorem setReflex_admin (s : State) (k : ReflexId) (e : ReflexEntry) : (s.setReflex k e).admin = s.admin := rfl
@[simp] theorem setReflex_imageWrite (s : State) (k : ReflexId) (e : ReflexEntry) : (s.setReflex k e).imageWrite = s.imageWrite := rfl
@[simp] theorem setReflex_slots (s : State) (k : ReflexId) (e : ReflexEntry) : (s.setReflex k e).slots = s.slots := rfl
@[simp] theorem setReflex_fetchSeq (s : State) (k : ReflexId) (e : ReflexEntry) : (s.setReflex k e).fetchSeq = s.fetchSeq := rfl
@[simp] theorem setReflex_served (s : State) (k : ReflexId) (e : ReflexEntry) : (s.setReflex k e).served = s.served := rfl
@[simp] theorem setReflex_lines (s : State) (k : ReflexId) (e : ReflexEntry) : (s.setReflex k e).lines = s.lines := rfl
@[simp] theorem setReflex_nodes (s : State) (k : ReflexId) (e : ReflexEntry) : (s.setReflex k e).nodes = s.nodes := rfl
@[simp] theorem setReflex_queues (s : State) (k : ReflexId) (e : ReflexEntry) : (s.setReflex k e).queues = s.queues := rfl
@[simp] theorem setReflex_buffer (s : State) (k : ReflexId) (e : ReflexEntry) : (s.setReflex k e).buffer = s.buffer := rfl
@[simp] theorem setReflex_lost (s : State) (k : ReflexId) (e : ReflexEntry) : (s.setReflex k e).lost = s.lost := rfl
@[simp] theorem setReflex_draws (s : State) (k : ReflexId) (e : ReflexEntry) : (s.setReflex k e).draws = s.draws := rfl
@[simp] theorem setReflex_resetPinLow (s : State) (k : ReflexId) (e : ReflexEntry) : (s.setReflex k e).resetPinLow = s.resetPinLow := rfl
@[simp] theorem setReflex_pending (s : State) (k : ReflexId) (e : ReflexEntry) : (s.setReflex k e).pending = s.pending := rfl
@[simp] theorem setReflex_engine (s : State) (k : ReflexId) (e : ReflexEntry) (m : Line) :
    (s.setReflex k e).engine m = s.engine m := rfl
@[simp] theorem setReflex_table (s : State) (k : ReflexId) (e : ReflexEntry) (m : Line) :
    (s.setReflex k e).table m = s.table m := rfl
@[simp] theorem setReflex_entry (s : State) (k : ReflexId) (e : ReflexEntry) (m : Line) (b : Addr) :
    (s.setReflex k e).entry m b = s.entry m b := rfl
@[simp] theorem setReflex_slot (s : State) (k : ReflexId) (e : ReflexEntry) (j : SlotId) :
    (s.setReflex k e).slot j = s.slot j := rfl
@[simp] theorem setReflex_workRing (s : State) (k : ReflexId) (e : ReflexEntry) (n : WorkRingId) :
    (s.setReflex k e).workRing n = s.workRing n := rfl
@[simp] theorem setReflex_resultRing (s : State) (k : ReflexId) (e : ReflexEntry) (n : ResultRingId) :
    (s.setReflex k e).resultRing n = s.resultRing n := rfl
@[simp] theorem setReflex_queue (s : State) (k : ReflexId) (e : ReflexEntry) (m : Line) :
    (s.setReflex k e).queue m = s.queue m := rfl

/-! ### setQueue -/

@[simp] theorem setQueue_device (s : State) (l : Line) (x : List QueuedCall) : (s.setQueue l x).device = s.device := rfl
@[simp] theorem setQueue_halt (s : State) (l : Line) (x : List QueuedCall) : (s.setQueue l x).halt = s.halt := rfl
@[simp] theorem setQueue_intEnable (s : State) (l : Line) (x : List QueuedCall) : (s.setQueue l x).intEnable = s.intEnable := rfl
@[simp] theorem setQueue_boot (s : State) (l : Line) (x : List QueuedCall) : (s.setQueue l x).boot = s.boot := rfl
@[simp] theorem setQueue_bootRead (s : State) (l : Line) (x : List QueuedCall) : (s.setQueue l x).bootRead = s.bootRead := rfl
@[simp] theorem setQueue_ms (s : State) (l : Line) (x : List QueuedCall) : (s.setQueue l x).ms = s.ms := rfl
@[simp] theorem setQueue_work (s : State) (l : Line) (x : List QueuedCall) : (s.setQueue l x).work = s.work := rfl
@[simp] theorem setQueue_results (s : State) (l : Line) (x : List QueuedCall) : (s.setQueue l x).results = s.results := rfl
@[simp] theorem setQueue_notice (s : State) (l : Line) (x : List QueuedCall) : (s.setQueue l x).notice = s.notice := rfl
@[simp] theorem setQueue_deviceEvent (s : State) (l : Line) (x : List QueuedCall) : (s.setQueue l x).deviceEvent = s.deviceEvent := rfl
@[simp] theorem setQueue_workFetch (s : State) (l : Line) (x : List QueuedCall) : (s.setQueue l x).workFetch = s.workFetch := rfl
@[simp] theorem setQueue_adminFetch (s : State) (l : Line) (x : List QueuedCall) : (s.setQueue l x).adminFetch = s.adminFetch := rfl
@[simp] theorem setQueue_admin (s : State) (l : Line) (x : List QueuedCall) : (s.setQueue l x).admin = s.admin := rfl
@[simp] theorem setQueue_imageWrite (s : State) (l : Line) (x : List QueuedCall) : (s.setQueue l x).imageWrite = s.imageWrite := rfl
@[simp] theorem setQueue_slots (s : State) (l : Line) (x : List QueuedCall) : (s.setQueue l x).slots = s.slots := rfl
@[simp] theorem setQueue_fetchSeq (s : State) (l : Line) (x : List QueuedCall) : (s.setQueue l x).fetchSeq = s.fetchSeq := rfl
@[simp] theorem setQueue_served (s : State) (l : Line) (x : List QueuedCall) : (s.setQueue l x).served = s.served := rfl
@[simp] theorem setQueue_lines (s : State) (l : Line) (x : List QueuedCall) : (s.setQueue l x).lines = s.lines := rfl
@[simp] theorem setQueue_nodes (s : State) (l : Line) (x : List QueuedCall) : (s.setQueue l x).nodes = s.nodes := rfl
@[simp] theorem setQueue_reflexes (s : State) (l : Line) (x : List QueuedCall) : (s.setQueue l x).reflexes = s.reflexes := rfl
@[simp] theorem setQueue_buffer (s : State) (l : Line) (x : List QueuedCall) : (s.setQueue l x).buffer = s.buffer := rfl
@[simp] theorem setQueue_lost (s : State) (l : Line) (x : List QueuedCall) : (s.setQueue l x).lost = s.lost := rfl
@[simp] theorem setQueue_draws (s : State) (l : Line) (x : List QueuedCall) : (s.setQueue l x).draws = s.draws := rfl
@[simp] theorem setQueue_resetPinLow (s : State) (l : Line) (x : List QueuedCall) : (s.setQueue l x).resetPinLow = s.resetPinLow := rfl
@[simp] theorem setQueue_pending (s : State) (l : Line) (x : List QueuedCall) : (s.setQueue l x).pending = s.pending := rfl
@[simp] theorem setQueue_engine (s : State) (l : Line) (x : List QueuedCall) (m : Line) :
    (s.setQueue l x).engine m = s.engine m := rfl
@[simp] theorem setQueue_table (s : State) (l : Line) (x : List QueuedCall) (m : Line) :
    (s.setQueue l x).table m = s.table m := rfl
@[simp] theorem setQueue_entry (s : State) (l : Line) (x : List QueuedCall) (m : Line) (b : Addr) :
    (s.setQueue l x).entry m b = s.entry m b := rfl
@[simp] theorem setQueue_slot (s : State) (l : Line) (x : List QueuedCall) (j : SlotId) :
    (s.setQueue l x).slot j = s.slot j := rfl
@[simp] theorem setQueue_workRing (s : State) (l : Line) (x : List QueuedCall) (n : WorkRingId) :
    (s.setQueue l x).workRing n = s.workRing n := rfl
@[simp] theorem setQueue_resultRing (s : State) (l : Line) (x : List QueuedCall) (n : ResultRingId) :
    (s.setQueue l x).resultRing n = s.resultRing n := rfl
@[simp] theorem setQueue_reflex (s : State) (l : Line) (x : List QueuedCall) (n : ReflexId) :
    (s.setQueue l x).reflex n = s.reflex n := rfl

/-! ## What each update reads back as -/

@[simp] theorem pair_get_set_self {α : Type} (p : Pair α) (l : Line) (v : α) :
    (p.set l v).get l = v := by cases l <;> rfl

theorem pair_get_set_other {α : Type} (p : Pair α) {l m : Line} (v : α) (h : m ≠ l) :
    (p.set l v).get m = p.get m := by
  cases l <;> cases m <;> first | rfl | exact absurd rfl h

@[simp] theorem engine_setEngine_self (s : State) (l : Line) (e : LineEngine) :
    (s.setEngine l e).engine l = e := pair_get_set_self _ _ _

theorem engine_setEngine_other (s : State) {l m : Line} (e : LineEngine) (h : m ≠ l) :
    (s.setEngine l e).engine m = s.engine m := pair_get_set_other _ _ h

@[simp] theorem table_setTable_self (s : State) (l : Line) (t : Vector NodeEntry 80) :
    (s.setTable l t).table l = t := pair_get_set_self _ _ _

theorem table_setTable_other (s : State) {l m : Line} (t : Vector NodeEntry 80) (h : m ≠ l) :
    (s.setTable l t).table m = s.table m := pair_get_set_other _ _ h

theorem table_setEntry_other (s : State) {l m : Line} (a : Addr) (e : NodeEntry) (h : m ≠ l) :
    (s.setEntry l a e).table m = s.table m := pair_get_set_other _ _ h

@[simp] theorem entry_setEntry_self (s : State) (l : Line) (a : Addr) (e : NodeEntry) :
    (s.setEntry l a e).entry l a = e := by
  simp [State.entry, State.setEntry]

theorem entry_setEntry_ne (s : State) (l : Line) {a b : Addr} (e : NodeEntry) (h : b ≠ a) :
    (s.setEntry l a e).entry l b = s.entry l b := by
  have : a.val ≠ b.val := fun x => h (Fin.ext x.symm)
  simp [State.entry, State.setEntry, Vector.getElem_set_ne _ _ this]

theorem entry_setEntry_other (s : State) {l m : Line} (a b : Addr) (e : NodeEntry) (h : m ≠ l) :
    (s.setEntry l a e).entry m b = s.entry m b := by
  simp only [State.entry, table_setEntry_other s a e h]

@[simp] theorem slot_setSlot_self (s : State) (i : SlotId) (x : Option Slot) :
    (s.setSlot i x).slot i = x := by
  simp [State.slot, State.setSlot]

theorem slot_setSlot_ne (s : State) {i j : SlotId} (x : Option Slot) (h : j ≠ i) :
    (s.setSlot i x).slot j = s.slot j := by
  have : i.val ≠ j.val := fun y => h (Fin.ext y.symm)
  simp [State.slot, State.setSlot, Vector.getElem_set_ne _ _ this]

@[simp] theorem workRing_setWorkRing_self (s : State) (r : WorkRingId) (w : WorkRing) :
    (s.setWorkRing r w).workRing r = w := by
  simp [State.workRing, State.setWorkRing]

theorem workRing_setWorkRing_ne (s : State) {r n : WorkRingId} (w : WorkRing) (h : n ≠ r) :
    (s.setWorkRing r w).workRing n = s.workRing n := by
  have : r.val ≠ n.val := fun y => h (Fin.ext y.symm)
  simp [State.workRing, State.setWorkRing, Vector.getElem_set_ne _ _ this]

@[simp] theorem resultRing_setResultRing_self (s : State) (q : ResultRingId) (x : ResultRing) :
    (s.setResultRing q x).resultRing q = x := by
  simp [State.resultRing, State.setResultRing]

theorem resultRing_setResultRing_ne (s : State) {q n : ResultRingId} (x : ResultRing) (h : n ≠ q) :
    (s.setResultRing q x).resultRing n = s.resultRing n := by
  have : q.val ≠ n.val := fun y => h (Fin.ext y.symm)
  simp [State.resultRing, State.setResultRing, Vector.getElem_set_ne _ _ this]

@[simp] theorem reflex_setReflex_self (s : State) (k : ReflexId) (e : ReflexEntry) :
    (s.setReflex k e).reflex k = e := by
  simp [State.reflex, State.setReflex]

theorem reflex_setReflex_ne (s : State) {k n : ReflexId} (e : ReflexEntry) (h : n ≠ k) :
    (s.setReflex k e).reflex n = s.reflex n := by
  have : k.val ≠ n.val := fun y => h (Fin.ext y.symm)
  simp [State.reflex, State.setReflex, Vector.getElem_set_ne _ _ this]

@[simp] theorem queue_setQueue_self (s : State) (l : Line) (x : List QueuedCall) :
    (s.setQueue l x).queue l = x := pair_get_set_self _ _ _

theorem queue_setQueue_other (s : State) {l m : Line} (x : List QueuedCall) (h : m ≠ l) :
    (s.setQueue l x).queue m = s.queue m := pair_get_set_other _ _ h

end Sys2Proof.Laws
end

