-- ==== Sys2Proof/Laws/Settle.lean ====
section
/-! SUPPORT. What judgements, ends of slots and grants of a line may change: one lemma for each
shared operation, each saying that its result is `LineKept`, and which slots it touches. -/

namespace Sys2Proof.Safety

open Sys2Proof.Machine

/-! ## The frames compose -/

theorem slotKept_refl (x : Slot) : SlotKept x x :=
  ⟨rfl, rfl, rfl, rfl, rfl, rfl, rfl, rfl, rfl, rfl, rfl, id⟩

theorem SlotKept.trans {x y z : Slot} (h : SlotKept x y) (k : SlotKept y z) : SlotKept x z :=
  ⟨k.1.trans h.1, k.2.trans h.2, k.3.trans h.3, k.4.trans h.4, k.5.trans h.5, k.6.trans h.6,
    k.7.trans h.7, k.8.trans h.8, k.9.trans h.9, k.10.trans h.10, k.11.trans h.11,
    fun e => k.12 (h.12 e)⟩

theorem engineKept_refl (x : LineEngine) : EngineKept x x := ⟨rfl, rfl, rfl, rfl, rfl, rfl, rfl⟩

theorem EngineKept.trans {x y z : LineEngine} (h : EngineKept x y) (k : EngineKept y z) :
    EngineKept x z :=
  ⟨k.1.trans h.1, k.2.trans h.2, k.3.trans h.3, k.4.trans h.4, k.5.trans h.5, k.6.trans h.6,
    k.7.trans h.7⟩

theorem entryKept_refl (x : NodeEntry) : EntryKept x x := ⟨rfl, rfl, rfl, rfl, rfl, rfl, rfl⟩

theorem EntryKept.trans {x y z : NodeEntry} (h : EntryKept x y) (k : EntryKept y z) :
    EntryKept x z :=
  ⟨k.1.trans h.1, k.2.trans h.2, k.3.trans h.3, k.4.trans h.4, k.5.trans h.5, k.6.trans h.6,
    k.7.trans h.7⟩

theorem lineKept_refl (l : Line) (s : State) : LineKept l s s where
  device := rfl
  halt := rfl
  intEnable := rfl
  boot := rfl
  bootRead := rfl
  ms := rfl
  work := rfl
  notice := rfl
  deviceEvent := rfl
  workFetch := rfl
  adminFetch := rfl
  admin := rfl
  imageWrite := rfl
  fetchSeq := rfl
  served := rfl
  reflexes := rfl
  queues := rfl
  buffer := rfl
  lost := rfl
  resetPinLow := rfl
  pending := rfl
  otherEngine _ _ := rfl
  engine := engineKept_refl _
  otherTable _ _ := rfl
  entry _ := entryKept_refl _
  out _ := rfl
  results _ := ⟨[], by simp⟩
  lostCount _ := .inl le_rfl
  free _ h := h
  otherSlot _ _ h _ := h
  slot _ y h := ⟨y, h, slotKept_refl y⟩

theorem LineKept.trans {l : Line} {s m t : State} (h : LineKept l s m) (k : LineKept l m t) :
    LineKept l s t where
  device := k.device.trans h.device
  halt := k.halt.trans h.halt
  intEnable := k.intEnable.trans h.intEnable
  boot := k.boot.trans h.boot
  bootRead := k.bootRead.trans h.bootRead
  ms := k.ms.trans h.ms
  work := k.work.trans h.work
  notice := k.notice.trans h.notice
  deviceEvent := k.deviceEvent.trans h.deviceEvent
  workFetch := k.workFetch.trans h.workFetch
  adminFetch := k.adminFetch.trans h.adminFetch
  admin := k.admin.trans h.admin
  imageWrite := k.imageWrite.trans h.imageWrite
  fetchSeq := k.fetchSeq.trans h.fetchSeq
  served := k.served.trans h.served
  reflexes := k.reflexes.trans h.reflexes
  queues := k.queues.trans h.queues
  buffer := k.buffer.trans h.buffer
  lost := k.lost.trans h.lost
  resetPinLow := k.resetPinLow.trans h.resetPinLow
  pending := k.pending.trans h.pending
  otherEngine m' hm := (k.otherEngine m' hm).trans (h.otherEngine m' hm)
  engine := h.engine.trans k.engine
  otherTable m' hm := (k.otherTable m' hm).trans (h.otherTable m' hm)
  entry a := (h.entry a).trans (k.entry a)
  out q := (k.out q).trans (h.out q)
  results q := by
    obtain ⟨x, hx⟩ := h.results q
    obtain ⟨y, hy⟩ := k.results q
    exact ⟨x ++ y, by rw [hy, hx, List.append_assoc]⟩
  lostCount q := by
    have := h.lostCount q
    have := k.lostCount q
    omega
  free i hi := k.free i (h.free i hi)
  otherSlot i x hx hl := k.otherSlot i x (h.otherSlot i x hx hl) hl
  slot i z hz := by
    obtain ⟨y, hy, ky⟩ := k.slot i z hz
    obtain ⟨x, hx, kx⟩ := h.slot i y hy
    exact ⟨x, hx, kx.trans ky⟩

/-- Two slots of one line stay on it. -/
theorem LineKept.slot_line {l : Line} {s t : State} (h : LineKept l s t) {i : SlotId} {x y : Slot}
    (hx : s.slot i = some x) (hy : t.slot i = some y) : y.line = x.line := by
  obtain ⟨x', hx', k⟩ := h.slot i y hy
  rw [hx] at hx'
  cases hx'
  exact k.line

end Sys2Proof.Safety

namespace Sys2Proof.Laws

open Sys2Proof.Machine Sys2Proof.Safety

/-! ## Single updates -/

theorem setSlot_lineKept {l : Line} {s : State} {i : SlotId} {x : Slot} (o : Option Slot)
    (hx : s.slot i = some x) (hl : x.line = l) (ho : ∀ y, o = some y → SlotKept x y) :
    LineKept l s (s.setSlot i o) :=
  { lineKept_refl l s with
    free := fun j hj => by
      by_cases e : j = i
      · subst e; rw [hx] at hj; cases hj
      · rw [slot_setSlot_ne s o e]; exact hj
    otherSlot := fun j y hy hne => by
      by_cases e : j = i
      · subst e; rw [hx] at hy; cases hy; exact absurd hl hne
      · rw [slot_setSlot_ne s o e]; exact hy
    slot := fun j y hy => by
      by_cases e : j = i
      · subst e; rw [slot_setSlot_self] at hy; exact ⟨x, hx, ho y hy⟩
      · rw [slot_setSlot_ne s o e] at hy; exact ⟨y, hy, slotKept_refl y⟩ }

theorem setSlot_some_lineKept {l : Line} {s : State} {i : SlotId} {x y : Slot}
    (hx : s.slot i = some x) (hl : x.line = l) (k : SlotKept x y) :
    LineKept l s (s.setSlot i (some y)) :=
  setSlot_lineKept _ hx hl fun _ h => by cases h; exact k

theorem setSlot_none_lineKept {l : Line} {s : State} {i : SlotId} {x : Slot}
    (hx : s.slot i = some x) (hl : x.line = l) : LineKept l s (s.setSlot i none) :=
  setSlot_lineKept _ hx hl fun _ h => by cases h

theorem setEntry_lineKept {l : Line} {s : State} {a : Addr} {e : NodeEntry}
    (k : EntryKept (s.entry l a) e) : LineKept l s (s.setEntry l a e) :=
  { lineKept_refl l s with
    otherTable := fun m hm => table_setEntry_other s a e hm
    entry := fun b => by
      by_cases h : b = a
      · subst h; rw [entry_setEntry_self]; exact k
      · rw [entry_setEntry_ne s l e h]; exact entryKept_refl _ }

theorem setEngine_lineKept {l : Line} {s : State} {e : LineEngine}
    (k : EngineKept (s.engine l) e) : LineKept l s (s.setEngine l e) :=
  { lineKept_refl l s with
    otherEngine := fun m hm => engine_setEngine_other s e hm
    engine := by rw [engine_setEngine_self]; exact k }

theorem setResultRing_lineKept {l : Line} {s : State} {q : ResultRingId} {r : ResultRing}
    (ho : r.out = (s.resultRing q).out)
    (hp : ∃ more, r.pending = (s.resultRing q).pending ++ more)
    (hl : (s.resultRing q).lost ≤ r.lost ∨ 65535 ≤ r.lost) :
    LineKept l s (s.setResultRing q r) :=
  { lineKept_refl l s with
    out := fun p => by
      by_cases h : p = q
      · subst h; rw [resultRing_setResultRing_self]; exact ho
      · rw [resultRing_setResultRing_ne s r h]
    results := fun p => by
      by_cases h : p = q
      · subst h; rw [resultRing_setResultRing_self]; exact hp
      · rw [resultRing_setResultRing_ne s r h]; exact ⟨[], by simp⟩
    lostCount := fun p => by
      by_cases h : p = q
      · subst h; rw [resultRing_setResultRing_self]; exact hl
      · rw [resultRing_setResultRing_ne s r h]; exact .inl le_rfl }

theorem draws_lineKept (l : Line) (s : State) (n : Nat) : LineKept l s { s with draws := n } :=
  { lineKept_refl l s with }

/-! ## Ends of slots -/

theorem submitResult_lineKept {l : Line} {s : State} {q : ResultRingId} {r : ResultRecord}
    {i : SlotId} {x : Slot} (hr : r.sender = .slot i) (hx : s.slot i = some x) (hl : x.line = l) :
    LineKept l s (submitResult q r s) := by
  have lost : LineKept l s (loseResult q s r) := by
    unfold loseResult
    have h1 : LineKept l s (s.setResultRing q
        { s.resultRing q with lost := min 65535 ((s.resultRing q).lost + 1) }) :=
      setResultRing_lineKept rfl ⟨[], by simp⟩ (by dsimp only; omega)
    refine h1.trans ?_
    rw [hr]
    exact setSlot_none_lineKept (x := x) (by rw [setResultRing_slot]; exact hx) hl
  unfold submitResult
  dsimp only
  split
  · exact setResultRing_lineKept rfl ⟨_, rfl⟩ (.inl le_rfl)
  · exact lost
  · exact lost

theorem releaseLock_lineKept (l : Line) (a : Addr) (i : SlotId) (s : State) :
    LineKept l s (releaseLock l a i s) := by
  unfold releaseLock
  split
  · exact setEntry_lineKept ⟨rfl, rfl, rfl, rfl, rfl, rfl, rfl⟩
  · exact lineKept_refl l s

theorem acquireLock_lineKept (l : Line) (a : Addr) (i : SlotId) (s : State) :
    LineKept l s (acquireLock l a i s) := setEntry_lineKept ⟨rfl, rfl, rfl, rfl, rfl, rfl, rfl⟩

theorem commitUpdate_lineKept (l : Line) (w : ParamWork) (s : State) :
    LineKept l s (commitUpdate l w s) := by
  unfold commitUpdate
  cases w.outcome
  · exact lineKept_refl l s
  all_goals exact setEntry_lineKept ⟨rfl, rfl, rfl, rfl, rfl, rfl, rfl⟩

theorem commitUpdate_slot (l : Line) (w : ParamWork) (s : State) (i : SlotId) :
    (commitUpdate l w s).slot i = s.slot i := by
  unfold commitUpdate
  cases w.outcome <;> rfl

theorem releaseLock_slot (l : Line) (a : Addr) (j : SlotId) (s : State) (i : SlotId) :
    (releaseLock l a j s).slot i = s.slot i := by
  unfold releaseLock
  split <;> rfl

theorem finishSlot_lineKept {l : Line} {s : State} {i : SlotId} {x : Slot} (st : Status)
    (hx : s.slot i = some x) (hl : x.line = l) : LineKept l s (finishSlot i st s) := by
  have finish : ∀ (m : State) (r : ResultRecord) (y : Slot) (q : ResultRingId),
      LineKept l s m → m.slot i = some x → SlotKept x y → r.sender = .slot i →
      LineKept l s (submitResult q r (m.setSlot i (some y))) := by
    intro m r y q hm hmx k hr
    refine hm.trans ((setSlot_some_lineKept hmx hl k).trans ?_)
    exact submitResult_lineKept hr (slot_setSlot_self m i (some y)) (k.line.trans hl)
  unfold finishSlot
  rw [hx]
  refine finish _ _ _ _ ?_ ?_ ⟨rfl, rfl, rfl, rfl, rfl, rfl, rfl, rfl, rfl, rfl, rfl, id⟩ rfl
  · cases x.work
    case param w => exact hl ▸ releaseLock_lineKept _ _ _ _
    all_goals exact lineKept_refl l s
  · cases x.work
    case param w => exact (releaseLock_slot _ _ _ _ _).trans hx
    all_goals exact hx

theorem finishCommit_lineKept {l : Line} {s : State} {i : SlotId} {x sl : Slot} (w : ParamWork)
    (st : Status) (narrow : Bool) (hx : s.slot i = some x) (hl : x.line = l) (k : SlotKept x sl) :
    LineKept l s (finishCommit i sl w st narrow s) := by
  unfold finishCommit
  have k' : SlotKept x { sl with work := .param { w with outcome := commitOutcome st narrow w } } :=
    ⟨k.1, k.2, k.3, k.4, k.5, k.6, k.7, k.8, k.9, k.10, k.11, k.12⟩
  have hs : sl.line = l := k.line.trans hl
  refine (setSlot_some_lineKept hx hl k').trans ?_
  split
  · have h := commitUpdate_lineKept sl.line { w with outcome := commitOutcome st narrow w } (s.setSlot i
      (some { sl with work := .param { w with outcome := commitOutcome st narrow w } }))
    exact (hs ▸ h : LineKept l _ _).trans
      (finishSlot_lineKept st ((commitUpdate_slot _ _ _ _).trans (slot_setSlot_self _ _ _)) hs)
  · exact finishSlot_lineKept st (slot_setSlot_self _ _ _) hs

theorem endSlot_lineKept {l : Line} {s : State} {i : SlotId} {x : Slot} (st : Status) (narrow : Bool)
    (hx : s.slot i = some x) (hl : x.line = l) : LineKept l s (endSlot i st narrow s) := by
  cases hw : x.work <;> simp only [endSlot, hx, hw]
  case param w => exact finishCommit_lineKept w st narrow hx hl (slotKept_refl x)
  case discover w =>
    refine (setSlot_some_lineKept hx hl ?_).trans
      (finishSlot_lineKept st (slot_setSlot_self _ _ _) hl)
    exact ⟨rfl, rfl, rfl, rfl, rfl, rfl, rfl, rfl, rfl, rfl, rfl, id⟩
  all_goals exact finishSlot_lineKept st hx hl

/-- The end of a slot after its work fields have been replaced. -/
theorem endSlot_after_lineKept {l : Line} {s : State} {i : SlotId} {x y : Slot} (st : Status)
    (narrow : Bool) (hx : s.slot i = some x) (hl : x.line = l) (k : SlotKept x y) :
    LineKept l s (endSlot i st narrow (s.setSlot i (some y))) :=
  (setSlot_some_lineKept hx hl k).trans
    (endSlot_lineKept st narrow (slot_setSlot_self _ _ _) (k.line.trans hl))

/-! ## Judgement -/

theorem endTimedOut_lineKept {l : Line} {s : State} {i : SlotId} {x : Slot}
    (hx : s.slot i = some x) (hl : x.line = l) : LineKept l s (endTimedOut i s) := by
  unfold endTimedOut
  rw [hx]
  exact endSlot_lineKept _ _ hx hl

theorem withChoice_kept (s : State) (i : SlotId) (x : Slot) : SlotKept x (x.withChoice s i) := by
  unfold Slot.withChoice
  split <;> exact ⟨rfl, rfl, rfl, rfl, rfl, rfl, rfl, rfl, rfl, rfl, rfl, id⟩

theorem judgeLate_lineKept {l : Line} {s : State} {i : SlotId} {x y : Slot}
    (hx : s.slot i = some x) (hl : x.line = l) (k : SlotKept x y) :
    LineKept l s (judgeLate i y s) := by
  have put : ∀ st : SlotState, SlotKept x { y with state := st } := fun st =>
    ⟨k.1, k.2, k.3, k.4, k.5, k.6, k.7, k.8, k.9, k.10, k.11, k.12⟩
  unfold judgeLate
  split
  · exact endSlot_after_lineKept _ _ hx hl k
  · split
    · exact setSlot_some_lineKept hx hl (put _)
    · split
      · exact endSlot_lineKept _ _ hx hl
      · exact setSlot_some_lineKept hx hl (put _)

theorem judgeSlot_lineKept {l : Line} {s : State} {i : SlotId} {x : Slot}
    (hx : s.slot i = some x) (hl : x.line = l) : LineKept l s (judgeSlot i s) := by
  unfold judgeSlot
  rw [hx]
  dsimp only
  split
  · split
    · split
      · exact endTimedOut_lineKept hx hl
      · exact setSlot_some_lineKept hx hl ⟨rfl, rfl, rfl, rfl, rfl, rfl, rfl, rfl, rfl, rfl, rfl, id⟩
    · exact judgeLate_lineKept hx hl (withChoice_kept s i x)
  · exact lineKept_refl l s

/-- A fold of settling steps settles. -/
theorem foldl_lineKept {α : Type} {l : Line} (f : State → α → State)
    (hf : ∀ s x, LineKept l s (f s x)) (xs : List α) (s : State) :
    LineKept l s (xs.foldl f s) := by
  induction xs generalizing s with
  | nil => exact lineKept_refl l s
  | cons x xs ih => exact (hf s x).trans (ih _)

theorem judgeRound_lineKept (l : Line) (s : State) : LineKept l s (judgeRound l s) := by
  refine foldl_lineKept _ (fun s i => ?_) _ _
  unfold onLine
  cases hx : s.slot i with
  | none => exact lineKept_refl l s
  | some x =>
    dsimp only
    split
    · rename_i h
      exact judgeSlot_lineKept hx (by simpa using h)
    · exact lineKept_refl l s

theorem judgeLoop_lineKept (n : Nat) (l : Line) (s : State) : LineKept l s (judgeLoop n l s) := by
  induction n generalizing s with
  | zero => exact lineKept_refl l s
  | succ n ih =>
    unfold judgeLoop
    dsimp only
    split
    · exact (judgeRound_lineKept l s).trans (ih _)
    · exact judgeRound_lineKept l s

theorem judgeLine_lineKept (l : Line) (s : State) : LineKept l s (judgeLine l s) :=
  judgeLoop_lineKept _ l s

/-! ## Grants -/

/-- A try of a usable line keeps it usable. -/
theorem beginTry_lineKept {l : Line} {s : State} (hu : (s.engine l).state.usable = true) :
    LineKept l s (beginTry l s) := by
  unfold beginTry
  dsimp only
  split
  · exact lineKept_refl l s
  · exact setEngine_lineKept ⟨hu.symm, rfl, rfl, rfl, rfl, rfl, rfl⟩

theorem afterGap_lineKept {l : Line} {s : State} (hu : (s.engine l).state.usable = true) :
    LineKept l s (afterGap l s) := by
  unfold afterGap
  split
  · exact beginTry_lineKept hu
  · exact setEngine_lineKept ⟨rfl, rfl, rfl, rfl, rfl, rfl, rfl⟩

theorem beginStep_lineKept {l : Line} {s : State} (c : Call) (limit : Nat)
    (hu : (s.engine l).state.usable = true) : LineKept l s (beginStep l c limit s) := by
  unfold beginStep
  refine (setEngine_lineKept ?_).trans (afterGap_lineKept ?_)
  · exact ⟨rfl, rfl, rfl, rfl, rfl, rfl, rfl⟩
  · rw [engine_setEngine_self]
    exact hu

theorem grantStep_lineKept {l : Line} {s : State} (h : Holder) (c : Call) (limit : Nat)
    (hu : (s.engine l).state.usable = true) : LineKept l s (grantStep l h c limit s) := by
  unfold grantStep
  refine (setEngine_lineKept ?_).trans (beginStep_lineKept _ _ ?_)
  · exact ⟨rfl, rfl, rfl, rfl, rfl, rfl, rfl⟩
  · rw [engine_setEngine_self]
    exact hu

theorem grantReflex_lineKept {l : Line} {s : State} (hu : (s.engine l).state.usable = true) :
    LineKept l s (grantReflex l s) := by
  unfold grantReflex
  split
  · exact lineKept_refl l s
  · exact grantStep_lineKept _ _ _ hu

theorem grantListen_lineKept {l : Line} {s : State} (hu : (s.engine l).state.usable = true) :
    LineKept l s (grantListen l s) := by
  have finish : ∀ e : LineEngine, EngineKept (s.engine l) e →
      LineKept l s (grantStep l .series listenCall 0 (s.setEngine l e)) := by
    intro e k
    refine (setEngine_lineKept k).trans (grantStep_lineKept _ _ _ ?_)
    rw [engine_setEngine_self, k.usable]
    exact hu
  unfold grantListen
  dsimp only
  split <;> exact finish _ ⟨rfl, rfl, rfl, rfl, rfl, rfl, rfl⟩

theorem atGrant_kept (x : Slot) (w : Work) : SlotKept x (x.atGrant w) :=
  ⟨rfl, rfl, rfl, rfl, rfl, rfl, rfl, rfl, rfl, rfl, rfl, fun _ => rfl⟩

/-- A grant to a slot whose fields the state has taken. -/
theorem grantStep_after_lineKept {l : Line} {s m : State} (h : Holder) (c : Call) (limit : Nat)
    (hu : (s.engine l).state.usable = true) (hm : LineKept l s m) :
    LineKept l s (grantStep l h c limit m) :=
  hm.trans (grantStep_lineKept h c limit (by rw [hm.engine.usable]; exact hu))

theorem commitAtGrant_lineKept {l : Line} {s : State} {i : SlotId} {x : Slot} (w : ParamWork)
    (hx : s.slot i = some x) (hl : x.line = l) : LineKept l s (commitAtGrant i x w s) := by
  unfold commitAtGrant
  split
  · exact setSlot_some_lineKept hx hl (atGrant_kept x _)
  · have k : SlotKept x { x.atGrant (.param w) with budgetAt := some (budgetDeadline s x w) } :=
      ⟨rfl, rfl, rfl, rfl, rfl, rfl, rfl, rfl, rfl, rfl, rfl, fun _ => rfl⟩
    have h := acquireLock_lineKept x.line w.addr i (s.setSlot i
      (some { x.atGrant (.param w) with budgetAt := some (budgetDeadline s x w) }))
    exact (setSlot_some_lineKept hx hl k).trans (hl ▸ h)

theorem discoverAtGrant_lineKept (l : Line) (w : DiscoverWork) (s : State) :
    LineKept l s (discoverAtGrant w s).2 := by
  unfold discoverAtGrant
  cases w.phase
  · exact draws_lineKept l s _
  all_goals exact lineKept_refl l s

theorem discoverAtGrant_slot (w : DiscoverWork) (s : State) (i : SlotId) :
    (discoverAtGrant w s).2.slot i = s.slot i := by
  unfold discoverAtGrant
  cases w.phase <;> rfl

theorem grantSlot_lineKept {l : Line} {s : State} {i : SlotId} {x : Slot}
    (hu : (s.engine l).state.usable = true) (hx : s.slot i = some x) (hl : x.line = l) :
    LineKept l s (grantSlot i x s) := by
  unfold grantSlot
  cases hw : x.work
  case call w =>
    unfold grantCall
    rw [hl]
    exact grantStep_after_lineKept _ _ _ hu (setSlot_some_lineKept hx hl (atGrant_kept x _))
  case sweep w =>
    unfold grantSweep
    dsimp only
    split
    · exact lineKept_refl l s
    · rw [hl]
      exact grantStep_after_lineKept _ _ _ hu (setSlot_some_lineKept hx hl (atGrant_kept x _))
  case param w =>
    unfold grantCommit
    dsimp only
    split
    · exact lineKept_refl l s
    · have k := commitAtGrant_lineKept (i := i) (w.atGrant s x) hx hl
      rw [hl]
      exact grantStep_after_lineKept _ _ _ hu k
  case discover w =>
    unfold grantDiscover
    dsimp only
    split
    · exact lineKept_refl l s
    · have k := discoverAtGrant_lineKept l w s
      have hx' : (discoverAtGrant w s).2.slot i = some x := by rw [discoverAtGrant_slot]; exact hx
      rw [hl]
      exact grantStep_after_lineKept _ _ _ hu
        (k.trans (setSlot_some_lineKept hx' hl (atGrant_kept x _)))
  case unknown => exact lineKept_refl l s

/-- The slot that the arbiter chooses is a READY slot of the line (R35). -/
theorem chooseSlot_ready {s : State} {l : Line} {i : SlotId} {x : Slot}
    (h : chooseSlot s l = some (i, x)) : s.slot i = some x ∧ x.state = .ready ∧ x.line = l := by
  have key : ∀ (is : List SlotId) (best : Option (SlotId × Slot)),
      (∀ p, best = some p → s.slot p.1 = some p.2 ∧ p.2.state = .ready ∧ p.2.line = l) →
      ∀ p, is.foldl (betterSlot s l) best = some p →
        s.slot p.1 = some p.2 ∧ p.2.state = .ready ∧ p.2.line = l := by
    intro is
    induction is with
    | nil => exact fun best hb p hp => hb p hp
    | cons j is ih =>
      intro best hb
      refine ih _ ?_
      intro p hp
      unfold betterSlot at hp
      split at hp
      · exact hb p hp
      · rename_i sl hj
        split at hp
        · rename_i hr
          have new : s.slot j = some sl ∧ sl.state = .ready ∧ sl.line = l := ⟨hj, hr⟩
          split at hp
          · cases hp; exact new
          · split at hp
            · cases hp; exact new
            · exact hb p hp
        · exact hb p hp
  exact key allSlots none (fun p hp => by cases hp) (i, x) h

theorem arbiter_lineKept (l : Line) (s : State) : LineKept l s (arbiter l s) := by
  unfold arbiter
  split
  · rename_i h
    have hidle : (s.engine l).state = .idle := by
      have := h.2
      simp only [lineFree, Bool.and_eq_true, beq_iff_eq] at this
      exact this.1.1
    have hu : (s.engine l).state.usable = true := by rw [hidle]; rfl
    split
    · exact grantReflex_lineKept hu
    · split
      · exact grantListen_lineKept hu
      · split
        · rename_i i sl hc
          have k := chooseSlot_ready hc
          exact grantSlot_lineKept hu k.1 k.2.2
        · exact lineKept_refl l s
  · exact lineKept_refl l s

theorem settleLine_lineKept (l : Line) (s : State) : LineKept l s (settleLine l s) :=
  (judgeLine_lineKept l s).trans ((arbiter_lineKept l _).trans (judgeLine_lineKept l _))

/-! ## Which slots they touch -/

theorem setSlot_other (s : State) {i j : SlotId} (o : Option Slot) (h : j ≠ i) :
    (s.setSlot i o).slot j = s.slot j := slot_setSlot_ne s o h

theorem submitResult_other (q : ResultRingId) (r : ResultRecord) (s : State) {i j : SlotId}
    (hr : r.sender = .slot i) (h : j ≠ i) : (submitResult q r s).slot j = s.slot j := by
  have lose : (loseResult q s r).slot j = s.slot j := by
    unfold loseResult
    rw [hr]
    exact (setSlot_other _ none h).trans rfl
  unfold submitResult
  dsimp only
  split
  · rfl
  · exact lose
  · exact lose

/-- The end of a slot touches no other slot. -/
theorem finishSlot_other (st : Status) (s : State) {i j : SlotId} (h : j ≠ i) :
    (finishSlot i st s).slot j = s.slot j := by
  unfold finishSlot
  split
  · rfl
  · rename_i x hx
    refine (submitResult_other _ _ _ rfl h).trans ((setSlot_other _ _ h).trans ?_)
    cases x.work
    case param w => exact releaseLock_slot _ _ _ _ _
    all_goals rfl

theorem endSlot_other (st : Status) (narrow : Bool) (s : State) {i j : SlotId} (h : j ≠ i) :
    (endSlot i st narrow s).slot j = s.slot j := by
  unfold endSlot
  split
  · rfl
  · split
    · unfold finishCommit
      refine (finishSlot_other st _ h).trans ?_
      split
      · exact (commitUpdate_slot _ _ _ _).trans (setSlot_other _ _ h)
      · exact setSlot_other _ _ h
    · exact (finishSlot_other st _ h).trans (setSlot_other _ _ h)
    all_goals exact finishSlot_other st s h

theorem judgeLate_other (x : Slot) (s : State) {i j : SlotId} (h : j ≠ i) :
    (judgeLate i x s).slot j = s.slot j := by
  unfold judgeLate
  split
  · exact (endSlot_other _ _ _ h).trans (setSlot_other _ _ h)
  · split
    · exact setSlot_other _ _ h
    · split
      · exact endSlot_other _ _ _ h
      · exact setSlot_other _ _ h

theorem judgeSlot_other (s : State) {i j : SlotId} (h : j ≠ i) :
    (judgeSlot i s).slot j = s.slot j := by
  unfold judgeSlot
  split
  · rfl
  · split
    · split
      · split
        · unfold endTimedOut
          split
          · rfl
          · exact endSlot_other _ _ _ h
        · exact setSlot_other _ _ h
      · exact judgeLate_other _ _ h
    · rfl

/-- A slot that is not WAITING or READY is not judged (R70). -/
def Still (s t : State) : Prop :=
  ∀ i x, s.slot i = some x → x.judged = false → t.slot i = some x

theorem still_refl (s : State) : Still s s := fun _ _ h _ => h

theorem still_trans {s m t : State} (h : Still s m) (k : Still m t) : Still s t :=
  fun i x e j => k i x (h i x e j) j

theorem still_of_slots {s t : State} (h : ∀ i, t.slot i = s.slot i) : Still s t :=
  fun i _ e _ => (h i).trans e

theorem judgeSlot_still (i : SlotId) (s : State) : Still s (judgeSlot i s) := by
  intro j x hx hj
  by_cases h : j = i
  · subst h
    simp only [judgeSlot, hx, hj, Bool.false_eq_true, if_false]
  · exact (judgeSlot_other s h).trans hx

theorem foldl_still {α : Type} (f : State → α → State) (hf : ∀ s x, Still s (f s x)) (xs : List α)
    (s : State) : Still s (xs.foldl f s) := by
  induction xs generalizing s with
  | nil => exact still_refl s
  | cons x xs ih => exact still_trans (hf s x) (ih _)

theorem judgeRound_still (l : Line) (s : State) : Still s (judgeRound l s) := by
  refine foldl_still _ (fun s i => ?_) _ _
  split
  · exact judgeSlot_still i s
  · exact still_refl s

theorem judgeLoop_still (n : Nat) (l : Line) (s : State) : Still s (judgeLoop n l s) := by
  induction n generalizing s with
  | zero => exact still_refl s
  | succ n ih =>
    unfold judgeLoop
    dsimp only
    split
    · exact still_trans (judgeRound_still l s) (ih _)
    · exact judgeRound_still l s

theorem judgeLine_still (l : Line) (s : State) : Still s (judgeLine l s) := judgeLoop_still _ l s

theorem beginTry_slot (l : Line) (s : State) (j : SlotId) : (beginTry l s).slot j = s.slot j := by
  unfold beginTry
  dsimp only
  split <;> rfl

theorem grantStep_slot (l : Line) (h : Holder) (c : Call) (n : Nat) (s : State) (j : SlotId) :
    (grantStep l h c n s).slot j = s.slot j := by
  unfold grantStep beginStep afterGap
  split
  · exact (beginTry_slot _ _ _).trans rfl
  · rfl

theorem commitAtGrant_other (x : Slot) (w : ParamWork) (s : State) {i j : SlotId} (h : j ≠ i) :
    (commitAtGrant i x w s).slot j = s.slot j := by
  unfold commitAtGrant
  split
  · exact setSlot_other _ _ h
  · exact (setSlot_other s _ h : _)

theorem grantSlot_other (x : Slot) (s : State) {i j : SlotId} (h : j ≠ i) :
    (grantSlot i x s).slot j = s.slot j := by
  unfold grantSlot
  split
  · exact (grantStep_slot _ _ _ _ _ _).trans (setSlot_other _ _ h)
  · unfold grantSweep
    split
    · rfl
    · exact (grantStep_slot _ _ _ _ _ _).trans (setSlot_other _ _ h)
  · unfold grantCommit
    dsimp only
    split
    · rfl
    · exact (grantStep_slot _ _ _ _ _ _).trans (commitAtGrant_other _ _ _ h)
  · unfold grantDiscover
    dsimp only
    split
    · rfl
    · exact (grantStep_slot _ _ _ _ _ _).trans
        ((setSlot_other _ _ h).trans (discoverAtGrant_slot _ _ _))
  · rfl

theorem arbiter_still (l : Line) (s : State) : Still s (arbiter l s) := by
  unfold arbiter
  split
  · split
    · unfold grantReflex
      split
      · exact still_refl s
      · exact still_of_slots fun _ => grantStep_slot _ _ _ _ _ _
    · split
      · exact still_of_slots fun _ => (grantStep_slot _ _ _ _ _ _).trans rfl
      · split
        · rename_i i sl hc
          have k := chooseSlot_ready hc
          intro j x hx hj
          by_cases h : j = i
          · subst h
            rw [k.1] at hx
            cases hx
            rw [Slot.judged, k.2.1] at hj
            cases hj
          · exact (grantSlot_other sl s h).trans hx
        · exact still_refl s
  · exact still_refl s

/-! ## The engines under a judgement -/

theorem submitResult_lines (q : ResultRingId) (r : ResultRecord) (s : State) :
    (submitResult q r s).lines = s.lines := by
  have lose : (loseResult q s r).lines = s.lines := by
    unfold loseResult tellSender
    split <;> rfl
  unfold submitResult
  dsimp only
  split
  · rfl
  · exact lose
  · exact lose

theorem finishSlot_lines (i : SlotId) (st : Status) (s : State) :
    (finishSlot i st s).lines = s.lines := by
  unfold finishSlot
  split
  · rfl
  · rename_i x _
    refine (submitResult_lines _ _ _).trans ?_
    cases x.work
    case param w =>
      show (releaseLock x.line w.addr i s).lines = s.lines
      unfold releaseLock
      split <;> rfl
    all_goals rfl

/-- The end of a slot leaves every engine as it is. -/
theorem endSlot_lines (i : SlotId) (st : Status) (narrow : Bool) (s : State) :
    (endSlot i st narrow s).lines = s.lines := by
  unfold endSlot
  split
  · rfl
  · split
    · unfold finishCommit
      refine (finishSlot_lines _ _ _).trans ?_
      split
      · unfold commitUpdate
        split <;> rfl
      · rfl
    · exact (finishSlot_lines _ _ _).trans rfl
    all_goals exact finishSlot_lines _ _ _

theorem judgeSlot_lines (i : SlotId) (s : State) : (judgeSlot i s).lines = s.lines := by
  unfold judgeSlot
  split
  · rfl
  · split
    · split
      · split
        · unfold endTimedOut
          split
          · rfl
          · exact endSlot_lines _ _ _ _
        · rfl
      · unfold judgeLate
        split
        · exact (endSlot_lines _ _ _ _).trans rfl
        · split
          · rfl
          · split
            · exact endSlot_lines _ _ _ _
            · rfl
    · rfl

theorem judgeRound_lines (l : Line) (s : State) : (judgeRound l s).lines = s.lines := by
  unfold judgeRound
  generalize allSlots = is
  induction is generalizing s with
  | nil => rfl
  | cons i is ih =>
    refine (ih _).trans ?_
    dsimp only
    split
    · exact judgeSlot_lines i s
    · rfl

theorem judgeLine_lines (l : Line) (s : State) : (judgeLine l s).lines = s.lines := by
  unfold judgeLine
  generalize holdingOn s l + 1 = n
  induction n generalizing s with
  | zero => rfl
  | succ n ih =>
    unfold judgeLoop
    dsimp only
    split
    · exact (ih _).trans (judgeRound_lines l s)
    · exact judgeRound_lines l s

/-- A line that may not be granted keeps its engine under the judgement and the decision. -/
theorem settleLine_held (l : Line) (s : State) (h : lineFree s l = false) :
    (settleLine l s).engine l = s.engine l := by
  have e : (judgeLine l s).engine l = s.engine l := by
    simp only [State.engine, judgeLine_lines]
  have f : lineFree (judgeLine l s) l = false := by
    unfold lineFree at h ⊢
    rw [e]
    exact h
  have g : arbiter l (judgeLine l s) = judgeLine l s := by
    unfold arbiter
    rw [f]
    simp
  unfold settleLine
  rw [g]
  simp only [State.engine, judgeLine_lines]

/-- The judgement and the decision after an event of a line change only what `Settled` allows. -/
theorem settleLine_settled (l : Line) (s : State) : Settled l s (settleLine l s) where
  exact := rfl
  kept := settleLine_lineKept l s
  still :=
    still_trans (judgeLine_still l s) (still_trans (arbiter_still l _) (judgeLine_still l _))
  held := settleLine_held l s

end Sys2Proof.Laws
end

