-- ==== Sys2Proof/Laws/Service.lean ====
section
/-! SUPPORT. What the ring unit, the allocation arbiter and the admin unit do of themselves after an
event: one lemma for each shared operation, and that their whole is `Serviced`. -/

namespace Sys2Proof.Laws

open Sys2Proof.Machine Sys2Proof.Safety

/-! ## Judgement of the work rings -/

@[simp] theorem judgeRings_workRing (s : State) (r : WorkRingId) :
    (judgeRings s).workRing r =
      if r = 0 then s.workRing 0
      else { s.workRing r with state := judgedState s (s.workRing r) } := by
  simp [judgeRings, State.workRing]

/-- The judgement of the work rings changes their states alone. -/
theorem judgeRings_rest (s : State) : { judgeRings s with work := s.work } = s := rfl

theorem judgedState_kept (s : State) (w : WorkRing) :
    WorkKept w { w with state := judgedState s w } := by
  have states : judgedState s w = w.state ∨
      ((w.state = .active ∨ w.state = .held) ∧
        (judgedState s w = .active ∨ judgedState s w = .held)) := by
    unfold judgedState
    cases w.state <;> dsimp only <;> (try split) <;> simp
  refine ⟨rfl, ?_, ?_, ?_, ?_⟩ <;> intro h <;> rcases states with e | ⟨e, f⟩
  all_goals first
    | exact e.trans h
    | exact f
    | exact .inl (e.trans h)
    | (show judgedState s w = _ ∨ _; rw [e]; exact h)
    | (rw [h] at e; simp at e)

theorem judgeRings_kept (s : State) (r : WorkRingId) :
    WorkKept (s.workRing r) ((judgeRings s).workRing r) := by
  rw [judgeRings_workRing]
  split
  · rename_i h
    subst h
    exact ⟨rfl, id, id, .inl, id⟩
  · exact judgedState_kept s _

/-! ## Answers of the admin unit -/

/-- The answer of the current request joins result ring 0 while that ring is ACTIVE. -/
theorem adminAnswer_active {s : State} {a : AdminRequest} (ha : s.admin = some a)
    (hr : (s.resultRing 0).out.state = .active) (st : Status) (d : List Byte) :
    adminAnswer st d s = answered a.code a.tag st d s := by
  simp only [adminAnswer, ha, submitResult, State.resultRing] at hr ⊢
  simp only [hr]
  rfl

/-- On a result ring 0 that is not ACTIVE the answer is counted lost, and no request is current. -/
theorem adminAnswer_lost {s : State} {a : AdminRequest} (ha : s.admin = some a)
    (hr : (s.resultRing 0).out.state ≠ .active) (st : Status) (d : List Byte) :
    adminAnswer st d s = { s.setResultRing 0 { s.resultRing 0 with
      lost := min 65535 ((s.resultRing 0).lost + 1) } with admin := none } := by
  simp only [adminAnswer, ha, submitResult, State.resultRing] at hr ⊢
  cases h : (s.results[(0 : ResultRingId)]).out.state
  · rfl
  · exact absurd h hr
  · rfl

/-! ## Closing -/

theorem shutRings_workRing (s : State) (r : WorkRingId) :
    (shutRings s).workRing r =
      if s.workCloses r then { s.workRing r with state := .closed } else s.workRing r := by
  simp [shutRings, State.workRing]

theorem shutRings_resultRing (s : State) (q : ResultRingId) :
    (shutRings s).resultRing q =
      if s.resultCloses q then { s.resultRing q with out := (s.resultRing q).out.closed }
      else s.resultRing q := by
  simp [shutRings, State.resultRing]

theorem shutRings_resultRing_zero (s : State) : (shutRings s).resultRing 0 = s.resultRing 0 := by
  rw [shutRings_resultRing]
  simp [State.resultCloses]

/-- A CLOSE is answered only while a request is current. -/
theorem closeDetail_admin {s : State} {d : List Byte} (h : closeDetail s = some d) :
    ∃ a, s.admin = some a := by
  unfold closeDetail at h
  split at h
  · cases h
  · exact ⟨_, by assumption⟩

/-- The closed rings with the answer of the CLOSE that waited for one. -/
def closeAnswered (s : State) : State :=
  match closeDetail s with
  | none => shutRings s
  | some d => adminAnswer .ok d (shutRings s)

/-- The rest of a state, where the closing of rings and its answer may change it. -/
def restOf (s m : State) : State :=
  { m with work := s.work, results := s.results, notice := s.notice, admin := s.admin }

theorem restOf_answered (s m : State) (code : Byte) (tag : Word) (st : Status) (d : List Byte) :
    restOf s (answered code tag st d m) = restOf s m := rfl

theorem restOf_lost (s m : State) (q : ResultRingId) (x : ResultRing) :
    restOf s { m.setResultRing q x with admin := none } = restOf s m := rfl

/-- What the closing of the rings and its answer leave unchanged, and what they change. -/
structure Closed (s c : State) : Prop where
  rest : restOf s c = s
  work : c.work = (shutRings s).work
  notice : c.notice = if s.noticeCloses = true then s.notice.closed else s.notice
  out : ∀ q, (c.resultRing q).out =
    if s.resultCloses q = true then (s.resultRing q).out.closed else (s.resultRing q).out
  other : ∀ q, q ≠ 0 → (c.resultRing q).pending = (s.resultRing q).pending ∧
    (c.resultRing q).lost = (s.resultRing q).lost
  admin : closeDetail s = none →
    c.admin = s.admin ∧ (c.resultRing 0).pending = (s.resultRing 0).pending ∧
      (c.resultRing 0).lost = (s.resultRing 0).lost
  answer : ∀ a d, s.admin = some a → closeDetail s = some d →
    if (s.resultRing 0).out.state = .active then
      c.admin = some { a with phase := .answered } ∧
        (c.resultRing 0).pending = (s.resultRing 0).pending ++
          [{ sender := .admin, code := a.code, status := .ok, ring := 0, tag := a.tag,
             detail := d }] ∧
        (c.resultRing 0).lost = (s.resultRing 0).lost
    else
      c.admin = none ∧ (c.resultRing 0).pending = (s.resultRing 0).pending ∧
        (c.resultRing 0).lost = min 65535 ((s.resultRing 0).lost + 1)

theorem shutRings_out (s : State) (q : ResultRingId) :
    ((shutRings s).resultRing q).out =
      if s.resultCloses q = true then (s.resultRing q).out.closed else (s.resultRing q).out := by
  rw [shutRings_resultRing]
  split <;> rfl

theorem shutRings_other (s : State) (q : ResultRingId) :
    ((shutRings s).resultRing q).pending = (s.resultRing q).pending ∧
      ((shutRings s).resultRing q).lost = (s.resultRing q).lost := by
  rw [shutRings_resultRing]
  split <;> exact ⟨rfl, rfl⟩

theorem closeAnswered_closed (s : State) : Closed s (closeAnswered s) := by
  unfold closeAnswered
  cases hd : closeDetail s with
  | none =>
    exact
      { rest := rfl, work := rfl, notice := rfl, out := shutRings_out s
        other := fun q _ => shutRings_other s q
        admin := fun _ => ⟨rfl, shutRings_other s 0⟩
        answer := fun _ _ _ h => by rw [hd] at h; cases h }
  | some d =>
    obtain ⟨a, ha⟩ := closeDetail_admin hd
    have ha' : (shutRings s).admin = some a := ha
    have h0 := shutRings_resultRing_zero s
    have set : ∀ (x : ResultRing), x.out = (s.resultRing 0).out → ∀ (q : ResultRingId),
        (((shutRings s).setResultRing 0 x).resultRing q).out =
          if s.resultCloses q = true then (s.resultRing q).out.closed
          else (s.resultRing q).out := by
      intro x hx q
      by_cases hq : q = 0
      · subst hq
        rw [resultRing_setResultRing_self, hx]
        simp [State.resultCloses]
      · rw [resultRing_setResultRing_ne _ _ hq]
        exact shutRings_out s q
    have others : ∀ (x : ResultRing) (q : ResultRingId), q ≠ 0 →
        (((shutRings s).setResultRing 0 x).resultRing q).pending = (s.resultRing q).pending ∧
          (((shutRings s).setResultRing 0 x).resultRing q).lost = (s.resultRing q).lost := by
      intro x q hq
      rw [resultRing_setResultRing_ne _ _ hq]
      exact shutRings_other s q
    by_cases hr : (s.resultRing 0).out.state = .active
    · dsimp only
      rw [adminAnswer_active ha' (by rw [h0]; exact hr)]
      exact
        { rest := restOf_answered _ _ _ _ _ _, work := rfl, notice := rfl
          out := set _ (by rw [h0])
          other := others _
          admin := fun h => by rw [hd] at h; cases h
          answer := fun b e hb he => by
            rw [ha] at hb
            rw [hd] at he
            cases hb
            cases he
            rw [if_pos hr]
            refine ⟨rfl, ?_, ?_⟩
            · show (((shutRings s).setResultRing 0 _).resultRing 0).pending = _
              rw [resultRing_setResultRing_self, h0]
            · show (((shutRings s).setResultRing 0 _).resultRing 0).lost = _
              rw [resultRing_setResultRing_self, h0] }
    · dsimp only
      rw [adminAnswer_lost ha' (by rw [h0]; exact hr)]
      exact
        { rest := restOf_lost _ _ _ _, work := rfl, notice := rfl
          out := set _ (by rw [h0])
          other := others _
          admin := fun h => by rw [hd] at h; cases h
          answer := fun b e hb he => by
            rw [if_neg hr]
            refine ⟨rfl, ?_, ?_⟩
            · show (((shutRings s).setResultRing 0 _).resultRing 0).pending = _
              rw [resultRing_setResultRing_self, h0]
            · show (((shutRings s).setResultRing 0 _).resultRing 0).lost = _
              rw [resultRing_setResultRing_self, h0] }

/-! ## Writes, fetches and the end of STOPPING -/

theorem begun_state (o : OutputRing) (n : Option (List Byte)) : (o.begun n).state = o.state := by
  unfold OutputRing.begun
  repeat' first
    | rfl
    | split

theorem startWrites_resultRing (s : State) (q : ResultRingId) :
    (startWrites s).resultRing q = { s.resultRing q with
      out := (s.resultRing q).out.begun ((s.resultRing q).pending.head?.map resultBytes) } := by
  simp [startWrites, State.resultRing]

/-- The fetch that the allocation arbiter asks for, and the round-robin positions after it (R65,
R66). -/
def allocated (s : State) : Option WorkFetch × Served :=
  if s.device = .running ∧ s.workFetch = none then
    match s.freeSlots.head?, chooseRing s with
    | some i, some (r, served) =>
      (some { ring := r, slot := i, stopped := false,
              addr := entryAddr (s.workRing r).base (s.workRing r).size (s.workRing r).fetched },
        served)
    | _, _ => (none, s.served)
  else (s.workFetch, s.served)

/-- The allocation arbiter reserves a slot and a fetch, and changes nothing else. -/
theorem allocate_eq (s : State) :
    allocate s = { s with workFetch := (allocated s).1, served := (allocated s).2 } := by
  unfold allocate allocated
  by_cases h : s.device = .running ∧ s.workFetch = none
  · rw [if_pos ⟨h.1, by rw [h.2]; rfl⟩, if_pos h]
    cases s.freeSlots with
    | nil => rw [← h.2]; rfl
    | cons i is =>
      cases chooseRing s with
      | none => rw [← h.2]; rfl
      | some p => rfl
  · rw [if_neg (by rw [Option.isNone_iff_eq_none]; exact h), if_neg h]

/-- The fetch that the admin unit asks for (R203). -/
def adminFetched (s : State) : Option Word :=
  if s.device = .running ∧ s.adminFetch = none ∧ s.admin = none ∧
      (s.workRing 0).state = .active ∧ 0 < (s.workRing 0).ahead then
    some (entryAddr (s.workRing 0).base (s.workRing 0).size (s.workRing 0).fetched)
  else s.adminFetch

/-- The admin unit asks for its next record, and changes nothing else. -/
theorem fetchAdmin_eq (s : State) : fetchAdmin s = { s with adminFetch := adminFetched s } := by
  unfold fetchAdmin adminFetched
  dsimp only
  by_cases h : s.device = .running ∧ s.adminFetch = none ∧ s.admin = none ∧
      (s.workRing 0).state = .active ∧ 0 < (s.workRing 0).ahead
  · rw [if_pos ⟨h.1, h.2.2.2.1, h.2.2.2.2, by rw [h.2.2.1]; rfl, by rw [h.2.1]; rfl⟩, if_pos h]
  · rw [if_neg, if_neg h]
    rintro ⟨h1, h2, h3, h4, h5⟩
    exact h ⟨h1, Option.isNone_iff_eq_none.mp h5, Option.isNone_iff_eq_none.mp h4, h2, h3⟩

/-- The device enters STOPPED with its last slot, and nothing else changes (R199). -/
theorem enterStopped_eq (s : State) :
    enterStopped s = { s with
      device := if s.device = .stopping ∧ s.allFree = true then .stopped else s.device } := by
  unfold enterStopped
  split <;> rfl

/-! ## The whole -/

theorem chooseRing_congr {s t : State} (hw : t.work = s.work) (hs : t.slots = s.slots)
    (hf : t.workFetch = s.workFetch) (hv : t.served = s.served) : chooseRing t = chooseRing s := by
  cases s
  cases t
  dsimp only at hw hs hf hv
  subst hw hs hf hv
  rfl

/-- A work ring after the closes and the judgement, by the state its bound result ring then has. -/
def ringAfter (s : State) (r : WorkRingId) (bound : OutState) : WorkRing :=
  { s.workRing r with
    state := match (s.workRing r).state with
      | .draining => if s.ringSlots r = 0 then .closed else .draining
      | .active | .held =>
        if (s.engine (s.workRing r).line).state.usable = true ∧ bound = .active then .active
        else .held
      | .closed => .closed
      | .faulted => .faulted }

/-- The rings as the judgement after the closes leaves them. -/
theorem judged_workRing (s : State) {r : WorkRingId} (hr : r ≠ 0) :
    (judgeRings (closeAnswered s)).workRing r =
    ringAfter s r ((closeAnswered s).resultRing (s.workRing r).bound).out.state := by
  have hc := closeAnswered_closed s
  have lines := congrArg State.lines hc.rest
  change (closeAnswered s).lines = s.lines at lines
  have work : (closeAnswered s).workRing r = (shutRings s).workRing r := by
    simp only [State.workRing, hc.work]
  rw [judgeRings_workRing, if_neg hr, work, shutRings_workRing]
  have hold : ∀ w : WorkRing, holdCondition (closeAnswered s) w =
      !decide ((s.engine w.line).state.usable = true ∧
        ((closeAnswered s).resultRing w.bound).out.state = .active) := by
    intro w
    have e : (closeAnswered s).engine w.line = s.engine w.line := by
      simp only [State.engine, lines]
    rw [holdCondition, e]
    cases (s.engine w.line).state.usable <;>
      cases ((closeAnswered s).resultRing w.bound).out.state <;> rfl
  by_cases hp : (s.engine (s.workRing r).line).state.usable = true ∧
      ((closeAnswered s).resultRing (s.workRing r).bound).out.state = .active
  all_goals
    have hold' := hold (s.workRing r)
    first
      | rw [decide_eq_true hp, Bool.not_true] at hold'
      | rw [decide_eq_false hp, Bool.not_false] at hold'
    cases h : (s.workRing r).state <;> by_cases hz : s.ringSlots r = 0 <;>
      simp [ringAfter, State.workCloses, h, judgedState, hold', hr, hz, hp]

/-- The state before the fetches: the rings closed and judged, and the writes begun. -/
def written (s : State) : State := startWrites (judgeRings (closeAnswered s))

theorem serviceRings_eq {s : State} (h : s.device ≠ .halted) :
    serviceRings s =
      enterStopped (fetchAdmin (allocate (written s))) := by
  unfold serviceRings
  rw [if_pos (by simp [State.live, h])]
  rfl

/-- What the part does of itself after an event is what `Serviced` says. -/
theorem serviceRings_serviced (s : State) : Serviced s (serviceRings s) := by
  by_cases hl : s.device = .halted
  · have e : serviceRings s = s := by
      unfold serviceRings
      rw [if_neg (by simp [State.live, hl])]
    rw [e]
    exact
      { halted := fun _ => rfl
        device := by rw [hl]; rfl
        halt := rfl, intEnable := rfl, boot := rfl, bootRead := rfl, ms := rfl
        deviceEvent := rfl, imageWrite := rfl, slots := rfl, fetchSeq := rfl, lines := rfl
        nodes := rfl, reflexes := rfl, queues := rfl, buffer := rfl, lost := rfl, draws := rfl
        resetPinLow := rfl, pending := rfl, work0 := rfl
        work := fun h => absurd hl h
        admin := fun h => absurd hl h
        answer := fun h => absurd hl h
        otherResults := fun _ _ => ⟨rfl, rfl⟩
        out := fun h => absurd hl h
        notice := fun h => absurd hl h
        fetch := fun h => absurd hl h
        adminFetch := fun h => absurd hl h }
  · rw [serviceRings_eq hl, enterStopped_eq, fetchAdmin_eq, allocate_eq]
    have hc := closeAnswered_closed s
    have hr : restOf s (written s) = s := hc.rest
    have h0 : (written s).workRing 0 = s.workRing 0 := by
      show (judgeRings (closeAnswered s)).workRing 0 = _
      have work : (closeAnswered s).workRing 0 = (shutRings s).workRing 0 := by
        simp only [State.workRing, hc.work]
      rw [judgeRings_workRing, if_pos rfl, work, shutRings_workRing]
      rfl
    have hq : ∀ q, (written s).resultRing q = { (closeAnswered s).resultRing q with
        out := ((closeAnswered s).resultRing q).out.begun
          (((closeAnswered s).resultRing q).pending.head?.map resultBytes) } :=
      fun q => startWrites_resultRing _ q
    have hw : ∀ r, r ≠ 0 → (written s).workRing r =
        ringAfter s r ((written s).resultRing (s.workRing r).bound).out.state := by
      intro r hr0
      rw [hq]
      refine (judged_workRing s hr0).trans ?_
      show _ = ringAfter s r (OutputRing.begun _ _).state
      rw [begun_state]
    have admin : (written s).admin = (closeAnswered s).admin := rfl
    have notice : (written s).notice = ((closeAnswered s).notice).begun
        (s.buffer.head?.map noticeBytes) := by
      have e := congrArg State.buffer hc.rest
      change (closeAnswered s).buffer = s.buffer at e
      rw [← e]
      rfl
    generalize written s = w at *
    generalize closeAnswered s = c at *
    have device : w.device = s.device := (congrArg State.device hr :)
    have addr : ∀ r, entryAddr (w.workRing r).base (w.workRing r).size (w.workRing r).fetched =
        entryAddr (s.workRing r).base (s.workRing r).size (s.workRing r).fetched := by
      intro r
      by_cases hr0 : r = 0
      · rw [hr0, h0]
      · rw [hw r hr0]
        rfl
    have slots : w.slots = s.slots := (congrArg State.slots hr :)
    have fetch : w.workFetch = s.workFetch := (congrArg State.workFetch hr :)
    have served : w.served = s.served := (congrArg State.served hr :)
    have adminFetch : w.adminFetch = s.adminFetch := (congrArg State.adminFetch hr :)
    exact
      { halted := fun h => absurd h hl
        device := by
          have free : w.allFree = s.allFree := by simp only [State.allFree, State.slot, slots]
          show (if w.device = .stopping ∧ w.allFree = true then _ else w.device) = _
          rw [device, free]
        halt := (congrArg State.halt hr :)
        intEnable := (congrArg State.intEnable hr :)
        boot := (congrArg State.boot hr :)
        bootRead := (congrArg State.bootRead hr :)
        ms := (congrArg State.ms hr :)
        deviceEvent := (congrArg State.deviceEvent hr :)
        imageWrite := (congrArg State.imageWrite hr :)
        slots := (congrArg State.slots hr :)
        fetchSeq := (congrArg State.fetchSeq hr :)
        lines := (congrArg State.lines hr :)
        nodes := (congrArg State.nodes hr :)
        reflexes := (congrArg State.reflexes hr :)
        queues := (congrArg State.queues hr :)
        buffer := (congrArg State.buffer hr :)
        lost := (congrArg State.lost hr :)
        draws := (congrArg State.draws hr :)
        resetPinLow := (congrArg State.resetPinLow hr :)
        pending := (congrArg State.pending hr :)
        work0 := h0
        work := fun _ r hr0 => hw r hr0
        admin := fun _ h => by
          obtain ⟨h1, h2, h3⟩ := hc.admin h
          refine ⟨admin.trans h1, ?_, ?_⟩
          · exact (congrArg ResultRing.pending (hq 0)).trans h2
          · exact (congrArg ResultRing.lost (hq 0)).trans h3
        answer := fun _ a d ha hd => by
          have e := hc.answer a d ha hd
          have p : (w.resultRing 0).pending = (c.resultRing 0).pending := by rw [hq]
          have l : (w.resultRing 0).lost = (c.resultRing 0).lost := by rw [hq]
          show if _ then w.admin = _ ∧ (w.resultRing 0).pending = _ ∧ (w.resultRing 0).lost = _
            else w.admin = _ ∧ (w.resultRing 0).pending = _ ∧ (w.resultRing 0).lost = _
          rw [admin, p, l]
          exact e
        otherResults := fun q hq0 => by
          have p : (w.resultRing q).pending = (c.resultRing q).pending := by rw [hq]
          have l : (w.resultRing q).lost = (c.resultRing q).lost := by rw [hq]
          exact ⟨p.trans (hc.other q hq0).1, l.trans (hc.other q hq0).2⟩
        out := fun _ q => by
          show (w.resultRing q).out =
            OutputRing.begun (Option.map resultBytes (w.resultRing q).pending.head?) _
          rw [hq, ← hc.out]
        notice := fun _ => by
          show w.notice = _
          rw [notice, hc.notice]
        fetch := fun _ => by
          have free : w.freeSlots = s.freeSlots := by
            simp only [State.freeSlots, State.slot, slots, fetch]
          have choose : chooseRing w = chooseRing { s with work := w.work } :=
            chooseRing_congr rfl slots fetch served
          show allocated w = if _ then (match s.freeSlots.head?, chooseRing { s with work := w.work }
            with | some i, some (r, served) => _ | _, _ => _) else _
          unfold allocated
          rw [device, fetch, free, choose, served]
          simp only [addr]
        adminFetch := fun _ => by
          show (if w.device = .running ∧ w.adminFetch = none ∧ w.admin = none ∧
            (w.workRing 0).state = .active ∧ 0 < (w.workRing 0).ahead then
              some (entryAddr (w.workRing 0).base (w.workRing 0).size (w.workRing 0).fetched)
            else w.adminFetch) = if _ ∧ _ ∧ w.admin = none ∧ _ then _ else _
          rw [device, adminFetch, h0] }

/-! ## After an event -/

theorem afterLine_after (l : Line) (s : State) : After l s (afterLine l s) :=
  ⟨_, settleLine_settled l s, serviceRings_serviced _⟩

theorem afterBoth_after (s : State) : AfterBoth s (afterBoth s) :=
  ⟨_, _, settleLine_settled .a s, settleLine_settled .b _, serviceRings_serviced _⟩

end Sys2Proof.Laws
end

