-- ==== Sys2Proof/Laws/Work.lean ====
section
/-! SUPPORT. What the ends of tries, windows and grants, entries to DOWN, cuts and aborts may change:
one lemma for each shared operation, each saying that it keeps `Worked`. -/

namespace Sys2Proof.Safety

open Sys2Proof.Machine

theorem slotSame_refl (x : Slot) : SlotSame x x := ⟨rfl, rfl, rfl, rfl, rfl, rfl, rfl, rfl, rfl⟩

theorem SlotSame.trans {x y z : Slot} (h : SlotSame x y) (k : SlotSame y z) : SlotSame x z :=
  ⟨k.1.trans h.1, k.2.trans h.2, k.3.trans h.3, k.4.trans h.4, k.5.trans h.5, k.6.trans h.6,
    k.7.trans h.7, k.8.trans h.8, k.9.trans h.9⟩

theorem SlotKept.same {x y : Slot} (h : SlotKept x y) : SlotSame x y :=
  ⟨h.1, h.2, h.3, h.4, h.5, h.6, h.7, h.8, h.9⟩

theorem workKept_refl (x : WorkRing) : WorkKept x x := ⟨rfl, id, id, .inl, id⟩

theorem WorkKept.trans {x y z : WorkRing} (h : WorkKept x y) (k : WorkKept y z) : WorkKept x z where
  fields := by
    have e := h.fields
    rw [← k.fields] at e
    exact e
  closed e := k.closed (h.closed e)
  faulted e := k.faulted (h.faulted e)
  draining e := by
    rcases h.draining e with g | g
    · exact k.draining g
    · exact .inr (k.closed g)
  open_ e := k.open_ (h.open_ e)

theorem worked_refl (s : State) : Worked s s where
  device := rfl
  halt := rfl
  intEnable := rfl
  boot := rfl
  bootRead := rfl
  ms := rfl
  notice := rfl
  deviceEvent := rfl
  workFetch := rfl
  adminFetch := rfl
  imageWrite := rfl
  fetchSeq := rfl
  served := rfl
  reflexes := rfl
  resetPinLow := rfl
  pending := rfl
  work _ := workKept_refl _
  out _ := rfl
  results _ := ⟨[], by simp⟩
  free _ h := h
  slot _ y h := ⟨y, h, slotSame_refl y⟩

theorem Worked.trans {s m t : State} (h : Worked s m) (k : Worked m t) : Worked s t where
  device := k.device.trans h.device
  halt := k.halt.trans h.halt
  intEnable := k.intEnable.trans h.intEnable
  boot := k.boot.trans h.boot
  bootRead := k.bootRead.trans h.bootRead
  ms := k.ms.trans h.ms
  notice := k.notice.trans h.notice
  deviceEvent := k.deviceEvent.trans h.deviceEvent
  workFetch := k.workFetch.trans h.workFetch
  adminFetch := k.adminFetch.trans h.adminFetch
  imageWrite := k.imageWrite.trans h.imageWrite
  fetchSeq := k.fetchSeq.trans h.fetchSeq
  served := k.served.trans h.served
  reflexes := k.reflexes.trans h.reflexes
  resetPinLow := k.resetPinLow.trans h.resetPinLow
  pending := k.pending.trans h.pending
  work r := (h.work r).trans (k.work r)
  out q := (k.out q).trans (h.out q)
  results q := by
    obtain ⟨x, hx⟩ := h.results q
    obtain ⟨y, hy⟩ := k.results q
    exact ⟨x ++ y, by rw [hy, hx, List.append_assoc]⟩
  free i hi := k.free i (h.free i hi)
  slot i z hz := by
    obtain ⟨y, hy, ky⟩ := k.slot i z hz
    obtain ⟨x, hx, kx⟩ := h.slot i y hy
    exact ⟨x, hx, kx.trans ky⟩

/-- What the judgement and the grants of a line change is within `Worked`. -/
theorem LineKept.worked {l : Line} {s t : State} (h : LineKept l s t) : Worked s t where
  device := h.device
  halt := h.halt
  intEnable := h.intEnable
  boot := h.boot
  bootRead := h.bootRead
  ms := h.ms
  notice := h.notice
  deviceEvent := h.deviceEvent
  workFetch := h.workFetch
  adminFetch := h.adminFetch
  imageWrite := h.imageWrite
  fetchSeq := h.fetchSeq
  served := h.served
  reflexes := h.reflexes
  resetPinLow := h.resetPinLow
  pending := h.pending
  work r := by
    have e : t.workRing r = s.workRing r := by simp only [State.workRing, h.work]
    rw [e]
    exact workKept_refl _
  out := h.out
  results := h.results
  free := h.free
  slot i y hy := by
    obtain ⟨x, hx, k⟩ := h.slot i y hy
    exact ⟨x, hx, k.same⟩

end Sys2Proof.Safety

namespace Sys2Proof.Laws

open Sys2Proof.Machine Sys2Proof.Safety

variable {s m : State}

/-! ## Single updates -/

theorem worked_setEngine (h : Worked s m) (l : Line) (e : LineEngine) :
    Worked s (m.setEngine l e) := h.trans { worked_refl m with }

theorem worked_setTable (h : Worked s m) (l : Line) (t : Vector NodeEntry 80) :
    Worked s (m.setTable l t) := h.trans { worked_refl m with }

theorem worked_setEntry (h : Worked s m) (l : Line) (a : Addr) (e : NodeEntry) :
    Worked s (m.setEntry l a e) := h.trans { worked_refl m with }

theorem worked_setQueue (h : Worked s m) (l : Line) (q : List QueuedCall) :
    Worked s (m.setQueue l q) := h.trans { worked_refl m with }

theorem worked_setAdmin (h : Worked s m) (a : Option AdminRequest) :
    Worked s { m with admin := a } := h.trans { worked_refl m with }

theorem worked_draws (h : Worked s m) (n : Nat) : Worked s { m with draws := n } :=
  h.trans { worked_refl m with }

theorem worked_createNotice (h : Worked s m) (l : Option Line) (b : NoticeBody) :
    Worked s (createNotice l b m) := by
  refine h.trans ?_
  unfold createNotice
  split <;> exact { worked_refl m with }

theorem worked_setSlot (h : Worked s m) {i : SlotId} {x y : Slot} (hx : m.slot i = some x)
    (k : SlotSame x y) : Worked s (m.setSlot i (some y)) :=
  h.trans { worked_refl m with
    free := fun j hj => by
      by_cases e : j = i
      · subst e; rw [hx] at hj; cases hj
      · rw [slot_setSlot_ne m _ e]; exact hj
    slot := fun j z hz => by
      by_cases e : j = i
      · subst e; rw [slot_setSlot_self] at hz; cases hz; exact ⟨x, hx, k⟩
      · rw [slot_setSlot_ne m _ e] at hz; exact ⟨z, hz, slotSame_refl z⟩ }

theorem worked_freeSlot (h : Worked s m) (i : SlotId) : Worked s (m.setSlot i none) :=
  h.trans { worked_refl m with
    free := fun j hj => by
      by_cases e : j = i
      · subst e; exact slot_setSlot_self m _ _
      · rw [slot_setSlot_ne m _ e]; exact hj
    slot := fun j z hz => by
      by_cases e : j = i
      · subst e; rw [slot_setSlot_self] at hz; cases hz
      · rw [slot_setSlot_ne m _ e] at hz; exact ⟨z, hz, slotSame_refl z⟩ }

theorem worked_setResultRing (h : Worked s m) {q : ResultRingId} {r : ResultRing}
    (ho : r.out = (m.resultRing q).out) (hp : ∃ more, r.pending = (m.resultRing q).pending ++ more) :
    Worked s (m.setResultRing q r) :=
  h.trans { worked_refl m with
    out := fun p => by
      by_cases e : p = q
      · subst e; rw [resultRing_setResultRing_self]; exact ho
      · rw [resultRing_setResultRing_ne m r e]
    results := fun p => by
      by_cases e : p = q
      · subst e; rw [resultRing_setResultRing_self]; exact hp
      · rw [resultRing_setResultRing_ne m r e]; exact ⟨[], by simp⟩ }

theorem worked_setWorkRing (h : Worked s m) {r : WorkRingId} {w : WorkRing}
    (k : WorkKept (m.workRing r) w) : Worked s (m.setWorkRing r w) :=
  h.trans { worked_refl m with
    work := fun p => by
      by_cases e : p = r
      · subst e; rw [workRing_setWorkRing_self]; exact k
      · rw [workRing_setWorkRing_ne m w e]; exact workKept_refl _ }

theorem worked_foldl {α : Type} {f : State → α → State} (hf : ∀ m x, Worked s m → Worked s (f m x))
    (h : Worked s m) (xs : List α) : Worked s (xs.foldl f m) := by
  induction xs generalizing m with
  | nil => exact h
  | cons x xs ih => exact ih (hf m x h)

/-! ## Results and judgements -/

theorem worked_submitResult (h : Worked s m) (q : ResultRingId) (r : ResultRecord) :
    Worked s (submitResult q r m) := by
  have lose : Worked s (loseResult q m r) := by
    unfold loseResult
    have k : Worked s (m.setResultRing q
        { m.resultRing q with lost := min 65535 ((m.resultRing q).lost + 1) }) :=
      worked_setResultRing h rfl ⟨[], by simp⟩
    unfold tellSender
    split
    · exact worked_freeSlot k _
    · exact worked_setAdmin k _
  unfold submitResult
  dsimp only
  split
  · exact worked_setResultRing h rfl ⟨_, rfl⟩
  · exact lose
  · exact lose

theorem worked_adminAnswer (h : Worked s m) (st : Status) (d : List Byte) :
    Worked s (adminAnswer st d m) := by
  unfold adminAnswer
  split
  · exact h
  · exact worked_submitResult (worked_setAdmin h _) _ _

theorem worked_judgeRings (h : Worked s m) : Worked s (judgeRings m) :=
  h.trans { worked_refl m with work := judgeRings_kept m }

theorem worked_releaseLock (h : Worked s m) (l : Line) (a : Addr) (i : SlotId) :
    Worked s (releaseLock l a i m) := by
  unfold releaseLock
  split
  · exact worked_setEntry h _ _ _
  · exact h

theorem worked_commitUpdate (h : Worked s m) (l : Line) (w : ParamWork) :
    Worked s (commitUpdate l w m) := by
  unfold commitUpdate
  split
  · exact h
  all_goals exact worked_setEntry h _ _ _

theorem worked_finishSlot (h : Worked s m) (i : SlotId) (st : Status) :
    Worked s (finishSlot i st m) := by
  unfold finishSlot
  split
  · exact h
  · rename_i x hx
    refine worked_submitResult ?_ _ _
    cases x.work
    case param w =>
      refine worked_setSlot (worked_releaseLock h _ _ _) ((releaseLock_slot _ _ _ _ _).trans hx) ?_
      exact ⟨rfl, rfl, rfl, rfl, rfl, rfl, rfl, rfl, rfl⟩
    all_goals
      refine worked_setSlot h hx ?_
      exact ⟨rfl, rfl, rfl, rfl, rfl, rfl, rfl, rfl, rfl⟩

theorem worked_endSlot (h : Worked s m) (i : SlotId) (st : Status) (narrow : Bool) :
    Worked s (endSlot i st narrow m) := by
  unfold endSlot
  split
  · exact h
  · rename_i x hx
    have put : ∀ w : Work, Worked s (m.setSlot i (some { x with work := w })) := fun w => by
      refine worked_setSlot h hx ?_
      exact ⟨rfl, rfl, rfl, rfl, rfl, rfl, rfl, rfl, rfl⟩
    split
    · unfold finishCommit
      refine worked_finishSlot ?_ _ _
      split
      · exact worked_commitUpdate (put _) _ _
      · exact put _
    · exact worked_finishSlot (put _) _ _
    all_goals exact worked_finishSlot h _ _

theorem worked_settleLine (h : Worked s m) (l : Line) : Worked s (settleLine l m) :=
  h.trans (settleLine_settled l m).kept.worked

/-! ## Continuations of slots -/

/-- A slot whose fields a continuation gives anew: the slot stands, and `x` is what it is built
from. -/
structure Built (m : State) (i : SlotId) (x : Slot) : Prop where
  stands : ∃ y, m.slot i = some y ∧ SlotSame y x

theorem worked_put (h : Worked s m) {i : SlotId} {x y : Slot} (b : Built m i x)
    (k : SlotSame x y) : Worked s (m.setSlot i (some y)) := by
  obtain ⟨z, hz, kz⟩ := b.stands
  exact worked_setSlot h hz (kz.trans k)

theorem worked_stepFollows (h : Worked s m) {i : SlotId} {x : Slot} (b : Built m i x) (w : Work) :
    Worked s (stepFollows i x w m) :=
  worked_put h b ⟨rfl, rfl, rfl, rfl, rfl, rfl, rfl, rfl, rfl⟩

theorem worked_pauseSlot (h : Worked s m) {i : SlotId} {x : Slot} (b : Built m i x) (w : Work) :
    Worked s (pauseSlot i x w m) :=
  worked_put h b ⟨rfl, rfl, rfl, rfl, rfl, rfl, rfl, rfl, rfl⟩

theorem worked_decideSlot (h : Worked s m) {i : SlotId} {x : Slot} (b : Built m i x) (w : Work)
    (st : Status) (narrow : Bool) : Worked s (decideSlot i x w st narrow m) :=
  worked_endSlot (worked_put h b (y := { x with work := w })
    ⟨rfl, rfl, rfl, rfl, rfl, rfl, rfl, rfl, rfl⟩) _ _ _

/-- Table updates keep the slots. -/
theorem built_of_slots {m t : State} {i : SlotId} {x : Slot} (h : t.slot i = m.slot i)
    (b : Built m i x) : Built t i x := by
  obtain ⟨y, hy, k⟩ := b.stands
  exact ⟨y, h.trans hy, k⟩

theorem worked_unassignUpdate (h : Worked s m) (l : Line) (a : Addr) :
    Worked s (unassignUpdate l a m) := worked_setEntry h _ _ _

theorem worked_unassignAll (h : Worked s m) (l : Line) : Worked s (unassignAllUpdate l m) := by
  refine worked_foldl (fun m a k => ?_) h _
  split
  · exact worked_unassignUpdate k _ _
  · exact k

theorem unassignAll_slot (l : Line) (m : State) (i : SlotId) :
    (unassignAllUpdate l m).slot i = m.slot i := by
  unfold unassignAllUpdate
  generalize allAddrs = as
  induction as generalizing m with
  | nil => rfl
  | cons a as ih =>
    refine (ih _).trans ?_
    dsimp only
    split <;> rfl

theorem worked_followUnassign (h : Worked s m) (l : Line) (w : CallWork) (o : TryOutcome) :
    Worked s (followUnassign l w o m) := by
  unfold followUnassign
  split
  · split
    · split
      · exact worked_unassignUpdate h _ _
      · exact h
    · exact worked_unassignAll h _
    · exact h
  · exact h

theorem followUnassign_slot (l : Line) (w : CallWork) (o : TryOutcome) (m : State) (i : SlotId) :
    (followUnassign l w o m).slot i = m.slot i := by
  unfold followUnassign
  split
  · split
    · split <;> rfl
    · exact unassignAll_slot l m i
    · rfl
  · rfl

theorem worked_callStepEnd (h : Worked s m) {i : SlotId} {x : Slot} (b : Built m i x) (w : CallWork)
    (g : Bool) (o : TryOutcome) : Worked s (callStepEnd i x w g o m) := by
  have k := worked_followUnassign h x.line w o
  have c : Built (followUnassign x.line w o m) i x := built_of_slots (followUnassign_slot _ _ _ _ _) b
  unfold callStepEnd
  dsimp only
  repeat' split
  all_goals first
    | exact worked_decideSlot k c _ _ _
    | exact worked_pauseSlot k c _

theorem worked_callCut (h : Worked s m) {i : SlotId} {x : Slot} (b : Built m i x) (w : CallWork)
    (last : Option TryOutcome) : Worked s (callCut i x w last m) := by
  unfold callCut
  dsimp only
  split
  · exact worked_decideSlot (worked_followUnassign h _ _ _)
      (built_of_slots (followUnassign_slot _ _ _ _ _) b) _ _ _
  · exact worked_decideSlot (worked_followUnassign h _ _ _)
      (built_of_slots (followUnassign_slot _ _ _ _ _) b) _ _ _
  all_goals exact worked_decideSlot h b _ _ _

theorem worked_sweepStepEnd (h : Worked s m) {i : SlotId} {x : Slot} (b : Built m i x)
    (w : SweepWork) : Worked s (sweepStepEnd i x w m) := by
  unfold sweepStepEnd
  split
  · exact worked_decideSlot h b _ _ _
  · exact worked_stepFollows h b _

theorem worked_sweepCut (h : Worked s m) {i : SlotId} {x : Slot} (b : Built m i x) (w : SweepWork)
    (last : Option TryOutcome) : Worked s (sweepCut i x w last m) := by
  unfold sweepCut
  split <;> exact worked_decideSlot h b _ _ _

/-! ## Commits -/

theorem worked_commitContinues (h : Worked s m) {i : SlotId} {x : Slot} (b : Built m i x)
    (w : ParamWork) (polled : Bool) (c : CommitCont) :
    Worked s (commitContinues i x w polled c m) := by
  have goOn : ∀ w : ParamWork, Worked s
      (if w.budgetPassed = true then decideSlot i x (.param w) .commitTimeout true m
        else stepFollows i x (.param w) m) := by
    intro w
    split
    · exact worked_decideSlot h b _ _ _
    · exact worked_stepFollows h b _
  unfold commitContinues
  dsimp only
  split
  · exact worked_decideSlot h b _ _ _
  · split
    · unfold pausePastBudget
      split
      · exact worked_decideSlot h b _ _ _
      · exact worked_stepFollows h b _
    · exact worked_pauseSlot h b _
  · exact goOn _
  · split
    · exact goOn _
    · exact worked_decideSlot h b _ _ _

theorem worked_commitAborts (h : Worked s m) {i : SlotId} {x : Slot} (b : Built m i x)
    (w : ParamWork) (narrow : Bool) (c : CommitCont) :
    Worked s (commitAborts i x w narrow c m) := by
  unfold commitAborts
  split
  · split
    · exact worked_decideSlot h b _ _ _
    · exact worked_pauseSlot h b _
  all_goals exact worked_decideSlot h b _ _ _

theorem worked_commitStepEnd (h : Worked s m) {i : SlotId} {x : Slot} (b : Built m i x)
    (w : ParamWork) (o : TryOutcome) : Worked s (commitStepEnd i x w o m) := by
  unfold commitStepEnd
  split
  · exact h
  · dsimp only
    split
    · exact worked_commitAborts h b _ _ _
    · exact worked_commitContinues h b _ _ _

theorem worked_commitCut (h : Worked s m) {i : SlotId} {x : Slot} (b : Built m i x) (w : ParamWork)
    (last : Option TryOutcome) : Worked s (commitCut i x w last m) := by
  unfold commitCut
  split <;> exact worked_decideSlot h b _ _ _

theorem worked_budgetTurns (h : Worked s m) {i : SlotId} {x : Slot} (b : Built m i x)
    (w : ParamWork) : Worked s (budgetTurns i x w m) := by
  unfold budgetTurns
  split
  · split
    · exact worked_decideSlot h b _ _ _
    · exact worked_stepFollows h b _
  · exact worked_decideSlot h b _ _ _

theorem worked_commitDown (h : Worked s m) {i : SlotId} {x : Slot} (b : Built m i x)
    (w : ParamWork) : Worked s (commitDown i x w m) := by
  unfold commitDown
  dsimp only
  split
  · exact worked_decideSlot h b _ _ _
  · split
    · split
      · exact worked_commitAborts h b _ _ _
      · exact worked_decideSlot h b _ _ _
    · split
      · exact worked_budgetTurns h b _
      · exact worked_stepFollows h b _

theorem worked_budgetExpires (h : Worked s m) {i : SlotId} {x : Slot} (b : Built m i x)
    (w : ParamWork) : Worked s (budgetExpires i x w m) := by
  have c : Built m i { x with budgetAt := none, pollAt := none } := by
    obtain ⟨y, hy, k⟩ := b.stands
    exact ⟨y, hy, ⟨k.1, k.2, k.3, k.4, k.5, k.6, k.7, k.8, k.9⟩⟩
  unfold budgetExpires
  dsimp only
  split
  · exact worked_put h c ⟨rfl, rfl, rfl, rfl, rfl, rfl, rfl, rfl, rfl⟩
  · exact worked_budgetTurns h c _
  · exact worked_budgetTurns h c _
  · exact worked_budgetTurns h c _
  · exact h

/-! ## Discoveries and the node table -/

theorem worked_writeIdentity (h : Worked s m) (l : Line) (a : Addr) (u : UnitNo) :
    Worked s (writeIdentity l a u m) := by
  unfold writeIdentity
  dsimp only
  repeat' first
    | exact h
    | apply worked_createNotice
    | apply worked_setEntry
    | split

theorem worked_hear (h : Worked s m) (l : Line) (a : Addr) : Worked s (hear l a m) := by
  unfold hear
  dsimp only
  split
  · exact worked_createNotice (worked_setEntry h _ _ _) _ _
  all_goals exact worked_setEntry h _ _ _

theorem worked_missStep (h : Worked s m) (l : Line) (a : Addr) : Worked s (missStep l a m) := by
  unfold missStep
  dsimp only
  split
  · exact worked_createNotice (worked_setEntry h _ _ _) _ _
  · exact worked_setEntry h _ _ _

theorem worked_garbleStep (h : Worked s m) (l : Line) (a : Addr) (g : Bool) :
    Worked s (garbleStep l a g m) := by
  unfold garbleStep
  dsimp only
  split
  · exact worked_createNotice (worked_setEntry h _ _ _) _ _
  · exact worked_setEntry h _ _ _

theorem worked_writePingData (h : Worked s m) (l : Line) (a : Addr) (d : UnitNo × Byte × ZoneSet) :
    Worked s (writePingData l a d m) := by
  unfold writePingData writeKindZones
  split
  · exact h
  · exact worked_setEntry (worked_writeIdentity h _ _ _) _ _ _

theorem worked_hearReply (h : Worked s m) (l : Line) (a : Addr) (v : BitVec 6) (r : Reply) :
    Worked s (hearReply l a v r m) := by
  unfold hearReply
  dsimp only
  split
  · split
    · exact worked_writePingData (worked_hear h _ _) _ _ _
    · exact worked_hear h _ _
  · exact worked_hear h _ _

theorem worked_assignUpdate (h : Worked s m) (l : Line) (a : Addr) (d : UnitNo × Byte × ZoneSet) :
    Worked s (assignUpdate l a d m) := by
  unfold assignUpdate writeKindZones
  dsimp only
  split
  · exact worked_setEntry h _ _ _
  · exact worked_setEntry (worked_writeIdentity (worked_createNotice (worked_setEntry h _ _ _) _ _)
      _ _ _) _ _ _

theorem worked_reportStep (h : Worked s m) (l : Line) (c : Call) (g : Bool) (o : TryOutcome) :
    Worked s (reportStep l c g o m) := by
  unfold reportStep
  repeat' first
    | exact h
    | exact worked_hearReply h _ _ _ _
    | exact worked_missStep h _ _
    | exact worked_garbleStep h _ _ _
    | split

theorem worked_notePending (h : Worked s m) (l : Line) (o : TryOutcome) :
    Worked s (notePending l o m) := by
  unfold notePending
  repeat' first
    | exact h
    | exact worked_setEngine h _ _
    | split

theorem worked_followAssign (h : Worked s m) (l : Line) (w : DiscoverWork) (o : TryOutcome) :
    Worked s (followAssign l w o m) := by
  unfold followAssign
  split
  · exact worked_assignUpdate h _ _ _
  · exact h

/-! ## What those updates leave of the slots -/

@[simp] theorem createNotice_slot (l : Option Line) (b : NoticeBody) (m : State) (i : SlotId) :
    (createNotice l b m).slot i = m.slot i := by
  unfold createNotice
  split <;> rfl

theorem writeIdentity_slot (l : Line) (a : Addr) (u : UnitNo) (m : State) (i : SlotId) :
    (writeIdentity l a u m).slot i = m.slot i := by
  unfold writeIdentity
  dsimp only
  repeat' first
    | rfl
    | rw [createNotice_slot]
    | rw [setEntry_slot]
    | split

theorem assignUpdate_slot (l : Line) (a : Addr) (d : UnitNo × Byte × ZoneSet) (m : State)
    (i : SlotId) : (assignUpdate l a d m).slot i = m.slot i := by
  unfold assignUpdate writeKindZones
  dsimp only
  split
  · rfl
  · rw [setEntry_slot, writeIdentity_slot, createNotice_slot, setEntry_slot]

theorem followAssign_slot (l : Line) (w : DiscoverWork) (o : TryOutcome) (m : State) (i : SlotId) :
    (followAssign l w o m).slot i = m.slot i := by
  unfold followAssign
  split
  · exact assignUpdate_slot _ _ _ _ _
  · rfl

theorem worked_discoverContinues (h : Worked s m) {i : SlotId} {x : Slot} (b : Built m i x)
    (w : DiscoverWork) : Worked s (discoverContinues i x w m) := by
  unfold discoverContinues
  split
  · exact worked_stepFollows h b _
  · exact worked_decideSlot h b _ _ _

theorem worked_discoverStepEnd (h : Worked s m) {i : SlotId} {x : Slot} (b : Built m i x)
    (w : DiscoverWork) (o : TryOutcome) : Worked s (discoverStepEnd i x w o m) := by
  have k := worked_followAssign h x.line w o
  have c : Built (followAssign x.line w o m) i x := built_of_slots (followAssign_slot _ _ _ _ _) b
  unfold discoverStepEnd
  dsimp only
  split
  · exact worked_decideSlot k c _ _ _
  · exact worked_discoverContinues k c _

theorem worked_discoverCut (h : Worked s m) {i : SlotId} {x : Slot} (b : Built m i x)
    (w : DiscoverWork) (last : Option TryOutcome) : Worked s (discoverCut i x w last m) := by
  unfold discoverCut
  cases last
  · exact worked_decideSlot h b _ _ _
  · exact worked_decideSlot (worked_followAssign h _ _ _)
      (built_of_slots (followAssign_slot _ _ _ _ _) b) _ _ _

theorem worked_discoverDown (h : Worked s m) {i : SlotId} {x : Slot} (b : Built m i x)
    (w : DiscoverWork) (held : Bool) : Worked s (discoverDown i x w held m) := by
  unfold discoverDown
  dsimp only
  split
  · exact worked_decideSlot h b _ _ _
  · exact worked_discoverContinues h b _

/-! ## Ends of steps, grants and windows -/

/-- A slot as it stands, with its tries used replaced. -/
theorem built_tries {m : State} {i : SlotId} {x : Slot} (n : Nat) (hx : m.slot i = some x) :
    Built m i { x with tries := n } :=
  ⟨x, hx, ⟨rfl, rfl, rfl, rfl, rfl, rfl, rfl, rfl, rfl⟩⟩

theorem worked_slotStepEnd (h : Worked s m) (i : SlotId) (st : Step) (o : TryOutcome) :
    Worked s (slotStepEnd i st o m) := by
  unfold slotStepEnd
  split
  · exact h
  · rename_i x hx
    have b := built_tries st.tries hx
    dsimp only
    split
    · exact worked_callStepEnd h b _ _ _
    · exact worked_sweepStepEnd h b _
    · exact worked_commitStepEnd h b _ _
    · exact worked_discoverStepEnd h b _ _
    · exact h

theorem worked_slotCut (h : Worked s m) (i : SlotId) (n : Nat) (last : Option TryOutcome) :
    Worked s (slotCut i n last m) := by
  unfold slotCut
  split
  · exact h
  · rename_i x hx
    have b := built_tries n hx
    dsimp only
    split
    · exact worked_callCut h b _ _
    · exact worked_sweepCut h b _ _
    · exact worked_commitCut h b _ _
    · exact worked_discoverCut h b _ _
    · exact h

theorem worked_slotDown (h : Worked s m) (i : SlotId) (n : Nat) : Worked s (slotDown i n m) := by
  unfold slotDown
  split
  · exact h
  · rename_i x hx
    have b := built_tries n hx
    dsimp only
    split
    · exact worked_decideSlot h b _ _ _
    · exact worked_sweepStepEnd h b _
    · exact worked_commitDown h b _
    · exact worked_discoverDown h b _ _
    · exact h

theorem worked_rejudgeTable (h : Worked s m) (l : Line) (n : Nat) :
    Worked s (rejudgeTable l n m) := by
  refine worked_foldl (fun m a k => ?_) h _
  unfold rejudgeEntry
  dsimp only
  split
  · exact worked_createNotice (worked_setEntry k _ _ _) _ _
  · exact worked_setEntry k _ _ _

theorem worked_applyLineSet (h : Worked s m) (l : Line) (c : LineConfig) :
    Worked s (applyLineSet l c m) := by
  unfold applyLineSet
  dsimp only
  refine worked_adminAnswer ?_ _ _
  split
  · exact worked_rejudgeTable (worked_setEngine h _ _) _ _
  · exact worked_setEngine h _ _

theorem worked_enterOff (h : Worked s m) (l : Line) : Worked s (enterOff l m) :=
  worked_judgeRings (worked_setEngine (worked_setQueue h _ _) _ _)

theorem worked_finishCut (h : Worked s m) (l : Line) (disable forget : Bool) :
    Worked s (finishCut l disable forget m) := by
  have k := worked_setEngine h l { m.engine l with listenDue := false }
  unfold finishCut
  refine worked_adminAnswer ?_ _ _
  cases disable <;> cases forget
  · exact k
  · exact worked_setTable k _ _
  · exact worked_enterOff k _
  · exact worked_enterOff (worked_setTable k _ _) _

theorem worked_afterGrant (h : Worked s m) (l : Line) : Worked s (afterGrant l m) := by
  unfold afterGrant
  repeat' first
    | exact h
    | exact worked_applyLineSet h _ _
    | exact worked_finishCut h _ _ _
    | split

theorem worked_grantEnded (h : Worked s m) (l : Line) : Worked s (grantEnded l m) :=
  worked_afterGrant (worked_setEngine h _ _) _

theorem worked_endSeries (h : Worked s m) (l : Line) : Worked s (endSeries l m) :=
  worked_setEngine h _ _

theorem worked_windowEnd (h : Worked s m) (l : Line) (out : WindowOutcome) :
    Worked s (windowEnd l out m) := by
  unfold windowEnd
  dsimp only
  split
  · exact h
  · split
    · exact worked_endSeries h _
    · split
      · exact worked_endSeries (worked_setEngine h _ _) _
      · split
        · exact worked_endSeries h _
        · exact worked_setEngine h _ _

theorem worked_queueAfterGrant (h : Worked s m) (l : Line) : Worked s (queueAfterGrant l m) := by
  unfold queueAfterGrant
  split
  · exact worked_setQueue h _ _
  · exact worked_setQueue h _ _
  · exact h

theorem worked_queueAfterDown (h : Worked s m) (l : Line) : Worked s (queueAfterDown l m) := by
  unfold queueAfterDown
  split
  · exact h
  · exact h
  · exact worked_setQueue h _ _

theorem worked_reportLast (h : Worked s m) (l : Line) (last : Option TryOutcome) :
    Worked s (reportLast l last m) := by
  unfold reportLast
  split
  · exact worked_notePending (worked_reportStep h _ _ _ _) _ _
  · exact h

theorem worked_cutHolder (h : Worked s m) (l : Line) (last : Option TryOutcome) :
    Worked s (cutHolder l last m) := by
  unfold cutHolder
  dsimp only
  split
  · exact h
  · exact worked_grantEnded (worked_slotCut (worked_reportLast h _ _) _ _ _) _
  · exact worked_grantEnded (worked_setQueue h _ _) _
  · exact worked_grantEnded (worked_endSeries (worked_reportLast h _ _) _) _

theorem worked_endStep (h : Worked s m) (l : Line) (st : Step) (o : TryOutcome) :
    Worked s (endStep l st o m) := by
  unfold endStep
  split
  · exact h
  · exact worked_grantEnded (worked_slotStepEnd
      (worked_notePending (worked_reportStep h _ _ _ _) _ _) _ _ _) _
  · exact worked_grantEnded (worked_queueAfterGrant h _) _
  · split
    · exact worked_grantEnded h _
    · split
      · exact worked_grantEnded (worked_windowEnd h _ _) _
      · exact worked_grantEnded (worked_windowEnd
          (worked_notePending (worked_reportStep h _ _ _ _) _ _) _ _) _

theorem worked_beginTry (h : Worked s m) (l : Line) : Worked s (beginTry l m) := by
  unfold beginTry
  dsimp only
  split
  · exact h
  · exact worked_setEngine h _ _

theorem worked_afterGap (h : Worked s m) (l : Line) : Worked s (afterGap l m) := by
  unfold afterGap
  split
  · exact worked_beginTry h _
  · exact worked_setEngine h _ _

theorem worked_beginStep (h : Worked s m) (l : Line) (c : Call) (n : Nat) :
    Worked s (beginStep l c n m) := worked_afterGap (worked_setEngine h _ _) _

theorem worked_waitForTry (h : Worked s m) (l : Line) (o : TryOutcome) :
    Worked s (waitForTry l o m) := by
  unfold waitForTry
  split
  · exact worked_setEngine (worked_draws h _) _ _
  all_goals exact worked_afterGap h _

theorem worked_markUnverified (h : Worked s m) (l : Line) : Worked s (markUnverified l m) := by
  unfold markUnverified
  repeat' first
    | exact h
    | split
  rename_i hx _ _ _ _
  refine worked_setSlot h hx ?_
  exact ⟨rfl, rfl, rfl, rfl, rfl, rfl, rfl, rfl, rfl⟩

theorem worked_noteLostCommit (h : Worked s m) (l : Line) (o : TryOutcome) :
    Worked s (noteLostCommit l o m) := by
  unfold noteLostCommit
  split <;> first | exact worked_markUnverified h _ | exact h

/-- What the end of a try may change. -/
theorem worked_endTry (h : Worked s m) (l : Line) (o : TryOutcome) : Worked s (endTry l o m) := by
  unfold endTry
  dsimp only
  split
  · exact h
  · rename_i st _
    have k := worked_noteLostCommit
      (worked_setEngine h l ((m.engine l).afterTry (st.afterTry o) o)) l o
    split
    · exact worked_cutHolder k _ _
    · split
      · exact worked_endStep k _ _ _
      · exact worked_waitForTry k _ _

theorem worked_endWindow (h : Worked s m) (l : Line) (out : WindowOutcome) :
    Worked s (endWindow l out m) := by
  unfold endWindow
  dsimp only
  split
  · exact worked_cutHolder (worked_setEngine h _ _) _ _
  · exact worked_grantEnded (worked_windowEnd (worked_setEngine h _ _) _ _) _

/-! ## Entry to DOWN, cuts and aborts -/

theorem worked_holderDown (h : Worked s m) (l : Line) (e : LineEngine) (c : Bool) :
    Worked s (holderDown l e c m) := by
  unfold holderDown
  split
  · exact h
  · exact h
  · split
    · exact worked_slotCut h _ _ _
    · exact worked_slotDown h _ _
  · split
    · exact worked_setQueue h _ _
    · exact worked_queueAfterDown h _

theorem worked_otherDown (h : Worked s m) (l : Line) (e : LineEngine) (i : SlotId) :
    Worked s (otherDown l e m i) := by
  unfold otherDown
  split
  · exact h
  · split
    · exact h
    · rename_i x hx
      have b : Built m i x := ⟨x, hx, slotSame_refl x⟩
      repeat' first
        | exact h
        | exact worked_decideSlot h b _ _ _
        | exact worked_discoverDown h b _ _
        | split

theorem worked_hearDown (h : Worked s m) (l : Line) (e : LineEngine) :
    Worked s (hearDown l e m) :=
  worked_foldl (fun _ i k => worked_otherDown k l e i) (worked_holderDown h l e _) _

theorem worked_goDown (h : Worked s m) (l : Line) : Worked s (goDown l m) := by
  unfold goDown noteDownCommit
  refine worked_setEngine ?_ _ _
  split <;> first
    | exact worked_markUnverified (worked_createNotice h _ _) _
    | exact worked_createNotice h _ _

/-- What an entry to DOWN may change. -/
theorem worked_enterDown (h : Worked s m) (l : Line) : Worked s (enterDown l m) := by
  have k := worked_hearDown (worked_goDown h l) l (m.engine l)
  unfold enterDown
  dsimp only
  refine worked_judgeRings ?_
  split
  · exact k
  · exact worked_grantEnded k _

theorem worked_cutSlot (h : Worked s m) (l : Line) (i : SlotId) : Worked s (cutSlot l m i) := by
  unfold cutSlot
  repeat' first
    | exact h
    | exact worked_endSlot h _ _ _
    | split

theorem worked_cutQueue (h : Worked s m) (l : Line) : Worked s (cutQueue l m) := by
  unfold cutQueue
  split
  · exact h
  all_goals exact worked_setQueue h _ _

theorem worked_cutSeries (h : Worked s m) (l : Line) : Worked s (cutSeries l m) := by
  unfold cutSeries
  split
  · exact h
  all_goals
    split
    · exact worked_endSeries h _
    · exact h

theorem worked_cutWaiting (h : Worked s m) (l : Line) : Worked s (cutWaiting l m) :=
  worked_cutSeries (worked_cutQueue (worked_foldl (fun _ i k => worked_cutSlot k l i) h _) l) l

/-- What the application of a cut may change. -/
theorem worked_applyCut (h : Worked s m) (l : Line) (disable forget : Bool) :
    Worked s (applyCut l disable forget m) := by
  have k := worked_cutWaiting h l
  unfold applyCut
  dsimp only
  split
  · exact worked_finishCut k _ _ _
  all_goals
    split <;> first
      | exact worked_cutHolder k _ _
      | exact k

theorem worked_abortSlot (h : Worked s m) (i : SlotId) : Worked s (abortSlot i m) := by
  unfold abortSlot
  split
  · exact h
  · rename_i x hx
    split
    · exact h
    · split
      · refine worked_setSlot h hx ?_
        exact ⟨rfl, rfl, rfl, rfl, rfl, rfl, rfl, rfl, rfl⟩
      · exact worked_endSlot h _ _ _

theorem worked_abortWhere (h : Worked s m) (p : Slot → Bool) : Worked s (abortWhere p m) := by
  refine worked_foldl (fun m i k => ?_) h _
  split
  · exact k
  · split
    · exact worked_abortSlot k _
    · exact k

end Sys2Proof.Laws
end

