-- ==== Sys2Proof/Certificates/Slice0/Obligations.lean ====
section
/-! DEFINITION. The statements for the provers. Of a command with an effect on a line they say the
command's own effect, and then that the line's slots are judged, its arbiter decides and the ring
unit acts (`Safety.After`), and nothing else. What judgement and arbiter do is said of `settleLine`
and `arbiter` below, what the ring unit does by `Safety.Serviced`. -/

open Sys2Proof Sys2Proof.Machine Sys2Proof.Safety

/-! ## The machine -/

/-- A step is the command at the front of the queue, executed on the state with the queue's rest. -/
def Obligations.StepRunsTheFrontCommand : Prop :=
  ∀ (c : Instr) (rest : List Instr) (s : State),
    step { s with pending := c :: rest } = exec c { s with pending := rest }

/-- With no command waiting a millisecond passes: the count and the low timers of the lines advance
while the count runs (R24, R198). That a step without a command is a millisecond is the model's
choice (assumption log 4), and so is the low timer's grain: in CALLING it runs in the milliseconds in
which TX is released, which a free value says (log 7). -/
def Obligations.IdleStepIsAMillisecond : Prop :=
  ∀ s : State, s.pending = [] → ∃ t, step s = .next t ∧
    { t with ms := s.ms, lines := s.lines, draws := s.draws } = s ∧
    (s.device = .reset ∨ s.device = .halted → t = s) ∧
    (s.device ≠ .reset → s.device ≠ .halted →
      t.ms = s.ms + 1 ∧ t.draws = s.draws + 1 ∧
      ∀ l, t.engine l = { s.engine l with
        lowTimer :=
          if (s.engine l).sense = true ∨ (s.engine l).state = .off ∨
              ((s.engine l).state = .calling ∧ Config.released s.draws l = false)
          then (s.engine l).lowTimer else min 50 ((s.engine l).lowTimer + 1) })

/-- What reset leaves: the values that R21, R38, R39, R43, R64, R65, R66, R151, R159, R174, R181, R188,
R191, R194, R195, R198 and R202 state; and that a power-on reset and a host reset return the part to
them, whatever else the CTRL write names (R195). The model keeps its own queue and draws and the
levels of the SENSE and RESET pins (assumption log 1, 3 and 19). -/
def Obligations.ResetsGiveTheInitialValues : Prop :=
  (State.reset.device = .reset ∧ State.reset.halt = .none ∧ State.reset.intEnable = false ∧
  State.reset.boot = 0 ∧ State.reset.bootRead = none ∧ State.reset.ms = 0 ∧
  State.reset.deviceEvent = false ∧ State.reset.workFetch = none ∧ State.reset.adminFetch = none ∧
  State.reset.admin = none ∧ State.reset.imageWrite = none ∧ State.reset.fetchSeq = 0 ∧
  State.reset.buffer = [] ∧ State.reset.lost = 0 ∧ State.reset.pending = [] ∧
  State.reset.served = { urgent := 0, normal := 0, bulk := 0 } ∧
  (∀ r, State.reset.workRing r =
    { state := .closed, base := 0, size := 0, line := .a, cls := .normal, bound := 0, credit := 1,
      posted := 0, fetched := 0 }) ∧
  (∀ n, State.reset.outRing n =
    { state := .closed, base := 0, size := 0, progress := 0, threshold := 1, holdoff := 0,
      written := 0, consumed := 0, signalled := false, timer := none, access := .idle }) ∧
  (∀ q, (State.reset.resultRing q).lost = 0 ∧ (State.reset.resultRing q).pending = []) ∧
  (∀ i, State.reset.slot i = none) ∧
  (∀ l, (State.reset.engine l).state = .off ∧ (State.reset.engine l).holder = .none ∧
    (State.reset.engine l).step = none ∧ (State.reset.engine l).frame = [] ∧
    (State.reset.engine l).lowTimer = 0 ∧
    (State.reset.engine l).debounce = none ∧ (State.reset.engine l).settle = none ∧
    (State.reset.engine l).listenDue = false ∧ (State.reset.engine l).listenTimer = none ∧
    (State.reset.engine l).series = none ∧ (State.reset.engine l).config =
      { rate := .r2400, retryLimit := 2, silence := 3, listenInterval := 250, pollInterval := 5,
        budget := 100, settle := 200 }) ∧
  (∀ l a, State.reset.entry l a =
    { state := .vacant, identity := none, kind := none, zones := none, misses := 0, garbles := 0,
      lastSeq := none, lock := none, store := .clean, lastHeard := none }) ∧
  (∀ k, State.reset.reflex k =
    { armed := false, matchLine := .a, matchSource := none, matchKind := 0, matchArg := none,
      actionLine := .a, target := .all, verb := 16, args := [], holdoff := 0, report := false,
      fireCount := 0, quietUntil := none }) ∧
  (∀ l, State.reset.queue l = [])) ∧
  (∀ (start stop enable : Bool) (s : State), ∃ t, exec .powerOnReset s = .next t ∧
    (s.resetPinLow = false → exec (.hostReset start stop enable) s = .next t) ∧
    t = { State.reset with
      lines := ⟨{ LineEngine.reset with sense := (s.engine .a).sense },
        { LineEngine.reset with sense := (s.engine .b).sense }⟩
      draws := s.draws, resetPinLow := s.resetPinLow, pending := s.pending })

/-! ## Registers -/

/-- A CTRL write that names no command, or both, changes the enable alone, and so does one whose
command the device state ignores (R195). START in RESET begins the boot block read at the BOOT
register's value, or halts the device if that is no multiple of 32 (R195, R197). -/
def Obligations.ControlWritesStartOrAreIgnored : Prop :=
  (∀ (both e : Bool) (s : State), s.resetPinLow = false →
    exec (.interruptEnable both e) s = .next { s with intEnable := e } ∧
    (s.device ≠ .reset → s.device ≠ .stopped →
      exec (.start e) s = .next { s with intEnable := e }) ∧
    (s.device ≠ .running → exec (.stop e) s = .next { s with intEnable := e })) ∧
  (∀ (e : Bool) (s : State), s.resetPinLow = false → s.device = .reset →
    (s.boot.toNat % 32 = 0 → exec (.start e) s =
      .next { s with intEnable := e, device := .starting, bootRead := some s.boot }) ∧
    (s.boot.toNat % 32 ≠ 0 → ∃ t, exec (.start e) s = .next t ∧
      HaltedBy .bootInvalid { s with intEnable := e } t))

/-- START in STOPPED returns to RUNNING with both reflex queues empty and everything else kept
(R163, R200), and both line arbiters, the allocation arbiter and the admin unit act again. A reflex
call whose grant has not ended since the STOP no longer empties the queue at its end (assumption log
21). -/
def Obligations.StartInStoppedReturnsToRunning : Prop :=
  ∀ (e : Bool) (s : State), s.resetPinLow = false → s.device = .stopped →
    ∃ t, exec (.start e) s = .next t ∧
    t.device = .running ∧
    AfterBoth { s with
      intEnable := e, device := .running, queues := ⟨[], []⟩
      lines :=
        ⟨{ s.engine .a with headEnd := if (s.engine .a).headEnd = .emptyQueue then .leaveQueue
            else (s.engine .a).headEnd },
          { s.engine .b with headEnd := if (s.engine .b).headEnd = .emptyQueue then .leaveQueue
            else (s.engine .b).headEnd }⟩ } t

/-- STOP in RUNNING (R37, R83 to R85, R88, R168, R199): an abort reaches every unstarted slot and every
started SWEEP and DISCOVER, every other slot runs on unchanged, and the device is STOPPING, or STOPPED
if all slots are FREE. A listen series between two windows ends, with the listen interval timer started,
and one that holds the line is to end after its window. The reflex queues are emptied; a head that
holds the line between two tries ends its grant, and one with a try in progress keeps its queue until
that try has ended (assumption log 21). -/
def Obligations.StopAbortsAndEmptiesTheQueues : Prop :=
  ∀ (e : Bool) (s : State), s.resetPinLow = false → s.device = .running →
    ∃ m t, exec (.stop e) s = .next t ∧
    Worked { s with
      intEnable := e, device := .stopping
      workFetch := s.workFetch.map fun f => { f with stopped := true } } m ∧
    AfterBoth m t ∧
    (t.device = .stopping ∨ t.device = .stopped) ∧
    (t.device = .stopped ↔ ∀ i, t.slot i = none) ∧
    (∀ l, (s.engine l).holder ≠ .reflex → t.queue l = []) ∧
    (∀ (i : SlotId) (x : Slot) (named : Prop), s.slot i = some x →
      (named ↔ x.started = false ∨ (∃ w, x.work = .sweep w) ∨ ∃ w, x.work = .discover w) →
      (named → Aborted i x s m) ∧ (¬named → m.slot i = some x)) ∧
    (∀ i x y, s.slot i = some x → x.state ≠ .finishing →
      (x.started = false ∨ (∃ w, x.work = .sweep w) ∨ (∃ w, x.work = .discover w)) →
      t.slot i = some y → y.state = .finishing ∨ y.abortPending = true) ∧
    (∀ (l : Line) (e f : LineEngine), noWaiting s l = true → e = s.engine l →
      f = (match e.series with
        | none => e
        | some sr =>
          if e.holder = .series then { e with series := some { sr with stopping := true } }
          else { e with
            series := none
            listenTimer := some (s.ms + BitVec.ofNat 32 e.config.listenInterval) }) →
      m.engine l = (if e.holder ≠ .reflex then f
        else if e.state = .idle then grantOver f else { f with headEnd := .emptyQueue }) ∧
      m.queue l = if e.holder = .reflex ∧ e.state ≠ .idle then s.queue l else [])

/-- A write of the register window outside CTRL, POST, TAKE and SIGNAL reaches BOOT alone (R194,
R213). While the RESET pin is held low no register write is taken, and a read returns IDENT or 0, as
after reset (R194). -/
def Obligations.PlainWritesReachBootAlone : Prop :=
  (∀ (o v : Word) (s : State), s.resetPinLow = false →
    (Instr.registerWrite o v).wellFormed = true →
    exec (.registerWrite o v) s = .next (if o = 0x0C then { s with boot := v } else s)) ∧
  (∀ (c : Instr) (s : State) (b1 b2 b3 : Bool) (o v : Word), s.resetPinLow = true →
    c ∈ [Instr.hostReset b1 b2 b3, .start b1, .stop b1, .interruptEnable b1 b2, .registerWrite o v,
      .post v, .take v, .signal v] →
    exec c s = .next s ∧ s.readRegister o = if o = 0 then 0x57540201 else 0)

/-- INT is asserted while a condition is set and the enable is on, and released at a reset (R192);
SIGNAL shows each condition at its place (R191, R213). A read of IDENT, CTRL, STAT and BOOT returns the
fields of R213 while the RESET pin is high, and one of POST, TAKE or an offset outside the registers
returns 0. -/
def Obligations.ReadsAndInterruptFollowTheState : Prop :=
  (∀ s : State, s.intAsserted = true ↔ s.intEnable = true ∧
    ((∃ n, (s.outRing n).signalled = true) ∨ s.deviceEvent = true)) ∧
  (∀ s : State, (resetPart s).intAsserted = false) ∧
  (∀ (s : State) (q : ResultRingId), s.resetPinLow = false →
    (s.readRegister 0x18).getLsbD q.val = (s.resultRing q).out.signalled) ∧
  (∀ s : State, s.resetPinLow = false → (s.readRegister 0x18).getLsbD 4 = s.notice.signalled ∧
    (s.readRegister 0x18).getLsbD 5 = s.deviceEvent ∧ (s.readRegister 0x18).toNat < 64) ∧
  (∀ s : State, s.resetPinLow = false →
    s.readRegister 0x00 = 0x57540201 ∧
    (s.readRegister 0x04).toNat = (if s.intEnable = true then 256 else 0) ∧
    (s.readRegister 0x08).toNat =
      (match s.device with
        | .reset => 0 | .starting => 1 | .running => 2 | .stopping => 3 | .stopped => 4
        | .halted => 5) +
      256 * (match s.halt with
        | .none => 0 | .bootInvalid => 1 | .bootFault => 2 | .adminFault => 3
        | .result0Fault => 4) ∧
    s.readRegister 0x0C = s.boot ∧
    ∀ o, o ∉ [0x00, 0x04, 0x08, 0x0C, 0x18] → s.readRegister o = 0)

/-- A POST (R177, R178, R187): for an ACTIVE or HELD ring a good count becomes posted, and any other one
makes the ring FAULTED with RING_FAULT, which halts the device for ring 0. A POST to a CLOSED or
DRAINING ring, or to none, is discarded with POST_IGNORED, one to a FAULTED ring without a notice, and
any in HALTED (R193). -/
def Obligations.PostsAreJudgedByTheirRing : Prop :=
  (∀ (v : Word) (s : State) (r : WorkRingId), s.resetPinLow = false → s.device ≠ .halted →
    (ringField v).toNat = r.val → (s.workRing r).state = .active ∨ (s.workRing r).state = .held →
    if (countField v - (s.workRing r).fetched).toNat ≤ (s.workRing r).size ∧
        ((s.workRing r).posted - (s.workRing r).fetched).toNat
          ≤ (countField v - (s.workRing r).fetched).toNat then
      ∃ t, exec (.post v) s = .next t ∧
        Serviced (s.setWorkRing r { s.workRing r with posted := countField v }) t
    else if r = 0 then
      ∃ t, exec (.post v) s = .next t ∧
        HaltedBy .adminFault (createNotice none (.ringFault (.work r) .badPost 0)
          (s.setWorkRing r { s.workRing r with state := .faulted })) t
    else
      ∃ t, exec (.post v) s = .next t ∧
        Serviced (createNotice none (.ringFault (.work r) .badPost 0)
          (s.setWorkRing r { s.workRing r with state := .faulted })) t) ∧
  (∀ (v : Word) (s : State), s.resetPinLow = false →
    (s.device = .halted → exec (.post v) s = .next s) ∧
    (s.device ≠ .halted → 8 ≤ (ringField v).toNat → ∃ t, exec (.post v) s = .next t ∧
      Serviced (createNotice none (.postIgnored (ringField v) .noSuchRing (countField v)) s) t) ∧
    (∀ r : WorkRingId, s.device ≠ .halted → (ringField v).toNat = r.val →
      (s.workRing r).state = .closed ∨ (s.workRing r).state = .draining →
      ∃ t, exec (.post v) s = .next t ∧
        Serviced (createNotice none (.postIgnored (ringField v) .ringClosed (countField v)) s) t) ∧
    (∀ r : WorkRingId, s.device ≠ .halted → (ringField v).toNat = r.val →
      (s.workRing r).state = .faulted → ∃ t, exec (.post v) s = .next t ∧ Serviced s t))

/-- A TAKE (R184, R190, R193): a good count becomes consumed, and a TAKE that empties the ring stops
its holdoff timer; one that names no ring, or a CLOSED or FAULTED one, or comes in HALTED, changes
nothing. -/
def Obligations.GoodTakeMovesConsumed : Prop :=
  ∀ (v : Word) (s : State), s.resetPinLow = false →
    (s.device = .halted → exec (.take v) s = .next s) ∧
    (4 ≤ (ringField v).toNat → (ringField v).toNat ≠ 8 → exec (.take v) s = .next s) ∧
    (∀ n : RingName, s.device ≠ .halted →
      (ringField v).toNat = (match n with | .result q => q.val | .notice => 8) →
      ((s.outRing n).state ≠ .active → ∃ t, exec (.take v) s = .next t ∧ Serviced s t) ∧
      ((s.outRing n).state = .active →
        (countField v - (s.outRing n).consumed).toNat
          ≤ ((s.outRing n).written - (s.outRing n).consumed).toNat →
        ∃ t, exec (.take v) s = .next t ∧
          Serviced (s.setOutRing n { s.outRing n with
            consumed := countField v
            timer := if (s.outRing n).written = countField v then none
              else (s.outRing n).timer }) t))

/-- A BAD_TAKE (R184, R185, R187, R188): the ring becomes FAULTED with consumed kept and its timer
stopped; a result ring counts its pending results lost, and their slots become FREE; a result whose
write is in flight is kept until that ends, but for result ring 0, where it is counted lost too.
RING_FAULT is created, and for result ring 0 the device halts. A CLOSE_NOTICE_RING that waits for a write
stays current, the ring FAULTED, until that has ended: the model's reading of R188 and R204 (assumption
log 29). -/
def Obligations.BadTakeFaultsTheRing : Prop :=
  ∀ (v : Word) (s : State), s.resetPinLow = false → s.device ≠ .halted →
    ((ringField v).toNat = 8 → s.notice.state = .active →
      (s.notice.written - s.notice.consumed).toNat < (countField v - s.notice.consumed).toNat →
      ∃ t, exec (.take v) s = .next t ∧
        Serviced (createNotice none (.ringFault .notice .badTake 0)
          { s with notice := { s.notice with state := .faulted, timer := none } }) t ∧
        (s.adminWaits .closingNotice = true → s.notice.access ≠ .idle →
          t.notice.state = .faulted ∧ t.notice.access = s.notice.access ∧ t.admin = s.admin)) ∧
    (∀ q : ResultRingId, (ringField v).toNat = q.val → (s.resultRing q).out.state = .active →
      ((s.resultRing q).out.written - (s.resultRing q).out.consumed).toNat
        < (countField v - (s.resultRing q).out.consumed).toNat →
      ∃ (k : Nat) (t : State), exec (.take v) s = .next t ∧
        k = (if q = 0 then 0 else match (s.resultRing q).out.access with
          | .record _ _ => min 1 (s.resultRing q).pending.length
          | .idle | .progress _ _ => 0) ∧
        (t.resultRing q).pending = (s.resultRing q).pending.take k ∧
        { (t.resultRing q).out with state := .active, timer := none }
          = { (s.resultRing q).out with timer := none } ∧
        (t.resultRing q).out.timer = none ∧
        ((t.resultRing q).out.state = .faulted ∨
          ((t.resultRing q).out.state = .closed ∧ s.adminWaits (.closingResult q) = true)) ∧
        (t.resultRing q).lost = (if (s.resultRing q).pending.length = k then (s.resultRing q).lost
          else min 65535 ((s.resultRing q).lost + (s.resultRing q).pending.length - k)) ∧
        (∀ x ∈ (s.resultRing q).pending.drop k, ∀ i, x.sender = .slot i → t.slot i = none) ∧
        (s.buffer.length < 16 → t.buffer = s.buffer ++
          [{ body := .ringFault (.result q) .badTake (t.resultRing q).lost, line := none,
             stamp := s.ms, lost := s.lost }]) ∧
        (if q = 0 then t.device = .halted ∧ t.halt = .result0Fault ∧ t.deviceEvent = true
          else (t.device = s.device ∨ (s.device = .stopping ∧ t.device = .stopped)) ∧
            ∀ r : WorkRingId, r ≠ 0 → (s.workRing r).bound = q → (s.workRing r).state = .active →
              (t.workRing r).state = .held))

/-- A write of SIGNAL clears each condition it names; a ring whose condition was set and that still
has entries starts its holdoff timer afresh (R190, R191), unless the part is HALTED (R193). -/
def Obligations.SignalAcknowledgesTheConditions : Prop :=
  ∀ (v : Word) (s : State), s.resetPinLow = false → ∃ t, exec (.signal v) s = .next t ∧
    (∀ n, t.outRing n =
      if v.getLsbD (match n with | .result q => q.val | .notice => 4) = true ∧
          (s.outRing n).signalled = true then
        { s.outRing n with
          signalled := false
          timer := if s.device ≠ .halted ∧ (s.outRing n).state = .active ∧
              0 < ((s.outRing n).written - (s.outRing n).consumed).toNat then
            some (s.ms + BitVec.ofNat 32 (s.outRing n).holdoff) else (s.outRing n).timer }
      else s.outRing n) ∧
    (∀ q, (t.resultRing q).pending = (s.resultRing q).pending ∧
      (t.resultRing q).lost = (s.resultRing q).lost) ∧
    t.deviceEvent = (s.deviceEvent && !v.getLsbD 5) ∧
    { t with results := s.results, notice := s.notice, deviceEvent := s.deviceEvent } = s

/-! ## Boot -/

/-- The boot block read ends (R197, R198, R201): with every field in its range, at the places of R212,
work ring 0 and result ring 0 open and the device is RUNNING; with any other block it is HALTED with
BOOT_INVALID, and after a bus error with BOOT_FAULT. -/
def Obligations.BootBlockOpensTheRingsOrHalts : Prop :=
  (∀ (b : Record) (s : State), s.device = .starting → s.bootRead.isSome = true →
    if (join32 b[3] b[2] b[1] b[0]).toNat % 32 = 0 ∧
        (join16 b[5] b[4]).toNat ∈ [8, 16, 32, 64, 128, 256, 512, 1024] ∧
        (join32 b[11] b[10] b[9] b[8]).toNat % 32 = 0 ∧
        (join16 b[13] b[12]).toNat ∈ [8, 16, 32, 64, 128, 256, 512, 1024] ∧
        (join32 b[19] b[18] b[17] b[16]).toNat % 4 = 0 ∧
        1 ≤ b[14].toNat ∧ b[14].toNat ≤ 64 then
      ∃ t, exec (.bootBlockRead b) s = .next t ∧
        Serviced { (s.setWorkRing 0
            { state := .active, base := join32 b[3] b[2] b[1] b[0],
              size := (join16 b[5] b[4]).toNat, line := .a, cls := .normal, bound := 0,
              credit := 1, posted := 0, fetched := 0 }).setResultRing 0
            { out := { state := .active, base := join32 b[11] b[10] b[9] b[8],
                       size := (join16 b[13] b[12]).toNat,
                       progress := join32 b[19] b[18] b[17] b[16], threshold := b[14].toNat,
                       holdoff := b[15].toNat, written := 0, consumed := 0, signalled := false,
                       timer := none, access := .idle }
              lost := 0, pending := [] } with
          device := .running, bootRead := none } t ∧
        t.device = .running ∧ (t.workRing 0).state = .active ∧
        (t.resultRing 0).out.state = .active
    else
      ∃ t, exec (.bootBlockRead b) s = .next t ∧ HaltedBy .bootInvalid s t) ∧
  (∀ s : State, s.device = .starting → s.bootRead.isSome = true →
    ∃ t, exec .bootFault s = .next t ∧ HaltedBy .bootFault s t)

/-! ## Fetches of work records -/

/-- A fetched record that passes its checks counts as fetched and fills its reserved slot (R64, R66 to
R68): the slot takes the record's fields with the time, the line and the class, stands as WAITING, and
is then judged (R70); a SWEEP's list is formed from the table at the fill (R98). A slot filled on a
DRAINING ring, or after a STOP, is aborted at once (R66, R83), with a detail of zero but for the end
reason of a DISCOVER (R97, R101, R126, R140), and its result joins the bound result ring, or is
counted lost on one that is not ACTIVE (R185). A fetch that ends with a bus error (R66, R178, R187)
drops the reservation and moves no count; an ACTIVE or HELD ring becomes FAULTED with RING_FAULT,
which halts the device for ring 0. -/
def Obligations.FetchesFillTheSlotOrFaultTheRing : Prop :=
  (∀ (r : Record) (k : WorkKind) (c : Instr),
    (k, c) ∈ [(WorkKind.call, Instr.call r), (.sweep, .sweep r), (.param, .paramWrite r),
      (.discover, .discover r)] →
    ∀ (s : State) (f : WorkFetch) (retry : Option Nat) (work : Work) (x : Slot) (m : State),
      s.device ≠ .halted → s.workFetch = some f → decodeWork k r = some (retry, work) →
      x = { state := .waiting .defer, ring := f.ring, tag := join32 r[7] r[6] r[5] r[4],
            code := r[0], line := (s.workRing f.ring).line, cls := (s.workRing f.ring).cls,
            seq := s.fetchSeq, fetchTime := s.ms, force := r[1].getLsbD 0, retry := retry,
            work := (match work with
              | .sweep w => .sweep { w with
                  marks := (allAddrs.filter fun a => w.all ||
                    (s.entry (s.workRing f.ring).line a).state != .vacant).map
                      fun a => (a, .unvisited) }
              | w => w)
            tries := 0, started := false, abortPending := false,
            deferAt := if (join16 r[9] r[8]).toNat = 0 then none
              else some (s.ms + BitVec.ofNat 32 (join16 r[9] r[8]).toNat),
            expireAt := if (join16 r[11] r[10]).toNat = 0 then none
              else some (s.ms + BitVec.ofNat 32 (join16 r[11] r[10]).toNat),
            budgetAt := none, pollAt := none, result := none } →
      m = { s.setWorkRing f.ring { s.workRing f.ring with
              fetched := (s.workRing f.ring).fetched + 1 } with
            workFetch := none, fetchSeq := s.fetchSeq + 1 } →
      (s.device = .running → f.stopped = false → (s.workRing f.ring).state ≠ .draining →
        ∃ t, exec c s = .next t ∧ After x.line (m.setSlot f.slot (some x)) t) ∧
      (s.device ≠ .running ∨ f.stopped = true ∨ (s.workRing f.ring).state = .draining →
        ∃ t n, exec c s = .next t ∧
          n = ended f.slot { x with work := match x.work with
              | .discover w => .discover { w with endReason := .aborted }
              | w => w } .aborted
            (match x.work with | .discover _ => [4, 0, 0, 0, 0, 0, 0] | _ => []) m ∧
          After x.line (match x.work with
            | .param w => n.setEntry x.line w.addr { s.entry x.line w.addr with
                lock := if (s.entry x.line w.addr).lock = some f.slot then none
                  else (s.entry x.line w.addr).lock }
            | _ => n) t)) ∧
  (∀ (s : State) (f : WorkFetch), s.device ≠ .halted → s.workFetch = some f → f.ring ≠ 0 →
    if (s.workRing f.ring).state = .active ∨ (s.workRing f.ring).state = .held then
      ∃ t, exec (.fetchFault .slotTable) s = .next t ∧
        Serviced (createNotice none (.ringFault (.work f.ring) .fetchFault 0)
          { s.setWorkRing f.ring { s.workRing f.ring with state := .faulted } with
            workFetch := none }) t ∧
        (t.workRing f.ring).state = .faulted
    else ∃ t, exec (.fetchFault .slotTable) s = .next t ∧
      Serviced { s with workFetch := none } t) ∧
  (∀ s : State, s.device ≠ .halted → s.adminFetch.isSome = true →
    if (s.workRing 0).state = .active ∨ (s.workRing 0).state = .held then
      ∃ t, exec (.fetchFault .adminUnit) s = .next t ∧
        HaltedBy .adminFault (createNotice none (.ringFault (.work 0) .fetchFault 0)
          { s.setWorkRing 0 { s.workRing 0 with state := .faulted } with adminFetch := none }) t
    else exec (.fetchFault .adminUnit) s = .next { s with adminFetch := none })

/-- The checks of the four kinds of work record and the fields they give (R67, R68, R89, R98, R104,
R107, R127), at the places of R212: a record passes exactly when each field it uses is in its range. A
DISCOVER does not use the retry override (assumption log 15). -/
def Obligations.WorkRecordsAreChecked : Prop :=
  ∀ (r : Record) (timed retried : Prop),
    timed = ((join16 r[11] r[10]).toNat = 0 ∨
      (join16 r[9] r[8]).toNat < (join16 r[11] r[10]).toNat) →
    retried = (r[2] = 0xFF ∨ r[2].toNat ≤ 7) →
    ((decodeWork .call r).isSome = true ↔ timed ∧ retried ∧ r[16].toNat ≤ 6 ∧
      ((r[12] = 0 ∧ 1 ≤ r[13].toNat ∧ r[13].toNat ≤ 80 ∧ r[15].toNat ≤ 1) ∨
        (r[12] = 1 ∧ 1 ≤ r[13].toNat ∧ r[13].toNat ≤ 12) ∨ r[12] = 2) ∧
      ((16 ≤ r[14].toNat ∧ r[14].toNat ≤ 63) ∨
        (r[14] = 0 ∧ r[16] = 0 ∧ r[12] = 0 ∧ r[15] = 1) ∨
        (r[14] = 2 ∧ r[16] = 0 ∧ ((r[12] = 0 ∧ r[15] = 1) ∨ r[12] = 2)))) ∧
    ((decodeWork .sweep r).isSome = true ↔ timed ∧ retried ∧ r[12].toNat ≤ 1) ∧
    ((decodeWork .param r).isSome = true ↔ timed ∧ retried ∧
      1 ≤ r[12].toNat ∧ r[12].toNat ≤ 80 ∧ 1 ≤ r[14].toNat ∧ r[14].toNat ≤ 8 ∧
      1 ≤ r[15].toNat ∧ r[15].toNat ≤ 3 ∧
      ((join16 r[17] r[16]).toNat = 0 ∨
        (10 ≤ (join16 r[17] r[16]).toNat ∧ (join16 r[17] r[16]).toNat ≤ 250)) ∧
      (r[13] = 0 → r[14] = 2 ∧ r[18] &&& 0xF0 = 0)) ∧
    ((decodeWork .discover r).isSome = true ↔ timed ∧ r[12].toNat ∈ [8, 16, 32] ∧
      1 ≤ r[13].toNat ∧ r[13].toNat ≤ 64 ∧
      1 ≤ r[14].toNat ∧ r[14].toNat ≤ r[15].toNat ∧ r[15].toNat ≤ 80) ∧
    decodeWork .unknown r = none ∧
    (∀ k retry work, decodeWork k r = some (retry, work) →
      (k ≠ .discover → retry = if r[2] = 0xFF then none else some r[2].toNat) ∧
      (k = .call → ∃ w, work = .call w ∧ w.verb.toNat = r[14].toNat ∧
        (w.reply = true ↔ r[12] = 0 ∧ r[15] = 1) ∧
        w.args = [r[17], r[18], r[19], r[20], r[21], r[22]].take r[16].toNat ∧
        (r[12] = 0 → ∃ a : Addr, w.target = .node a ∧ r[13].toNat = a.val + 1) ∧
        (r[12] = 1 → ∃ z : Zone, w.target = .zone z ∧ r[13].toNat = z.val + 1) ∧
        (r[12] = 2 → w.target = .all) ∧
        w.busyLimit = 0 ∧ w.busyRounds = 0 ∧ w.lastReply = none ∧ w.allGarbled = false ∧
        w.noticePending = false ∧ w.data = []) ∧
      (k = .sweep → work = .sweep { all := r[12] == 1, marks := [], step := none }) ∧
      (k = .param → ∃ (a : Addr) (data : List Byte), r[12].toNat = a.val + 1 ∧
        data = [r[18], r[19], r[20], r[21], r[22], r[23], r[24], r[25]].take r[14].toNat ∧
        work = .param
          { addr := a, index := r[13], length := r[14].toNat, data := data,
            budget := (join16 r[17] r[16]).toNat, attempts := r[15].toNat,
            digest := commitDigest r[13] r[14].toNat data, phase := none, attempt := 1,
            unverified := false, finalFlag := false, polls := 0, lastReply := none,
            readback := none, firstGrant := none, preludeUsed := false, preludeBusy := false,
            accepted := false, verified := false, mismatch := false, budgetPassed := false,
            outcome := .none, replyData := [] }) ∧
      (k = .discover → ∃ a b : Addr, r[14].toNat = a.val + 1 ∧ r[15].toNat = b.val + 1 ∧
        work = .discover
          { positions := r[12].toNat, roundLimit := r[13].toNat, poolFirst := a, poolLast := b,
            phase := .roll, rounds := 0, seed := none, nextPosition := 0, clean := [],
            roundCollided := 0, avoid := [], current := none, candidate := none, assigned := 0,
            lost := 0, cleanTotal := 0, collidedTotal := 0, endReason := .none }))

/-- A record that fails its checks, or has no known kind, ends its slot BAD_RECORD with a detail of zero
(R66, R67, R68, R82): the result joins the bound result ring, or is counted lost on one that is not
ACTIVE, and the slot is then FREE (R185, R186). That the slot of a record of a known kind holds no
work is the model's reading (assumption log 22). -/
def Obligations.InvalidRecordEndsBadRecord : Prop :=
  ∀ (r : Record) (k : WorkKind) (c : Instr),
    (k, c) ∈ [(WorkKind.call, Instr.call r), (.sweep, .sweep r), (.param, .paramWrite r),
      (.discover, .discover r), (.unknown, .unknownWorkKind r)] →
    ∀ (s : State) (f : WorkFetch), s.device ≠ .halted → s.workFetch = some f →
      decodeWork k r = none →
      ∃ (m t : State) (rec : ResultRecord), exec c s = .next t ∧
        After (s.workRing f.ring).line m t ∧
        rec = { sender := .slot f.slot, code := r[0], status := .badRecord, ring := f.ring,
                tag := join32 r[7] r[6] r[5] r[4], detail := [] } ∧
        (m.workRing f.ring).fetched = (s.workRing f.ring).fetched + 1 ∧ m.workFetch = none ∧
        m.fetchSeq = s.fetchSeq + 1 ∧ m.lines = s.lines ∧ m.nodes = s.nodes ∧
        m.buffer = s.buffer ∧ (∀ i, i ≠ f.slot → m.slot i = s.slot i) ∧
        (if (s.resultRing (s.workRing f.ring).bound).out.state = .active then
          (m.resultRing (s.workRing f.ring).bound).pending
              = (s.resultRing (s.workRing f.ring).bound).pending ++ [rec] ∧
            ∃ x, m.slot f.slot = some x ∧ x.state = .finishing ∧ x.result = some rec ∧
              x.work = .unknown
          else m.slot f.slot = none ∧
            (m.resultRing (s.workRing f.ring).bound).lost
              = min 65535 ((s.resultRing (s.workRing f.ring).bound).lost + 1))

/-- Judgement (R70 to R78). After an event of a line each WAITING slot of it waits with the first
reason that applies to it, and to a READY one none applies. When none applies to an unstarted slot
that was waiting for a node whose entry is CLASH, without FORCE, it ends NODE_CLASH instead. The
target sets are those of R69, for a SWEEP as R98 names it: the addresses marked UNVISITED or ASIDE,
before the first grant too (assumption log 23). -/
def Obligations.JudgementFollowsTheReasons : Prop :=
  (∀ (l : Line) (s : State) (i : SlotId) (x : Slot), (settleLine l s).slot i = some x →
    x.line = l →
    (∀ r, x.state = .waiting r → Applies (settleLine l s) i x r ∧
      ∀ r', place r' < place r → ¬Applies (settleLine l s) i x r') ∧
    (x.state = .ready → ∀ r, ¬Applies (settleLine l s) i x r)) ∧
  (∀ (s : State) (i : SlotId) (x : Slot) (a : Addr), s.slot i = some x → x.started = false →
    x.force = false → (∃ r, x.state = .waiting r) →
    ((∃ w, x.work = .call w ∧ w.target = .node a) ∨ ∃ w, x.work = .param w ∧ w.addr = a) →
    (s.entry x.line a).state = .clash → (s.entry x.line a).lock = none →
    (∀ r, ¬Applies s i x r) →
    ∃ v, ((∀ w, x.work = .call w → v = x.work) ∧
      judgeSlot i s = ended i { x with work := v } .nodeClash [] s)) ∧
  (∀ (s : State) (x : Slot) (a : Addr), inSlotTarget s x a = true ↔
    match x.work with
    | .call w => (match w.target with
      | .node b => a = b
      | .zone z => (s.entry x.line a).state ≠ .vacant ∧
          ∀ zones, (s.entry x.line a).zones = some zones → zones.getLsbD z.val = true
      | .all => True
      | .unaddressed => False)
    | .param w => a = w.addr
    | .sweep w => (a, Mark.unvisited) ∈ w.marks ∨ (a, Mark.aside) ∈ w.marks
    | .discover w => w.poolFirst ≤ a ∧ a ≤ w.poolLast
    | .unknown => False)

/-! ## Administrative requests -/

/-- A record that fails its checks (R39, R59, R169, R170, R171, R205 to R209), and a code that names no
request (R203), is answered BAD_RECORD and changes nothing else. -/
def Obligations.BadAdminRecordsChangeNothing : Prop :=
  ∀ (r : Record) (c : Instr) (s : State), AdminReady s →
    (c = .openWorkRing r ∧ decodeOpenWork r = none) ∨
    (c = .closeWorkRing r ∧ (r[12] = 0 ∨ 8 ≤ r[12].toNat)) ∨
    (c = .openResultRing r ∧ (r[12] = 0 ∨ 4 ≤ r[12].toNat ∨ decodeOpenOut r = none)) ∨
    (c = .closeResultRing r ∧ (r[12] = 0 ∨ 4 ≤ r[12].toNat)) ∨
    (c = .openNoticeRing r ∧ decodeOpenOut r = none) ∨
    (c = .lineSet r ∧ decodeLineSet r = none) ∨
    ((c = .lineEnable r ∨ c = .lineDisable r ∨ c = .lineReset r) ∧ 2 ≤ r[12].toNat) ∨
    (c = .reflexPut r ∧ decodeReflexPut r = none) ∨
    (c = .reflexDrop r ∧ 32 ≤ r[12].toNat) ∨
    (c = .reflexRead r ∧ decodeReflexRead r = none) ∨
    (c = .nodeRead r ∧ decodeNodeRead r = none) ∨
    (c = .nodeClear r ∧ decodeNodeClear r = none) ∨
    (c = .abort r ∧ decodeAbort r = none) ∨
    c = .unknownAdminRequest r →
    ∃ t, exec c s = .next t ∧ Serviced (answered r[0] (recordTag r) .badRecord [] (requestTaken r s)) t

/-- The checks of the records that open rings and of LINE_SET (R39, R205), at the places of R212: a
record passes exactly when each field is in its range, and gives the fields its bytes name. -/
def Obligations.OpenAndLineRecordsAreChecked : Prop :=
  ∀ r : Record,
    ((decodeOpenWork r).isSome = true ↔
      1 ≤ r[12].toNat ∧ r[12].toNat ≤ 7 ∧ r[13].toNat ≤ 1 ∧ r[14].toNat ≤ 2 ∧ r[15].toNat ≤ 3 ∧
      1 ≤ r[16].toNat ∧ r[16].toNat ≤ 24 ∧
      (join16 r[19] r[18]).toNat ∈ [8, 16, 32, 64, 128, 256, 512, 1024] ∧
      (join32 r[23] r[22] r[21] r[20]).toNat % 32 = 0) ∧
    ((decodeOpenOut r).isSome = true ↔
      1 ≤ r[13].toNat ∧ r[13].toNat ≤ 64 ∧
      (join16 r[19] r[18]).toNat ∈ [8, 16, 32, 64, 128, 256, 512, 1024] ∧
      (join32 r[23] r[22] r[21] r[20]).toNat % 32 = 0 ∧
      (join32 r[27] r[26] r[25] r[24]).toNat % 4 = 0) ∧
    ((decodeLineSet r).isSome = true ↔
      r[12].toNat ≤ 1 ∧ r[13].toNat ≤ 2 ∧ r[14].toNat ≤ 7 ∧ 1 ≤ r[15].toNat ∧
      r[15].toNat ≤ 15 ∧ 20 ≤ (join16 r[17] r[16]).toNat ∧ (join16 r[17] r[16]).toNat ≤ 2000 ∧
      2 ≤ r[18].toNat ∧ r[18].toNat ≤ 30 ∧ 10 ≤ (join16 r[21] r[20]).toNat ∧
      (join16 r[21] r[20]).toNat ≤ 250 ∧ (join16 r[23] r[22]).toNat ≤ 1000) ∧
    (∀ k w, decodeOpenWork r = some (k, w) →
      k.val = r[12].toNat ∧ w.base = join32 r[23] r[22] r[21] r[20] ∧
      w.size = (join16 r[19] r[18]).toNat ∧ w.bound.val = r[15].toNat ∧
      w.credit = r[16].toNat ∧ w.posted = 0 ∧ w.fetched = 0 ∧
      (w.line = .a ↔ r[13] = 0) ∧ (w.cls = .urgent ↔ r[14] = 0) ∧ (w.cls = .bulk ↔ r[14] = 2)) ∧
    (∀ l c, decodeLineSet r = some (l, c) →
      (l = .a ↔ r[12] = 0) ∧
      c = { rate := if r[13] = 0 then .r2400 else if r[13] = 1 then .r4800 else .r9600,
            retryLimit := r[14].toNat, silence := r[15].toNat,
            listenInterval := (join16 r[17] r[16]).toNat, pollInterval := r[18].toNat,
            budget := (join16 r[21] r[20]).toNat, settle := (join16 r[23] r[22]).toNat }) ∧
    (∀ o, decodeOpenOut r = some o →
      o = { state := .active, base := join32 r[23] r[22] r[21] r[20],
            size := (join16 r[19] r[18]).toNat, progress := join32 r[27] r[26] r[25] r[24],
            threshold := r[13].toNat, holdoff := r[14].toNat, written := 0, consumed := 0,
            signalled := false, timer := none, access := .idle })

/-- OPEN_WORK_RING (R174, R205): a CLOSED ring bound to an ACTIVE result ring takes the record's fields
with counts 0 and enters ACTIVE, or HELD on a line that is OFF, RESTORING or DOWN. OPEN_RESULT_RING
(R181, R205) and OPEN_NOTICE_RING (R188, R205): a CLOSED ring takes the record's fields with counts 0
and enters ACTIVE; a result ring's lost count is reported and becomes 0. An access of an earlier
opening stays in flight (assumption log 17). In any other state the request is BAD_STATE.
CLOSE_RESULT_RING (R186) is refused for a CLOSED ring and for an ACTIVE one bound to an open work ring;
CLOSE_NOTICE_RING (R188) for a CLOSED one. A FAULTED ring, and an ACTIVE one with nothing left to write,
is CLOSED at once with its counts; any other one keeps the request waiting, without an answer. A
CLOSE_NOTICE_RING waits for a write in flight on a FAULTED ring too (R204; log 29). -/
def Obligations.RingsOpenAndClose : Prop :=
  (∀ (r : Record) (s : State) (k : WorkRingId) (w : WorkRing), AdminReady s →
    decodeOpenWork r = some (k, w) →
    if (s.workRing k).state = .closed ∧ (s.resultRing w.bound).out.state = .active then
      ∃ t, exec (.openWorkRing r) s = .next t ∧
        Serviced (answered r[0] (recordTag r) .ok [] ((requestTaken r s).setWorkRing k { w with
          state := if (s.engine w.line).state.usable = true then .active else .held })) t ∧
        t.workRing k = { w with
          state := if (s.engine w.line).state.usable = true then .active else .held }
    else
      ∃ t, exec (.openWorkRing r) s = .next t ∧
        Serviced (answered r[0] (recordTag r) .badState [] (requestTaken r s)) t) ∧
  (∀ (r : Record) (s : State) (q : ResultRingId) (o : OutputRing), AdminReady s → q ≠ 0 →
    r[12].toNat = q.val → decodeOpenOut r = some o →
    if (s.resultRing q).out.state = .closed then
      ∃ t, exec (.openResultRing r) s = .next t ∧
        Serviced (answered r[0] (recordTag r) .ok (le16 (BitVec.ofNat 16 (s.resultRing q).lost))
          ((requestTaken r s).setResultRing q
            { s.resultRing q with
              out := { o with access := (s.resultRing q).out.access.madeStale }, lost := 0 })) t ∧
        (t.resultRing q).out.state = .active ∧ (t.resultRing q).lost = 0
    else
      ∃ t, exec (.openResultRing r) s = .next t ∧
        Serviced (answered r[0] (recordTag r) .badState [] (requestTaken r s)) t) ∧
  (∀ (r : Record) (s : State) (o : OutputRing), AdminReady s → decodeOpenOut r = some o →
    if s.notice.state = .closed then
      ∃ t, exec (.openNoticeRing r) s = .next t ∧
        Serviced (answered r[0] (recordTag r) .ok [] { requestTaken r s with
          notice := { o with access := s.notice.access.madeStale } }) t ∧
        t.notice.state = .active
    else
      ∃ t, exec (.openNoticeRing r) s = .next t ∧
        Serviced (answered r[0] (recordTag r) .badState [] (requestTaken r s)) t) ∧
  (∀ (r : Record) (s : State) (q : ResultRingId), AdminReady s → q ≠ 0 → r[12].toNat = q.val →
    ((s.resultRing q).out.state = .closed →
      ∃ t, exec (.closeResultRing r) s = .next t ∧
        Serviced (answered r[0] (recordTag r) .badState [] (requestTaken r s)) t) ∧
    ((s.resultRing q).out.state = .active →
      (∃ k : WorkRingId, k ≠ 0 ∧ (s.workRing k).bound = q ∧ (s.workRing k).state ≠ .closed ∧
        (s.workRing k).state ≠ .faulted) →
      ∃ t, exec (.closeResultRing r) s = .next t ∧
        Serviced (answered r[0] (recordTag r) .bound [] (requestTaken r s)) t) ∧
    ((s.resultRing q).out.state = .faulted ∨
      ((s.resultRing q).out.state = .active ∧ (s.resultRing q).pending = [] ∧
        (s.resultRing q).out.access = .idle ∧
        ∀ k : WorkRingId, k ≠ 0 → (s.workRing k).bound = q →
          (s.workRing k).state = .closed ∨ (s.workRing k).state = .faulted) →
      ∃ t, exec (.closeResultRing r) s = .next t ∧
        Serviced { requestTaken r s with
          admin := some { code := r[0], tag := recordTag r, phase := .closingResult q } } t ∧
        (t.resultRing q).out.state = .closed ∧ (t.resultRing q).out.timer = none ∧
        t.admin = some { code := r[0], tag := recordTag r, phase := .answered } ∧
        (t.resultRing 0).pending = (s.resultRing 0).pending ++
          [{ sender := .admin, code := r[0], status := .ok, ring := 0, tag := recordTag r,
             detail := le16 (s.resultRing q).out.written ++
               le16 (BitVec.ofNat 16 (s.resultRing q).lost) }]) ∧
    ((s.resultRing q).out.state = .active →
      (∀ k : WorkRingId, k ≠ 0 → (s.workRing k).bound = q →
        (s.workRing k).state = .closed ∨ (s.workRing k).state = .faulted) →
      (s.resultRing q).pending ≠ [] ∨ (s.resultRing q).out.access ≠ .idle →
      ∃ t, exec (.closeResultRing r) s = .next t ∧
        Serviced { requestTaken r s with
          admin := some { code := r[0], tag := recordTag r, phase := .closingResult q } } t ∧
        (t.resultRing q).out.state = .active ∧
        t.admin = some { code := r[0], tag := recordTag r, phase := .closingResult q } ∧
        (t.resultRing 0).pending = (s.resultRing 0).pending)) ∧
  (∀ (r : Record) (s : State), AdminReady s →
    (s.notice.state = .closed →
      ∃ t, exec (.closeNoticeRing r) s = .next t ∧
        Serviced (answered r[0] (recordTag r) .badState [] (requestTaken r s)) t) ∧
    (s.notice.state ≠ .closed → s.notice.access = .idle →
      ∃ t, exec (.closeNoticeRing r) s = .next t ∧
        Serviced { requestTaken r s with
          admin := some { code := r[0], tag := recordTag r, phase := .closingNotice }
          notice := if s.notice.state = .faulted then
            { s.notice with state := .closed, timer := none } else s.notice } t ∧
        t.notice = { s.notice with state := .closed, timer := none } ∧
        t.admin = some { code := r[0], tag := recordTag r, phase := .answered } ∧
        (t.resultRing 0).pending = (s.resultRing 0).pending ++
          [{ sender := .admin, code := r[0], status := .ok, ring := 0, tag := recordTag r,
             detail := le16 s.notice.written }]) ∧
    (s.notice.state ≠ .closed → s.notice.access ≠ .idle →
      ∃ t, exec (.closeNoticeRing r) s = .next t ∧
        Serviced { requestTaken r s with
          admin := some { code := r[0], tag := recordTag r, phase := .closingNotice }
          notice := if s.notice.state = .faulted then
            { s.notice with state := .closed, timer := none } else s.notice } t ∧
        t.notice = (if s.notice.state = .faulted then
          { s.notice with state := .closed, timer := none } else s.notice) ∧
        t.admin = some { code := r[0], tag := recordTag r, phase := .closingNotice } ∧
        (t.resultRing 0).pending = (s.resultRing 0).pending))

/-- CLOSE_WORK_RING (R83 to R85, R180): an ACTIVE, HELD or FAULTED ring enters DRAINING, an abort
reaches its unstarted slots, every other slot runs on unchanged, and the ring is CLOSED at once with the
answer OK and its counts if it holds no slot; a CLOSED or DRAINING ring makes the request BAD_STATE. -/
def Obligations.CloseWorkRingDrainsTheRing : Prop :=
  ∀ (r : Record) (s : State) (k : WorkRingId), AdminReady s → k ≠ 0 → r[12].toNat = k.val →
    ((s.workRing k).state = .closed ∨ (s.workRing k).state = .draining →
      ∃ t, exec (.closeWorkRing r) s = .next t ∧
        Serviced (answered r[0] (recordTag r) .badState [] (requestTaken r s)) t) ∧
    ((s.workRing k).state ≠ .closed → (s.workRing k).state ≠ .draining →
      ∃ m t, exec (.closeWorkRing r) s = .next t ∧
        Worked { (requestTaken r s).setWorkRing k { s.workRing k with state := .draining } with
          admin := some { code := r[0], tag := recordTag r, phase := .closingWork k } } m ∧
        After (s.workRing k).line m t ∧
        ((t.workRing k).state = .draining ∨ (t.workRing k).state = .closed) ∧
        (∀ i x, s.slot i = some x →
          if x.ring = k ∧ x.started = false then Aborted i x s m else m.slot i = some x) ∧
        (∀ i x y, s.slot i = some x → x.ring = k → x.started = false → x.state ≠ .finishing →
          t.slot i = some y → y.state = .finishing ∨ y.abortPending = true) ∧
        (s.ringSlots k = 0 → (t.workRing k).state = .closed ∧
          Answered r[0] (recordTag r) .ok
            (le16 (s.workRing k).posted ++ le16 (s.workRing k).fetched) (requestTaken r s) t))

/-! ## The line arbiter and the reflexes -/

/-- The arbiter (R34, R35, R37). After the judgement at an event it grants, while slots are served, on a
free line that has been high for one gap: to the head of the reflex queue, while RUNNING and no node of
its target set is locked (R36, R165); else to the next window of a series or the first of one that
listen-due starts (R145); else to the slot that `chooseSlot` gives. The grant makes that slot ON_LINE
and started, drops its expiry and sends its step's call (R80, R90, R100, R107, R108, R129 to R137); a
commit's first grant takes the lock, starts the budget and reads the store. A ROLL's seed is a free
value, the next of the seed generator (assumption log 1). -/
def Obligations.ArbiterGrantsByItsOrder : Prop :=
  (∀ (l : Line) (s : State), settleLine l s = judgeLine l (arbiter l (judgeLine l s))) ∧
  (∀ (l : Line) (s : State),
    s.device ∈ [DeviceState.reset, .starting, .halted] ∨ (s.engine l).state ≠ .idle ∨
      (s.engine l).holder ≠ .none ∨ (s.engine l).quiet = false → arbiter l s = s) ∧
  (∀ (l : Line) (s : State) (head wanted : Prop),
    s.device ∈ [DeviceState.running, .stopping, .stopped] → (s.engine l).state = .idle →
    (s.engine l).holder = .none → (s.engine l).quiet = true →
    (head ↔ s.device = .running ∧ ∃ c rest, s.queue l = c :: rest ∧
      ∀ a, inTarget s l c.target a = true → (s.entry l a).lock = none) →
    (wanted ↔ s.device = .running ∧
      ((s.engine l).series ≠ none ∨ (s.engine l).listenDue = true)) →
    (head → ∀ c rest, s.queue l = c :: rest → arbiter l s = granted l .reflex
      { target := c.target, verb := c.verb, reply := false, args := c.args } 1 s) ∧
    (¬head → wanted → arbiter l s = granted l .series
      { target := .all, verb := 8, reply := false, args := [] } 0
      (s.setEngine l (match (s.engine l).series with
        | some sr => { s.engine l with series := some { sr with window := sr.window + 1 } }
        | none => { s.engine l with
            listenDue := false, listenTimer := none
            series := some { window := 1, last := none, ack := none, stopping := false } }))) ∧
    (¬head → ¬wanted → (chooseSlot s l = none → arbiter l s = s) ∧
      ∀ (i : SlotId) (x : Slot) (limit : Nat) (put : Work → Option Word → State),
        chooseSlot s l = some (i, x) →
        limit = (match x.retry with | some n => n | none => (s.engine l).config.retryLimit) →
        (∀ v b, put v b = s.setSlot i (some { x with
          state := .onLine, started := true, expireAt := none, budgetAt := b, work := v })) →
        (∀ w, x.work = .call w → arbiter l s = granted l (.slot i)
          { target := w.target, verb := w.verb, reply := w.reply, args := w.args } limit
          (put (.call { w with
            busyLimit := if x.started = false ∧ w.reply = true then limit + 1
              else w.busyLimit }) x.budgetAt)) ∧
        (∀ w a, x.work = .sweep w → w.step = some a → arbiter l s = granted l (.slot i)
          { target := .node a, verb := 0, reply := true, args := [] } limit
          (put x.work x.budgetAt)) ∧
        (∀ w p, x.work = .param w → x.started = true → w.phase = some p →
          arbiter l s = granted l (.slot i)
            (match p with
            | .prelude | .poll | .final =>
              { target := .node w.addr, verb := 7, reply := true, args := [w.index] }
            | .stage1 => { target := .node w.addr, verb := 5, reply := true
                           args := [w.index, 0] ++ w.data.take 4 }
            | .stage2 => { target := .node w.addr, verb := 5, reply := true
                           args := [w.index, 4] ++ w.data.drop 4 }
            | .commit => { target := .node w.addr, verb := 6, reply := true
                           args := [w.index, byteOf w.length] ++ be16 w.digest })
            limit (put x.work x.budgetAt)) ∧
        (∀ w, x.work = .param w → x.started = false → arbiter l s = granted l (.slot i)
          (if (s.entry l w.addr).store = .unknown then
            { target := .node w.addr, verb := 7, reply := true, args := [w.index] }
          else { target := .node w.addr, verb := 5, reply := true
                 args := [w.index, 0] ++ w.data.take 4 }) limit
          ((put (.param (if (s.entry l w.addr).store = .unknown then
              { w with firstGrant := some s.ms, phase := some .prelude, preludeUsed := true }
            else { w with firstGrant := some s.ms, phase := some .stage1 }))
            (some (s.ms + BitVec.ofNat 32
              (if w.budget = 0 then (s.engine l).config.budget else w.budget)))).setEntry l w.addr
            { s.entry l w.addr with lock := some i })) ∧
        (∀ w, x.work = .discover w →
          (w.phase = .roll → arbiter l s = granted l (.slot i)
            { target := .unaddressed, verb := 3, reply := false
              args := be16 (Config.seed s.draws) ++ [byteOf w.positions] }
            (s.engine l).config.retryLimit
            { put (.discover { w with
                seed := some (Config.seed s.draws), rounds := w.rounds + 1, clean := [],
                avoid := [], roundCollided := 0, nextPosition := 0, current := none,
                candidate := none }) x.budgetAt with draws := s.draws + 1 }) ∧
          (w.phase = .pick → arbiter l s = granted l (.slot i)
            { target := .unaddressed, verb := 4, reply := true
              args := [byteOf w.nextPosition] } 0 (put x.work x.budgetAt)) ∧
          (∀ a, w.phase = .check → w.candidate = some a → arbiter l s = granted l (.slot i)
            { target := .node a, verb := 0, reply := true, args := [] }
            (s.engine l).config.retryLimit (put x.work x.budgetAt)) ∧
          (∀ a c, w.phase = .assign → w.candidate = some a → w.current = some c →
            arbiter l s = granted l (.slot i)
              { target := .unaddressed, verb := 1, reply := true
                args := be40 c.identity ++ [byteOf (a.val + 1)] }
              (s.engine l).config.retryLimit (put x.work x.budgetAt)))))

/-- Reflexes. An entry matches an accepted notice by its line, source, kind and argument, and a quiet
one does nothing (R160, R161). A firing raises the count and starts the holdoff, and the call joins
the action line's queue, or is dropped on an unusable line or a full queue (R162, R163). A notice is
compared with the entries in index order while RUNNING, after its NODE_NOTICE (R147, R160). The end of
the head's tries removes it from the queue (R165), but for what a STOP during its grant has left of
the queue (R168; assumption log 21). -/
def Obligations.ReflexesFireInOrder : Prop :=
  (∀ (l : Line) (n : NodeNotice) (s : State) (k : ReflexId) (e f : ReflexEntry) (al : Line)
    (quiet : Option Word),
    e = s.reflex k → al = e.actionLine →
    quiet = (if e.holdoff = 0 then none else some (s.ms + BitVec.ofNat 32 e.holdoff)) →
    f = { e with fireCount := min 65535 (e.fireCount + 1), quietUntil := quiet } →
    (¬(e.armed = true ∧ e.matchLine = l ∧
        (e.matchSource = none ∨ e.matchSource = some n.source) ∧ e.matchKind = n.kind ∧
        (e.matchArg = none ∨ ∃ b rest, n.arg = b :: rest ∧ e.matchArg = some b)) →
      matchReflex l n s k = s) ∧
    (e.quietUntil ≠ none → matchReflex l n s k = s) ∧
    (e.armed = true → e.matchLine = l →
      (e.matchSource = none ∨ e.matchSource = some n.source) → e.matchKind = n.kind →
      (e.matchArg = none ∨ ∃ b rest, n.arg = b :: rest ∧ e.matchArg = some b) →
      e.quietUntil = none →
      matchReflex l n s k =
        if (s.engine al).state ∈ [LineState.off, .restoring, .down] then
          createNotice (some al) (.reflexDropped k .lineUnavailable) (s.setReflex k f)
        else if 4 ≤ (s.queue al).length then
          createNotice (some al) (.reflexDropped k .queueFull) (s.setReflex k f)
        else if e.report = true then
          createNotice (some al) (.reflexFired k f.fireCount) ((s.setReflex k f).setQueue al
            (s.queue al ++ [{ target := e.target, verb := e.verb, args := e.args }]))
        else (s.setReflex k f).setQueue al
          (s.queue al ++ [{ target := e.target, verb := e.verb, args := e.args }]))) ∧
  (∀ (l : Line) (n : NodeNotice) (s : State), matchReflexes l n s =
    if s.device = .running then (List.finRange 32).foldl (matchReflex l n) s else s) ∧
  (∀ (l : Line) (s s' : State) (frame : List Byte) (n : NodeNotice), s.device ≠ .halted →
    (s.engine l).state = .listening → (s.engine l).frameStarted = true →
    noCut s l = true → judgeNotice frame = some n → (s.entry l n.source).lastSeq ≠ some n.seq →
    s' = createNotice (some l) (.nodeNotice n) (if (s.entry l n.source).state = .silent then
      createNotice (some l) (.nodeBack n.source (s.entry l n.source).identity) s else s) →
    ∃ m t, exec (.noticeFrameEnd l frame) s = .next t ∧ AfterBoth m t ∧
      m.reflexes = (matchReflexes l n s').reflexes ∧ m.queues = (matchReflexes l n s').queues ∧
      m.buffer = (matchReflexes l n s').buffer ∧ m.lost = (matchReflexes l n s').lost ∧
      t.reflexes = m.reflexes ∧ t.queues = m.queues ∧ t.buffer = m.buffer) ∧
  (∀ (l : Line) (s : State) (st : Step) (c : Instr), s.device ≠ .halted →
    (s.engine l).state = .calling → (s.engine l).holder = .reflex →
    (s.engine l).step = some st → noWaiting s l = true →
    (c = .frameSent l ∧ st.call.reply = false) ∨ (c = .collisionDetected l ∧
      (st.retryLimit < st.tries ∨ (s.engine l).headEnd ≠ .normal)) →
    ∃ t, exec c s = .next t ∧
      After l ((s.setEngine l (grantOver { s.engine l with state := .idle, quiet := false })).setQueue
        l (match (s.engine l).headEnd with
          | .normal => (s.queue l).tail
          | .emptyQueue => []
          | .leaveQueue => s.queue l)) t)

/-! ## Administrative requests on lines, tables and slots -/

/-- LINE_SET (R40, R48, R206): BAD_STATE for another bit rate on a line that is not OFF; on a line
without a holder the seven values apply together, and when the silence threshold changes a PRESENT entry
with misses at or above it becomes SILENT, a SILENT one below it PRESENT, with NODE_SILENT for each of
the first in ascending address order; on a held line the request waits, the settings unchanged and
nothing answered. The end of the line's grant, by the end of a step or of a window, then applies the
values to what that end makes of the line without a request; that the listen interval timer of a series
has then started by the old interval is the model's reading (assumption log 13). An entry to DOWN is
given in LinesGoDownAndComeUp. -/
def Obligations.LineSetAppliesBetweenGrants : Prop :=
  (∀ (r : Record) (s : State) (l : Line) (c : LineConfig), AdminReady s →
    decodeLineSet r = some (l, c) →
    if c.rate ≠ (s.engine l).config.rate ∧ (s.engine l).state ≠ .off then
      ∃ t, exec (.lineSet r) s = .next t ∧
        Serviced (answered r[0] (recordTag r) .badState [] (requestTaken r s)) t
    else if (s.engine l).holder = .none then
      ∃ m t, exec (.lineSet r) s = .next t ∧ Worked (requestTaken r s) m ∧ After l m t ∧
        m.engine l = { s.engine l with config := c } ∧
        LineSet l c s m ∧ (∀ i, m.slot i = s.slot i) ∧ m.queues = s.queues ∧
        Answered r[0] (recordTag r) .ok [] (requestTaken r s) m
    else
      ∃ t, exec (.lineSet r) s = .next t ∧
        Serviced { requestTaken r s with
          admin := some { code := r[0], tag := recordTag r, phase := .settingLine l c } } t ∧
        t.admin = some { code := r[0], tag := recordTag r, phase := .settingLine l c } ∧
        t.lines = s.lines ∧ t.nodes = s.nodes ∧
        (t.resultRing 0).pending = (s.resultRing 0).pending) ∧
  (∀ (l : Line) (c : LineConfig) (code : Byte) (tag : Word) (s : State),
    s.admin = some ⟨code, tag, .settingLine l c⟩ → (s.resultRing 0).out.state = .active →
    (grantEnded l s).engine l = { grantOver (s.engine l) with config := c } ∧
    LineSet l c s (grantEnded l s) ∧ (∀ i, (grantEnded l s).slot i = s.slot i) ∧
    (grantEnded l s).admin = some ⟨code, tag, .answered⟩ ∧
    (grantEnded l s).resultRing 0 = { s.resultRing 0 with
      pending := (s.resultRing 0).pending ++
        [{ sender := .admin, code := code, status := .ok, ring := 0, tag := tag,
           detail := [] }] }) ∧
  (∀ (l : Line) (c : LineConfig) (code : Byte) (tag : Word) (s : State) (sr : Series),
    s.device ≠ .halted → s.admin = some ⟨code, tag, .settingLine l c⟩ →
    (s.resultRing 0).out.state = .active → (s.engine l).state = .listening →
    (s.engine l).frameStarted = false → (s.engine l).series = some sr →
    ∃ m t, exec (.listenWindowEmpty l) s = .next t ∧ After l m t ∧
      m = grantEnded l (s.setEngine l { s.engine l with
        state := .idle, series := none
        listenTimer := some (s.ms + BitVec.ofNat 32 (s.engine l).config.listenInterval) }) ∧
      (m.engine l).config = c ∧ LineSet l c s m ∧ Answered code tag .ok [] s m) ∧
  (∀ (l : Line) (c : LineConfig) (code : Byte) (tag : Word) (s n : State) (i : Instr),
    s.device ≠ .halted → s.admin = some ⟨code, tag, .settingLine l c⟩ →
    (s.resultRing 0).out.state = .active →
    ((∃ st o, (s.engine l).step = some st ∧ (s.engine l).holder ≠ .none ∧ TryEnds l s st i o ∧
        ((s.engine l).holder = .series → o ≠ .sent) ∧
        (o = .noReply ∨ o = .garbled ∨ o = .collided → st.retryLimit < st.tries) ∧
        n = endTry l o { s with admin := none }) ∨
      ((s.engine l).state = .listening ∧ (s.engine l).frameStarted = true ∧
        (i = .garbledReception l ∨
          ∃ frame, i = .noticeFrameEnd l frame ∧ judgeNotice frame = none) ∧
        n = endWindow l .garbled { s with admin := none })) →
    ∃ t₀ m t, exec i { s with admin := none } = .next t₀ ∧ After l n t₀ ∧
      exec i s = .next t ∧ After l m t ∧ WithSettings l c code tag n m)

/-- LINE_ENABLE (R23, R25, R206): an OFF line enters RESTORING, its debounce running if SENSE is high;
any other line makes the request BAD_STATE. -/
def Obligations.LineEnableStartsTheRestoration : Prop :=
  ∀ (r : Record) (s : State) (l : Line), AdminReady s →
    r[12] = (match l with | .a => 0 | .b => 1) →
    if (s.engine l).state = .off then
      ∃ m t, exec (.lineEnable r) s = .next t ∧ Worked (requestTaken r s) m ∧ After l m t ∧
        m.engine l = { s.engine l with
          state := .restoring, origin := .off, lowTimer := 0
          debounce := if (s.engine l).sense = true then some (s.ms + 500) else none } ∧
        m.nodes = s.nodes ∧ m.queues = s.queues ∧ (∀ i, m.slot i = s.slot i) ∧
        Answered r[0] (recordTag r) .ok [] (requestTaken r s) m
    else
      ∃ t, exec (.lineEnable r) s = .next t ∧
        Serviced (answered r[0] (recordTag r) .badState [] (requestTaken r s)) t

/-- LINE_RESET and LINE_DISABLE (R33, R38, R41, R42, R60, R86, R101, R124, R141, R167, R204). Without
a holder every slot of the line but a FINISHING or ON_LINE one ends LINE_RESET, its queue is emptied,
listen-due is cleared, a series ends with the listen interval timer started, forget returns every
entry to its initial value, and LINE_DISABLE takes the line OFF. A holder between two tries is cut at
once. With a try in progress the request waits for its end, the rest of the line being cut at once; at
that end a slot that holds the line ends LINE_RESET, by what its last try left: a CALL with its last
reply in the detail, a SWEEP with the address counted if the try was REPLIED, a commit with that reply
judged, a DISCOVER with a PICK or an ASSIGN so answered counted; that reply alone is reported to the
table. The model's choices for a commit: its attempt number stays (assumption log 26), a CHECK of
phase POLL or FINAL that the cut ends counts once as a poll (log 12), and a DONE without exactly 2
data bytes leaves no readback (log 27). A reflex head's queue is then empty, and a series is over,
with a valid notice of its window delivered but not taken. What is cut at once, and that a TAKEN's
reply is reported, are the model's readings (log 14), and so is that an OFF line's slots are cut too
(log 22). -/
def Obligations.CutsEndTheWorkOfALine : Prop :=
  (∀ (r : Record) (s : State) (l : Line) (c : Instr) (disable : Bool), AdminReady s →
    (c, disable) ∈ [(Instr.lineReset r, false), (Instr.lineDisable r, true)] →
    r[12] = (match l with | .a => 0 | .b => 1) →
    ((s.engine l).holder ≠ .none → (s.engine l).state = .idle) →
    ((s.engine l).holder = .series → (s.engine l).series ≠ none) →
    (∀ i, (s.engine l).holder = .slot i → ∀ x, s.slot i = some x → x.work ≠ .unknown) →
    ∃ (m t : State) (e : LineEngine), exec c s = .next t ∧ Worked (requestTaken r s) m ∧
      After l m t ∧
      e = (if (s.engine l).holder = .none then s.engine l else grantOver (s.engine l)) ∧
      m.engine l =
        (if disable = true then
          { e with
            state := .off, lowTimer := 0, debounce := none, settle := none, listenTimer := none,
            listenDue := false, series := none, quiet := false }
        else
          { e with
            listenDue := false, series := none
            listenTimer := if (s.engine l).series.isSome = true then
              some (s.ms + BitVec.ofNat 32 (s.engine l).config.listenInterval)
              else (s.engine l).listenTimer }) ∧
      m.queue l = [] ∧
      (∀ i x, s.slot i = some x → (s.engine l).holder ≠ .slot i →
        if x.line = l then CutOff i x s m else m.slot i = some x) ∧
      (∀ i x x', s.slot i = some x → (s.engine l).holder = .slot i → x.state = .onLine →
        x' = { x with
          tries := ((s.engine l).step.map fun st => st.tries).getD 0
          work := match x.work with
            | .call w => .call { w with allGarbled := false }
            | .param w => .param { w with
                polls := if w.phase = some .poll ∨ w.phase = some .final then
                  min 255 (w.polls + 1) else w.polls }
            | v => v } →
        EndedBy .lineReset i x' s m) ∧
      (if disable = false ∧ r[13].getLsbD 0 = true then ∀ a, m.entry l a = NodeEntry.initial
        else CommitsEnded l (fun i x => (s.engine l).holder = .slot i ∨
          (x.state ≠ .finishing ∧ x.state ≠ .onLine)) s m) ∧
      Answered r[0] (recordTag r) .ok [] (requestTaken r s) m) ∧
  (∀ (r : Record) (s : State) (l : Line) (c : Instr) (disable : Bool), AdminReady s →
    (c, disable) ∈ [(Instr.lineReset r, false), (Instr.lineDisable r, true)] →
    r[12] = (match l with | .a => 0 | .b => 1) → (s.engine l).holder ≠ .none →
    (s.engine l).state ≠ .idle →
    ∃ m t, exec c s = .next t ∧ Worked (requestTaken r s) m ∧ After l m t ∧
      t.admin = some { code := r[0], tag := recordTag r,
                       phase := .cutting l disable (!disable && r[13].getLsbD 0) } ∧
      m.admin = t.admin ∧
      m.engine l = (if (s.engine l).series = none ∨ (s.engine l).holder = .series then s.engine l
        else { s.engine l with
          series := none
          listenTimer := some (s.ms + BitVec.ofNat 32 (s.engine l).config.listenInterval) }) ∧
      m.queue l = (if (s.engine l).holder = .reflex then s.queue l else []) ∧
      (∀ i x, s.slot i = some x → if x.line = l then CutOff i x s m else m.slot i = some x) ∧
      CommitsEnded l (fun _ x => x.state ≠ .finishing ∧ x.state ≠ .onLine) s m) ∧
  (∀ (l : Line) (s n : State) (st : Step) (i : SlotId) (x x' : Slot) (c : Instr) (o : TryOutcome)
    (code : Byte) (tag : Word) (disable forget : Bool),
    s.device ≠ .halted → (s.engine l).step = some st → (s.engine l).holder = .slot i →
    s.slot i = some x → x.line = l → TryEnds l s st c o →
    s.admin = some ⟨code, tag, .cutting l disable forget⟩ →
    (s.resultRing 0).out.state = .active →
    n = (match o with | .replied _ => reportStep l st.call false o s | _ => s) →
    x' = { x with tries := st.tries } →
    ∃ m t : State, exec c s = .next t ∧ Worked s m ∧ After l m t ∧
      CutEnds l code tag disable forget { s.engine l with
        state := .idle
        quiet := (s.engine l).quiet && (match o with | .noReply => true | _ => false) } s m ∧
      (∀ j, j ≠ i → m.slot j = s.slot j) ∧
      (∀ w, x.work = .call w →
        EndsFirst i
          { x' with
            work := .call (match o with
              | .replied r => { w with
                  lastReply := some r.status, noticePending := r.noticePending, data := r.data,
                  allGarbled := false }
              | _ => { w with allGarbled := false }) } .lineReset
          ([byteOf st.tries, byteOf w.busyRounds,
            (match o with
              | .replied r => replyStatusCode r.status
              | _ => lastReplyByte w.lastReply),
            flagBit (match o with | .replied r => r.noticePending | _ => w.noticePending) 1, 0]
            ++ padTo 8 []) s m ∧
        m.buffer = n.buffer ∧ m.lost = n.lost ∧
        (forget = false → m.nodes = (followUnassign l w o n).nodes) ∧
        (forget = false → (∀ r, o ≠ .replied r) → w.verb ≠ verbUnassign → m.nodes = s.nodes) ∧
        (forget = false → ∀ r a, o = .replied r → st.call.target = .node a →
          st.call.reply = true → st.call.verb ≠ verbPing → w.verb ≠ verbUnassign →
          m.entry l a = (s.entry l a).heard s.ms ∧ ∀ b, b ≠ a → m.entry l b = s.entry l b)) ∧
      (∀ (w w' : SweepWork) (a : Addr), x.work = .sweep w → w.step = some a →
        w' = (match o with
          | .replied _ => { w with
              step := none
              marks := w.marks.map fun p => if p.1 = a then (a, .pinged) else p }
          | _ => w) →
        EndsFirst i { x' with work := .sweep w' } .lineReset (sweepDetail (n.table l) w') s m ∧
        m.buffer = n.buffer ∧ m.lost = n.lost ∧ (forget = false → m.nodes = n.nodes)) ∧
      (∀ (w w1 w' : ParamWork) (p : Phase), x.work = .param w → w.phase = some p →
        x.started = true →
        w1 = (match o with
          | .replied r => lastJudged p r w
          | .noReply | .garbled => { w with unverified := w.unverified || p == .commit }
          | .sent | .collided => w) →
        w' = { w1 with
          polls := if p = .poll ∨ p = .final then min 255 (w.polls + 1) else w.polls } →
        EndsFirst i { x' with work := endedWork .lineReset (.param w') } .lineReset
          (paramDetail s.ms { w' with outcome := outcomeOf true w' }) s m ∧
        m.buffer = n.buffer ∧ m.lost = n.lost ∧
        (forget = false → ∀ a, m.entry l a = if a = w.addr then
          committed i { w' with outcome := outcomeOf true w' } (n.entry l a) else n.entry l a)) ∧
      (∀ w w' : DiscoverWork, x.work = .discover w →
        w' = (match w.phase, o with
          | .pick, .replied _ => pickClassed o w
          | .assign, .replied r =>
            if r.status = .ok then
              (match w.current, w.candidate with
              | some c, some a => assignSettled c a
                  ((pingData r.data).map (fun d => d.1) == some c.identity) w
              | _, _ => w)
            else w
          | _, _ => w) →
        EndsFirst i { x' with work := .discover { w' with endReason := .cut } } .lineReset
          (discoverDetail { w' with endReason := .cut }) s m ∧
        m.buffer = (followAssign l w o n).buffer ∧ m.lost = (followAssign l w o n).lost ∧
        (forget = false → m.nodes = (followAssign l w o n).nodes))) ∧
  (∀ (l : Line) (s n : State) (st : Step) (c : Instr) (o : TryOutcome) (e : LineEngine)
    (code : Byte) (tag : Word) (disable forget : Bool),
    s.device ≠ .halted → (s.engine l).step = some st → TryEnds l s st c o →
    s.admin = some ⟨code, tag, .cutting l disable forget⟩ →
    (s.resultRing 0).out.state = .active →
    n = (match o with | .replied _ => reportStep l st.call false o s | _ => s) →
    e = { s.engine l with
      state := .idle
      quiet := (s.engine l).quiet && (match o with | .noReply => true | _ => false) } →
    ((s.engine l).holder = .reflex → ∃ m t, exec c s = .next t ∧ Worked s m ∧ After l m t ∧
      CutEnds l code tag disable forget e s m ∧ m.queue l = [] ∧ (∀ j, m.slot j = s.slot j) ∧
      m.buffer = s.buffer ∧ (forget = false → m.nodes = s.nodes)) ∧
    ((s.engine l).holder = .series → o ≠ .sent → ∃ m t, exec c s = .next t ∧ Worked s m ∧
      After l m t ∧
      CutEnds l code tag disable forget { e with
        series := none
        listenTimer := some (s.ms + BitVec.ofNat 32 (s.engine l).config.listenInterval) } s m ∧
      (∀ j, m.slot j = s.slot j) ∧ m.buffer = n.buffer ∧ m.lost = n.lost ∧
      (forget = false → m.nodes = n.nodes))) ∧
  (∀ (l : Line) (s n : State) (c : Instr) (e : LineEngine) (notice : Option NodeNotice)
    (code : Byte) (tag : Word) (disable forget : Bool),
    s.device ≠ .halted → (s.engine l).state = .listening → (s.engine l).holder = .series →
    s.admin = some ⟨code, tag, .cutting l disable forget⟩ →
    (s.resultRing 0).out.state = .active →
    (c = .listenWindowEmpty l ∧ (s.engine l).frameStarted = false ∧ notice = none) ∨
      ((s.engine l).frameStarted = true ∧ ((c = .garbledReception l ∧ notice = none) ∨
        ∃ frame, c = .noticeFrameEnd l frame ∧ notice = judgeNotice frame)) →
    e = { s.engine l with
      state := .idle, quiet := (s.engine l).quiet && !(s.engine l).frameStarted, series := none
      listenTimer := some (s.ms + BitVec.ofNat 32 (s.engine l).config.listenInterval) } →
    n = (match notice with
      | none => s
      | some v =>
        let back := if (s.entry l v.source).state = .silent then
          createNotice (some l) (.nodeBack v.source (s.entry l v.source).identity) s else s
        if (s.entry l v.source).lastSeq = some v.seq then back
        else matchReflexes l v (createNotice (some l) (.nodeNotice v) back)) →
    ∃ m t, exec c s = .next t ∧ Worked { s with reflexes := n.reflexes } m ∧
      (if notice = none then After l m t else AfterBoth m t) ∧
      CutEnds l code tag disable forget e s m ∧ (∀ j, m.slot j = s.slot j) ∧
      m.buffer = n.buffer ∧ m.lost = n.lost ∧
      (∀ k, k ≠ l ∨ disable = false → m.queue k = n.queue k) ∧
      (forget = false → ∀ a, m.entry l a = match notice with
        | none => s.entry l a
        | some v => if a = v.source then
            { (s.entry l a).heard s.ms with lastSeq := some v.seq } else s.entry l a))

/-- REFLEX_PUT (R169): a record passes exactly when each field, at the places of R212, is in its range;
the entry then takes the record's fields, ARMED, with fire count 0 and no quiet-until, whatever it held
before, and queued calls stay. -/
def Obligations.ReflexPutReplacesTheEntry : Prop :=
  (∀ r : Record,
    ((decodeReflexPut r).isSome = true ↔
      r[12].toNat ≤ 31 ∧ r[13].toNat ≤ 1 ∧ r[14].toNat ≤ 80 ∧ r[15].toNat ≤ 31 ∧
      r[18].toNat ≤ 1 ∧
      ((r[19] = 0 ∧ 1 ≤ r[20].toNat ∧ r[20].toNat ≤ 80) ∨
        (r[19] = 1 ∧ 1 ≤ r[20].toNat ∧ r[20].toNat ≤ 12) ∨ r[19] = 2) ∧
      16 ≤ r[21].toNat ∧ r[21].toNat ≤ 63 ∧ r[22].toNat ≤ 6 ∧
      (join16 r[30] r[29]).toNat ≤ 60000) ∧
    ∀ k e, decodeReflexPut r = some (k, e) →
      (e.matchLine = .a ↔ r[13] = 0) ∧
      (e.matchSource = none ↔ r[14] = 0) ∧
      (∀ a, e.matchSource = some a → r[14].toNat = a.val + 1) ∧
      e.matchKind.toNat = r[15].toNat ∧
      e.matchArg = (if r[16].getLsbD 0 = true then some r[17] else none) ∧
      e.report = r[16].getLsbD 1 ∧
      (e.actionLine = .a ↔ r[18] = 0) ∧
      (r[19] = 0 → ∃ a : Addr, e.target = .node a ∧ r[20].toNat = a.val + 1) ∧
      (r[19] = 1 → ∃ z : Zone, e.target = .zone z ∧ r[20].toNat = z.val + 1) ∧
      (r[19] = 2 → e.target = .all) ∧
      e.verb.toNat = r[21].toNat ∧
      e.args = [r[23], r[24], r[25], r[26], r[27], r[28]].take r[22].toNat ∧
      e.holdoff = (join16 r[30] r[29]).toNat) ∧
  ∀ (r : Record) (s : State) (k : ReflexId) (e : ReflexEntry), AdminReady s →
    decodeReflexPut r = some (k, e) →
    k.val = r[12].toNat ∧ e.armed = true ∧ e.fireCount = 0 ∧ e.quietUntil = none ∧
    ∃ t, exec (.reflexPut r) s = .next t ∧
      Serviced (answered r[0] (recordTag r) .ok [] ((requestTaken r s).setReflex k e)) t ∧
      t.reflex k = e ∧ t.queues = s.queues

/-- REFLEX_DROP (R170): an index outside 0 to 31 is BAD_RECORD; otherwise the entry becomes EMPTY with
the values of R159, the result is OK, and calls already queued stay queued. -/
def Obligations.ReflexDropEmptiesTheEntry : Prop :=
  ∀ (r : Record) (s : State), AdminReady s →
    (32 ≤ r[12].toNat → ∃ t, exec (.reflexDrop r) s = .next t ∧
      Serviced (answered r[0] (recordTag r) .badRecord [] (requestTaken r s)) t) ∧
    (∀ k : ReflexId, k.val = r[12].toNat → ∃ t, exec (.reflexDrop r) s = .next t ∧
      Serviced (answered r[0] (recordTag r) .ok []
        ((requestTaken r s).setReflex k ReflexEntry.empty)) t ∧
      (t.reflex k).armed = false ∧ (t.reflex k).fireCount = 0 ∧ (t.reflex k).quietUntil = none ∧
      t.queues = s.queues)

/-- REFLEX_READ (R171) and NODE_READ (R61, R208): their records, and that of NODE_CLEAR (R59), pass
exactly when each field, at the places of R212, is in its range; the write of the entry's image, or of
the first entry's, to the record's address begins, and the request waits for it. The bytes of the two
images stand at the places of R212, an absent value as 0 (R210); that byte 9 of a reflex entry whose
action target is ALL is 0 too is the model's reading (assumption log 30). -/
def Obligations.TableReadsWriteTheirFirstImage : Prop :=
  (∀ r : Record,
    ((decodeReflexRead r).isSome = true ↔
      r[12].toNat ≤ 31 ∧ (join32 r[23] r[22] r[21] r[20]).toNat % 32 = 0) ∧
    ((decodeNodeRead r).isSome = true ↔
      r[12].toNat ≤ 1 ∧ 1 ≤ r[13].toNat ∧ r[13].toNat ≤ 80 ∧ 1 ≤ r[14].toNat ∧
      r[14].toNat ≤ 80 ∧ r[13].toNat + r[14].toNat ≤ 81 ∧
      (join32 r[23] r[22] r[21] r[20]).toNat % 32 = 0) ∧
    ((decodeNodeClear r).isSome = true ↔
      r[12].toNat ≤ 1 ∧ 1 ≤ r[13].toNat ∧ r[13].toNat ≤ 80) ∧
    ∀ l a, decodeNodeClear r = some (l, a) → (l = .a ↔ r[12] = 0) ∧ a.val + 1 = r[13].toNat) ∧
  (∀ (r : Record) (s : State) (k : ReflexId) (a : Word), AdminReady s →
    decodeReflexRead r = some (k, a) →
    k.val = r[12].toNat ∧ a = join32 r[23] r[22] r[21] r[20] ∧
    ∃ t, exec (.reflexRead r) s = .next t ∧
      Serviced { requestTaken r s with
        admin := some { code := r[0], tag := recordTag r, phase := .readingReflex }
        imageWrite := some { addr := a, bytes := reflexImage k (s.reflex k) } } t ∧
      t.admin = some { code := r[0], tag := recordTag r, phase := .readingReflex } ∧
      t.imageWrite = some { addr := a, bytes := reflexImage k (s.reflex k) }) ∧
  (∀ (r : Record) (s : State) (l : Line) (a : Addr) (n : Nat) (b : Word), AdminReady s →
    decodeNodeRead r = some (l, a, n, b) →
    (l = .a ↔ r[12] = 0) ∧ a.val + 1 = r[13].toNat ∧ n = r[14].toNat ∧ 1 ≤ n ∧ a.val + n ≤ 80 ∧
    b = join32 r[23] r[22] r[21] r[20] ∧
    ∃ t, exec (.nodeRead r) s = .next t ∧
      Serviced { requestTaken r s with
        admin := some { code := r[0], tag := recordTag r, phase := .readingNodes l a n 0 b }
        imageWrite := some { addr := b, bytes := nodeImage l a (s.entry l a) } } t ∧
      t.admin = some { code := r[0], tag := recordTag r, phase := .readingNodes l a n 0 b } ∧
      t.imageWrite = some { addr := b, bytes := nodeImage l a (s.entry l a) }) ∧
  (∀ (l : Line) (a : Addr) (e : NodeEntry) (line state flags store : Byte) (id : UnitNo)
    (zones : Half) (heard : Word),
    line = (match l with | .a => 0 | .b => 1) →
    state = (match e.state with | .vacant => 0 | .present => 1 | .silent => 2 | .clash => 3) →
    flags.toNat = (if e.identity.isSome = true then 1 else 0) +
      (if e.kind.isSome = true then 2 else 0) + (if e.zones.isSome = true then 4 else 0) +
      (if e.lastSeq.isSome = true then 8 else 0) +
      (if e.lastHeard.isSome = true then 16 else 0) + (if e.lock.isSome = true then 32 else 0) →
    store = (match e.store with | .clean => 0 | .unknown => 1) →
    id = e.identity.getD 0 → zones = (e.zones.getD 0).setWidth 16 → heard = e.lastHeard.getD 0 →
    nodeImage l a e =
      [byteOf (a.val + 1), line, state, flags,
        id.extractLsb' 0 8, id.extractLsb' 8 8, id.extractLsb' 16 8, id.extractLsb' 24 8,
        id.extractLsb' 32 8, e.kind.getD 0, zones.extractLsb' 0 8, zones.extractLsb' 8 8,
        byteOf e.misses, byteOf e.garbles, (e.lastSeq.getD 0).setWidth 8,
        (match e.lock with | some i => byteOf i.val | none => 0),
        store, 0, 0, 0,
        heard.extractLsb' 0 8, heard.extractLsb' 8 8, heard.extractLsb' 16 8,
        heard.extractLsb' 24 8, 0, 0, 0, 0, 0, 0, 0, 0]) ∧
  (∀ (k : ReflexId) (e : ReflexEntry) (flags number kind : Byte) (hold count : Half) (quiet : Word),
    e.args.length ≤ 6 → e.target ≠ .unaddressed →
    flags.toNat = (if e.matchArg.isSome = true then 1 else 0) +
      (if e.report = true then 2 else 0) + (if e.quietUntil.isSome = true then 4 else 0) →
    (kind, number) = (match e.target with
      | .node a => (0, byteOf (a.val + 1))
      | .zone z => (1, byteOf (z.val + 1))
      | _ => (2, 0)) →
    hold = BitVec.ofNat 16 e.holdoff → count = BitVec.ofNat 16 e.fireCount →
    quiet = e.quietUntil.getD 0 →
    reflexImage k e =
      [byteOf k.val, (if e.armed = true then 1 else 0), flags,
        (match e.matchLine with | .a => 0 | .b => 1),
        (match e.matchSource with | some a => byteOf (a.val + 1) | none => 0),
        e.matchKind.setWidth 8, e.matchArg.getD 0,
        (match e.actionLine with | .a => 0 | .b => 1), kind, number, e.verb.setWidth 8,
        byteOf e.args.length, e.args.getD 0 0, e.args.getD 1 0, e.args.getD 2 0,
        e.args.getD 3 0, e.args.getD 4 0, e.args.getD 5 0,
        hold.extractLsb' 0 8, hold.extractLsb' 8 8, count.extractLsb' 0 8,
        count.extractLsb' 8 8, 0, 0, quiet.extractLsb' 0 8, quiet.extractLsb' 8 8,
        quiet.extractLsb' 16 8, quiet.extractLsb' 24 8, 0, 0, 0, 0])

/-- The ends of the image writes (R171, R208): after each image of a NODE_READ but the last the next
one's write begins 32 bytes on; the last one ends the request OK with the number written; a bus error
ends it HOST_FAULT with the number written before. REFLEX_READ ends OK or HOST_FAULT. That an image's
address wraps modulo 2^32 is the model's choice (assumption log 25). -/
def Obligations.ImageWritesEndTheReads : Prop :=
  ∀ (s : State) (code : Byte) (tag : Word), s.device ≠ .halted → s.imageWrite.isSome = true →
    (∀ (l : Line) (a : Addr) (n done : Nat) (b : Word),
      s.admin = some ⟨code, tag, .readingNodes l a n done b⟩ →
      (done + 1 < n → exec .nodeReadImageWritten s = .next { s with
        admin := some ⟨code, tag, .readingNodes l a n (done + 1) b⟩
        imageWrite := some
          { addr := b + BitVec.ofNat 32 (32 * (done + 1))
            bytes := nodeImage l (addrAfter a (done + 1)) (s.entry l (addrAfter a (done + 1))) } }) ∧
      (n ≤ done + 1 → (s.resultRing 0).out.state = .active →
        ∃ t, exec .nodeReadImageWritten s = .next t ∧
          Serviced (answered code tag .ok [byteOf (done + 1)] { s with imageWrite := none }) t) ∧
      ((s.resultRing 0).out.state = .active →
        ∃ t, exec .nodeReadWriteFault s = .next t ∧
          Serviced (answered code tag .hostFault [byteOf done] { s with imageWrite := none }) t)) ∧
    (s.admin = some ⟨code, tag, .readingReflex⟩ → (s.resultRing 0).out.state = .active →
      (∃ t, exec .reflexReadImageWritten s = .next t ∧
        Serviced (answered code tag .ok [] { s with imageWrite := none }) t) ∧
      (∃ t, exec .reflexReadWriteFault s = .next t ∧
        Serviced (answered code tag .hostFault [] { s with imageWrite := none }) t))

/-- NODE_CLEAR (R59): an address outside 1 to 80 is BAD_RECORD; an entry whose commit lock names a slot
keeps every field and makes the request BAD_STATE; any other entry takes its initial value, with no
notice. -/
def Obligations.NodeClearReturnsTheInitialEntry : Prop :=
  ∀ (r : Record) (s : State) (l : Line), AdminReady s →
    r[12] = (match l with | .a => 0 | .b => 1) →
    (r[13] = 0 ∨ 81 ≤ r[13].toNat → ∃ t, exec (.nodeClear r) s = .next t ∧
      Serviced (answered r[0] (recordTag r) .badRecord [] (requestTaken r s)) t) ∧
    (∀ a : Addr, a.val + 1 = r[13].toNat →
      ((s.entry l a).lock.isSome = true → ∃ t, exec (.nodeClear r) s = .next t ∧
        Serviced (answered r[0] (recordTag r) .badState [] (requestTaken r s)) t ∧
        t.entry l a = s.entry l a) ∧
      ((s.entry l a).lock = none → ∃ m t, exec (.nodeClear r) s = .next t ∧
        Worked (requestTaken r s) m ∧ After l m t ∧
        m.entry l a = { state := .vacant, identity := none, kind := none, zones := none,
                        misses := 0, garbles := 0, lastSeq := none, lock := none, store := .clean,
                        lastHeard := none } ∧
        (∀ b, b ≠ a → m.entry l b = s.entry l b) ∧ m.lines = s.lines ∧
        (∀ i, m.slot i = s.slot i) ∧ t.buffer = s.buffer ∧ t.lost = s.lost ∧
        Answered r[0] (recordTag r) .ok [] (requestTaken r s) m))

/-- ABORT (R84, R85, R207, R209): a record passes exactly when its ring is 1 to 7. With no slot of the
ring and tag the result is NOT_FOUND; otherwise an abort reaches every such slot, no other slot is
touched, the entry of a started commit that ends follows its outcome, and the result gives how many
matched, ended and wait. That a slot whose abort was pending already counts as waiting is the model's
reading of R209 (assumption log 22). -/
def Obligations.AbortEndsTheNamedSlots : Prop :=
  (∀ r : Record, (decodeAbort r).isSome = true ↔ 1 ≤ r[12].toNat ∧ r[12].toNat ≤ 7) ∧
  ∀ (r : Record) (s : State) (k : WorkRingId) (tag : Word), AdminReady s →
    decodeAbort r = some (k, tag) →
    k.val = r[12].toNat ∧ tag = join32 r[19] r[18] r[17] r[16] ∧
    ((∀ i x, s.slot i = some x → ¬(x.ring = k ∧ x.tag = tag)) →
      ∃ t, exec (.abort r) s = .next t ∧
        Serviced (answered r[0] (recordTag r) .notFound [] (requestTaken r s)) t) ∧
    ((∃ i x, s.slot i = some x ∧ x.ring = k ∧ x.tag = tag) →
      ∃ m t, exec (.abort r) s = .next t ∧ Worked (requestTaken r s) m ∧ AfterBoth m t ∧
        (∀ i x, s.slot i = some x →
          if x.ring = k ∧ x.tag = tag then Aborted i x s m else m.slot i = some x) ∧
        (∀ l, CommitsEnded l (fun _ x => x.ring = k ∧ x.tag = tag ∧ x.state ≠ .finishing ∧
          ¬AbortWaits x) s m) ∧
        m.lines = s.lines ∧ m.queues = s.queues ∧
        Answered r[0] (recordTag r) .ok
          [byteOf (countSlots s fun x => x.ring == k && x.tag == tag),
            byteOf (countSlots s fun x => x.ring == k && x.tag == tag && x.unfinished
              && !x.abortWaits),
            byteOf (countSlots s fun x => x.ring == k && x.tag == tag && x.unfinished
              && x.abortWaits)]
          (requestTaken r s) m)

/-! ## The line monitor and the timers of a line -/

/-- LOW_TIMER_EXPIRY of a usable line whose SENSE has been low for 50 ms (R24, R27, R28, R87, R156,
R176): the line is DOWN with no holder, its settle and listen interval timers stopped and no series,
listen-due kept; LINE_DOWN names the state left; no work ring of the line is ACTIVE; the reflex queue
is kept, unless a STOP has come during its head's grant (R168). A started CALL ends LINE_DOWN; of the
holder the ping of a SWEEP and the step of a PARAM_WRITE are over, a final CHECK ending its commit, and
a started DISCOVER's round ends (R87, R123, R139), an abort or a passed budget having its turn then.
That the interrupted try and poll count is the model's reading (assumption log 12).
A LINE_SET that waits for the grant's end then applies over that (R40; log 13). A cut that waits for it
has ended (R33, R41, R42, R86): the holder ends LINE_RESET in place of R87, with no reply judged and a
COMMIT in its reply window unverified (R108), a granted head's queue is empty, listen-due is cleared, and
LINE_DISABLE takes the line OFF. A holder's commit leaves its entry by its outcome and releases its own
lock (R57, R58); without a start, which no run gives a holder, it releases that lock alone.
DEBOUNCE_EXPIRY of a RESTORING line (R25, R26, R156): the line enters IDLE with LINE_UP, its settle
timer runs unless the settle time is 0, and its listen interval timer runs. That the gap has passed by
then, and that the deadline is reached from its millisecond on, are the model's (assumption log 5 and 8).
The bytes of a SWEEP's and a DISCOVER's detail are given in SweepAndDiscoverStepsEnd, those of a commit's
in CommitStepsFollowTheirPhase. -/
def Obligations.LinesGoDownAndComeUp : Prop :=
  (∀ (l : Line) (s : State), s.device ≠ .halted → (s.engine l).state.usable = true →
    50 ≤ (s.engine l).lowTimer → (s.engine l).sense = false → noWaiting s l = true →
    ∃ m t, exec (.lowTimerExpiry l) s = .next t ∧ Worked s m ∧ After l m t ∧
      m.engine l =
        (if (s.engine l).holder = .none then
          { s.engine l with
            state := .down, frame := [], frameStarted := false, quiet := false, lowTimer := 0,
            settle := none, listenTimer := none, series := none }
        else
          grantOver { s.engine l with
            state := .down, quiet := false, lowTimer := 0, settle := none, listenTimer := none,
            series := none }) ∧
      t.engine l = m.engine l ∧
      m.buffer = (createNotice (some l) (.lineDown (s.engine l).state) s).buffer ∧
      m.lost = (createNotice (some l) (.lineDown (s.engine l).state) s).lost ∧
      (∀ r : WorkRingId, r ≠ 0 → (t.workRing r).line = l → (t.workRing r).state ≠ .active) ∧
      ((s.engine l).headEnd = .normal → t.queue l = s.queue l) ∧
      (∀ i x y w, s.slot i = some x → x.line = l → x.work = .call w → x.started = true →
        t.slot i = some y → y.state = .finishing) ∧
      (∀ i x, s.slot i = some x → (s.engine l).holder ≠ .slot i → HearsDown l i x s m) ∧
      (∀ (i : SlotId) (x x' : Slot), s.slot i = some x → (s.engine l).holder = .slot i →
        x.line = l → x.started = true → x.state ≠ .finishing →
        x' = { x with tries := ((s.engine l).step.map fun st => st.tries).getD 0 } →
        (∀ w, x.work = .call w →
          EndsAmong i { x' with work := .call { w with allGarbled := false } }
            (if x.abortPending = true then .aborted else .lineDown)
            ([byteOf x'.tries, byteOf w.busyRounds, lastReplyByte w.lastReply,
              flagBit w.noticePending 1, 0] ++ padTo 8 []) s m) ∧
        (∀ w w' a, x.work = .sweep w → w.step = some a →
          w' = { w with
            step := none
            marks := w.marks.map fun p => if p.1 = a then (a, .pinged) else p } →
          if x.abortPending = true then
            EndsAmong i { x' with work := .sweep w' } .aborted (sweepDetail (s.table l) w') s m
          else m.slot i = some { x' with state := .ready, work := .sweep w' }) ∧
        (∀ w w1 p, x.work = .param w → w.phase = some p →
          w.verified = false →
          w1 = { w with
            polls := if p = .poll ∨ p = .final then min 255 (w.polls + 1) else w.polls
            unverified := w.unverified || (p == .commit &&
              ((s.engine l).state == .awaiting || (s.engine l).state == .receiving)) } →
          ∃ n : State, m.slot i = n.slot i ∧ m.entry l w.addr = n.entry l w.addr ∧
            (∃ more, (m.resultRing (s.workRing x.ring).bound).pending =
              (n.resultRing (s.workRing x.ring).bound).pending ++ more) ∧
            if p = .final then
              CommitEnds l i x' { w1 with outcome := outcomeOf false w1 }
                (if x.abortPending = true then .aborted else .commitTimeout)
                (s.entry l w.addr) s n
            else if (p = .poll ∨ (p = .prelude ∧ w.preludeBusy = true)) ∧
                (x.abortPending = true ∨ w.budgetPassed = true) then
              CommitPauses l i x' w1 false (s.entry l w.addr) s n
            else CommitGoesOn l i x' w1 true (s.entry l w.addr) s n) ∧
        (∀ w w', x.work = .discover w → w' = w.roundEnd false →
          if x.abortPending = true then
            EndsAmong i { x' with work := .discover { w' with endReason := .aborted } } .aborted
              (discoverDetail { w' with endReason := .aborted }) s m
          else if w'.endReason = .none then
            m.slot i = some { x' with state := .ready, work := .discover w' }
          else
            EndsAmong i { x' with work := .discover w' } .ok (discoverDetail w') s m))) ∧
  (∀ (l : Line) (c : LineConfig) (code : Byte) (tag : Word) (s n : State), s.device ≠ .halted →
    (s.engine l).state.usable = true → 50 ≤ (s.engine l).lowTimer → (s.engine l).sense = false →
    (s.engine l).holder ≠ .none → s.admin = some ⟨code, tag, .settingLine l c⟩ →
    (s.resultRing 0).out.state = .active → n = enterDown l { s with admin := none } →
    ∃ t₀ m t, exec (.lowTimerExpiry l) { s with admin := none } = .next t₀ ∧ After l n t₀ ∧
      exec (.lowTimerExpiry l) s = .next t ∧ After l m t ∧ WithSettings l c code tag n m) ∧
  (∀ (l : Line) (code : Byte) (tag : Word) (disable forget : Bool) (s : State),
    s.device ≠ .halted → (s.engine l).state.usable = true → 50 ≤ (s.engine l).lowTimer →
    (s.engine l).sense = false → (s.engine l).holder ≠ .none →
    s.admin = some ⟨code, tag, .cutting l disable forget⟩ → (s.resultRing 0).out.state = .active →
    ∃ m t, exec (.lowTimerExpiry l) s = .next t ∧ Worked s m ∧ After l m t ∧
      CutEnds l code tag disable forget { s.engine l with
        state := .down, quiet := false, lowTimer := 0, settle := none, listenTimer := none,
        series := none } s m ∧
      t.engine l = m.engine l ∧
      m.queue l = (if (s.engine l).holder = .reflex ∨ disable = true then [] else s.queue l) ∧
      m.buffer = (createNotice (some l) (.lineDown (s.engine l).state) s).buffer ∧
      m.lost = (createNotice (some l) (.lineDown (s.engine l).state) s).lost ∧
      (∀ r : WorkRingId, r ≠ 0 → (t.workRing r).line = l → (t.workRing r).state ≠ .active) ∧
      (∀ i x, s.slot i = some x → (s.engine l).holder ≠ .slot i → HearsDown l i x s m) ∧
      (∀ i x x', s.slot i = some x → (s.engine l).holder = .slot i → x.work ≠ .unknown →
        x' = { x with
          tries := ((s.engine l).step.map fun st => st.tries).getD 0
          work := match x.work with
            | .call w => .call { w with allGarbled := false }
            | .param w => .param { w with
                polls := if w.phase = some .poll ∨ w.phase = some .final then
                  min 255 (w.polls + 1) else w.polls
                unverified := w.unverified || (w.phase == some .commit &&
                  ((s.engine l).state == .awaiting || (s.engine l).state == .receiving)) }
            | v => v } →
        EndedBy .lineReset i x' s m ∧
        (forget = false → ∀ a, m.entry x.line a = match x'.work with
          | .param w =>
            if a = w.addr then
              committed i { w with outcome := if x.started = true then outcomeOf true w else .none }
                (s.entry x.line a)
            else s.entry x.line a
          | _ => s.entry x.line a)) ∧
      (forget = false → (∀ i, (s.engine l).holder ≠ .slot i) → m.nodes = s.nodes)) ∧
  (∀ (l : Line) (s : State) (d : Word), s.device ≠ .halted → (s.engine l).state = .restoring →
    (s.engine l).debounce = some d → (s.ms - d).toNat < 2 ^ 31 →
    ∃ m t, exec (.debounceExpiry l) s = .next t ∧ Worked s m ∧ After l m t ∧
      m.engine l = { s.engine l with
        state := .idle, debounce := none, quiet := true
        settle := if (s.engine l).config.settle = 0 then none
          else some (s.ms + BitVec.ofNat 32 (s.engine l).config.settle)
        listenTimer := some (s.ms + BitVec.ofNat 32 (s.engine l).config.listenInterval) } ∧
      m.buffer = (createNotice (some l) (.lineUp (s.engine l).origin) s).buffer ∧
      m.nodes = s.nodes ∧ m.queues = s.queues ∧ (∀ i, m.slot i = s.slot i) ∧
      (t.engine l).state.usable = true ∧ (t.engine l).settle = (m.engine l).settle ∧
      ((s.engine l).listenDue = false → (t.engine l).listenTimer = (m.engine l).listenTimer))

/-- A rise of SENSE (R24, R25): the low timer is cleared; a DOWN line enters RESTORING with its debounce
started, and in RESTORING the debounce starts again. A fall (R25): the debounce of a RESTORING line
stops, and nothing else changes but the level. In HALTED the level alone changes (R37). -/
def Obligations.SenseEdgesMoveTheDebounce : Prop :=
  (∀ (l : Line) (s : State),
    (s.device = .halted →
      exec (.senseRise l) s = .next (s.setEngine l { s.engine l with sense := true })) ∧
    (s.device ≠ .halted →
      ∃ m t, exec (.senseRise l) s = .next t ∧ Worked s m ∧ After l m t ∧
        m.engine l =
          (match (s.engine l).state with
          | .down => { s.engine l with
              sense := true, lowTimer := 0, state := .restoring, origin := .down
              debounce := some (s.ms + 500) }
          | .restoring => { s.engine l with
              sense := true, lowTimer := 0, debounce := some (s.ms + 500) }
          | _ => { s.engine l with sense := true, lowTimer := 0 }) ∧
        m.nodes = s.nodes ∧ m.queues = s.queues ∧ m.buffer = s.buffer ∧
        (∀ i, m.slot i = s.slot i))) ∧
  (∀ (l : Line) (s : State),
    exec (.senseFall l) s = .next (s.setEngine l
      (if s.device ≠ .halted ∧ (s.engine l).state = .restoring then
        { s.engine l with sense := false, debounce := none }
      else { s.engine l with sense := false })))

/-- The end of a commit's step (R85, R104, R108 to R114, R116 to R122): the node table hears of it
first; the phase's rule judges the reply, and the commit makes its next step, waits for its next poll,
fails the attempt, or ends with its lock released and its store as the commit outcome says. A step
that ends without a reply ends the commit with that status, and the final CHECK COMMIT_TIMEOUT. An
abort pending ends the commit ABORTED instead, but while it waits for its next poll, and a passed
budget ends it COMMIT_TIMEOUT where it would go on, or turns its wait into the final CHECK. Which ends
have outcome UNKNOWN is in part the model's reading (assumption log 11), and so is the readback that a
DONE without 2 data bytes leaves (log 27). The first clause gives the bytes of the detail (R126, R212). -/
def Obligations.CommitStepsFollowTheirPhase : Prop :=
  (∀ (now elapsed : Word) (digest : Half) (w : ParamWork),
    elapsed.toNat = (match w.firstGrant with
      | none => 0
      | some t => min 65535 (now - t).toNat) →
    digest = (match w.readback with | some d => d | none => 0) →
    paramDetail now w =
      [if w.firstGrant = none then 0 else byteOf w.attempt,
        (match w.outcome with | .none => 0 | .verified => 1 | .mismatch => 2 | .unknown => 3),
        (match w.lastReply with | none => 0xFF | some st => replyStatusCode st),
        (if w.preludeUsed = true then 1 else 0) + (if w.readback = none then 0 else 2),
        digest.extractLsb' 0 8, digest.extractLsb' 8 8, byteOf w.polls, 0,
        elapsed.extractLsb' 0 8, elapsed.extractLsb' 8 8, byteOf w.replyData.length] ++
      w.replyData ++ List.replicate (8 - w.replyData.length) 0) ∧
  ∀ (l : Line) (s : State) (st : Step) (i : SlotId) (x x' : Slot) (c : Instr) (o : TryOutcome)
    (w : ParamWork) (p : Phase) (polls : Nat) (doubt : Bool → CommitOutcome),
    StepEnds l s st i x c o → x.work = .param w → w.phase = some p → st.call = phaseCall p w →
    x.started = true → w.verified = false → (p = .final → w.finalFlag = true) →
    x' = { x with tries := st.tries } →
    polls = (if p = .poll ∨ p = .final then min 255 (w.polls + 1) else w.polls) →
    (∀ b, doubt b = if b = true ∨ w.unverified = true ∨ w.finalFlag = true then .unknown
      else .none) →
    (∀ (r : Reply) (w1 : ParamWork) (same : Prop) (kept : Bool), o = .replied r →
      w1 = { w with
        lastReply := some r.status, polls := polls
        readback := if r.status = .done then replyDigest r.data else w.readback } →
      (same ↔ replyDigest r.data = some w.digest) →
      kept = (match p with
        | .poll | .final => r.status == .done
        | .prelude => !w.preludeBusy
        | _ => true) →
      ∃ (m t : State) (e : NodeEntry), StepOver l s i c o m t ∧
        e = (s.entry l w.addr).heard s.ms ∧ (∀ a, a ≠ w.addr → m.entry l a = s.entry l a) ∧
        m.buffer = (hear l w.addr s).buffer ∧
        match p, r.status with
        | .prelude, .busy => CommitPauses l i x' { w1 with preludeBusy := true } false e s m
        | .prelude, .ok | .prelude, .done | .prelude, .refused | .prelude, .locked =>
          CommitGoesOn l i x' { w1 with phase := some .stage1 } kept e s m
        | .stage1, .ok => CommitGoesOn l i x'
            { w1 with phase := some (if w.length ≤ 4 then .commit else .stage2) } kept e s m
        | .stage2, .ok => CommitGoesOn l i x' { w1 with phase := some .commit } kept e s m
        | .stage1, .busy | .stage2, .busy => CommitPauses l i x' { w1 with
            unverified := true, phase := some .prelude, preludeUsed := true,
            preludeBusy := true } false e s m
        | .stage1, .refused | .stage1, .done | .stage2, .refused | .stage2, .done =>
          CommitResult l i x' w1 kept r.data (doubt false) .refused e s m
        | .stage1, .locked | .stage2, .locked | .commit, .locked =>
          CommitResult l i x' w1 kept r.data (doubt false) .protected_ e s m
        | .commit, .busy | .commit, .ok => CommitPauses l i x' { w1 with
            unverified := true, accepted := true, phase := some .poll } false e s m
        | .commit, .done =>
          (same → CommitResult l i x' { w1 with
            unverified := true, accepted := true, verified := true } kept [] .verified .ok e s m) ∧
          (¬same → AttemptFails l i x' { w1 with
            unverified := true, accepted := true
            mismatch := (replyDigest r.data).isSome } kept e s m)
        | .commit, .refused => AttemptFails l i x' w1 kept e s m
        | .poll, .busy => CommitPauses l i x' w1 true e s m
        | .poll, .done =>
          (same → CommitResult l i x' { w1 with verified := true } kept [] .verified .ok e s m) ∧
          (¬same → AttemptFails l i x' { w1 with
            mismatch := (replyDigest r.data).isSome } kept e s m)
        | .poll, .ok | .poll, .refused | .poll, .locked => AttemptFails l i x' w1 kept e s m
        | .final, .done =>
          (w.accepted = true ∧ same →
            CommitResult l i x' { w1 with verified := true } kept [] .verified .ok e s m) ∧
          (¬(w.accepted = true ∧ same) → CommitResult l i x' { w1 with
            mismatch := w.accepted && (replyDigest r.data).isSome } kept [] .unknown
            .commitTimeout e s m)
        | .final, .ok | .final, .busy | .final, .refused | .final, .locked =>
          CommitResult l i x' w1 kept [] .unknown .commitTimeout e s m) ∧
    (∀ status, (o, status) ∈ [(TryOutcome.noReply, Status.noReply), (.garbled, .garbled),
        (.collided, .collided)] →
      ∃ m t, StepOver l s i c o m t ∧ (∀ a, a ≠ w.addr → m.entry l a = s.entry l a) ∧
        CommitResult l i x'
          { w with
            polls := polls
            unverified := w.unverified || (p == .commit && o != .collided) }
          (match p with
            | .poll | .final => false
            | .prelude => !w.preludeBusy
            | _ => true)
          [] (doubt (p == .commit && o != .collided))
          (if p = .final then .commitTimeout else status)
          (match status with
            | .noReply => (s.entry l w.addr).missed (s.engine l).config.silence
            | .garbled => (s.entry l w.addr).garbledStep st.allGarbled
            | _ => s.entry l w.addr) s m)

/-- The settle timer and the listen interval timer of a line expire (R26, R38, R73, R144): the settle
timer stops and the SETTLE waits are judged again; listen-due is set. A timer's deadline is reached from
its millisecond on (assumption log 5). -/
def Obligations.SettleAndListenTimersExpire : Prop :=
  ∀ (l : Line) (s : State) (d : Word), s.device ≠ .halted → (s.ms - d).toNat < 2 ^ 31 →
    ((s.engine l).settle = some d → ∃ t, exec (.settleExpiry l) s = .next t ∧
      After l (s.setEngine l { s.engine l with settle := none }) t) ∧
    ((s.engine l).listenTimer = some d → ∃ t, exec (.listenIntervalExpiry l) s = .next t ∧
      After l (s.setEngine l { s.engine l with listenTimer := none, listenDue := true }) t)

/-! ## Tries -/

/-- The gap and the drawn backoff begin the holder's next try (R5, R22, R31): the line goes to CALLING
with the call's frame, one more try begun. On a free line the end of the gap lets the arbiter decide
(R34). A low on RX starts the gap again (R5). -/
def Obligations.GapAndBackoffBeginTheTry : Prop :=
  ∀ (l : Line) (s : State), s.device ≠ .halted → (s.engine l).state = .idle →
    (∀ st, (s.engine l).step = some st → (s.engine l).holder ≠ .none →
      (s.engine l).next = .gap →
      exec (.gapComplete l) s = .next (s.setEngine l { s.engine l with
        state := .calling, frame := callFrame st.call, frameStarted := false, quiet := false,
        next := .none, step := some { st with tries := st.tries + 1 } })) ∧
    (∀ st n, (s.engine l).step = some st → (s.engine l).next = .backoff n →
      exec (.backoffExpiry l) s = .next (s.setEngine l { s.engine l with
        state := .calling, frame := callFrame st.call, frameStarted := false, quiet := false,
        next := .none, step := some { st with tries := st.tries + 1 } })) ∧
    ((s.engine l).holder = .none → ∃ t, exec (.gapComplete l) s = .next t ∧
      After l (s.setEngine l { s.engine l with quiet := true }) t ∧
      ((t.engine l).quiet = true ∨ (t.engine l).holder ≠ .none)) ∧
    exec (.rxLow l) s = .next (s.setEngine l { s.engine l with quiet := false })

/-- FRAME_SENT in CALLING (R6, R9, R13, R22): a call with reply opens its reply window, a LISTEN its
listen window. FRAME_START (R4, R22): AWAITING goes to RECEIVING, and an open listen window has its
frame (assumption log 9). -/
def Obligations.FramesOpenAndFillTheWindows : Prop :=
  (∀ (l : Line) (s : State), s.device ≠ .halted →
    ((s.engine l).state = .awaiting → exec (.frameStart l) s = .next (s.setEngine l
      { s.engine l with state := .receiving, frameStarted := true, quiet := false })) ∧
    ((s.engine l).state = .listening → exec (.frameStart l) s = .next (s.setEngine l
      { s.engine l with frameStarted := true, quiet := false }))) ∧
  (∀ (l : Line) (s : State) (st : Step), s.device ≠ .halted → (s.engine l).state = .calling →
    (s.engine l).step = some st →
    (st.call.reply = true → exec (.frameSent l) s = .next (s.setEngine l { s.engine l with
      state := .awaiting, frame := [], frameStarted := false, quiet := false })) ∧
    (st.call.reply = false → (s.engine l).holder = .series →
      exec (.frameSent l) s = .next (s.setEngine l { s.engine l with
        state := .listening, frame := [], frameStarted := false, quiet := false })))

/-- FRAME_SENT of a CALL without reply (R22, R30, R34, R82, R91, R97, R185): the step ends SENT, the
slot ends OK with its tries used, what it holds of an earlier reply (none, for such a CALL) in its
detail, its result joining the bound result ring or counted lost on one that is not ACTIVE, and the
grant ends; the table is told of nothing but an UNASSIGN to ALL, after which every entry of the line
without a commit lock has its initial value (R32, R54). -/
def Obligations.SentCallEndsOk : Prop :=
  ∀ (l : Line) (s : State) (st : Step) (i : SlotId) (x : Slot) (w : CallWork),
    s.device ≠ .halted → (s.engine l).state = .calling → (s.engine l).step = some st →
    st.call.reply = false → (s.engine l).holder = .slot i → s.slot i = some x → x.line = l →
    x.work = .call w → noWaiting s l = true →
    ∃ m t : State, exec (.frameSent l) s = .next t ∧ Worked s m ∧ After l m t ∧
      m.engine l = grantOver { s.engine l with state := .idle, quiet := false } ∧
      Decided i { x with tries := st.tries, work := .call { w with allGarbled := false } } .ok
        ([byteOf st.tries, byteOf w.busyRounds, lastReplyByte w.lastReply,
          flagBit w.noticePending 1, byteOf w.data.length] ++ padTo 8 w.data) s m ∧
      (∀ j, j ≠ i → m.slot j = s.slot j) ∧
      (w.verb ≠ 2 ∨ w.target ≠ .all → m.nodes = s.nodes) ∧
      (w.verb = 2 → w.target = .all →
        (∀ a, m.entry l a = if (s.entry l a).lock = none then NodeEntry.initial
          else s.entry l a) ∧ ∀ k, k ≠ l → m.table k = s.table k) ∧
      m.buffer = s.buffer ∧ m.queues = s.queues

/-- A try that fails with a try left, no cut waiting (R6, R9, R10, R22, R30, R31). After a collision the
line is back in IDLE with the holder in place, waits for a drawn backoff of 1 to 8 gap units, and the step
is no longer all garbled; the draw is a free value of the seed generator (assumption log 1). After
NO_REPLY or GARBLED, by a garbled reception or a frame that is no valid reply, the next try begins after
the gap, at once if it has passed since the call's end, and a commit that holds the line in phase COMMIT
takes the unverified mark (R108). -/
def Obligations.FailedTriesAreRepeated : Prop :=
  (∀ (l : Line) (s : State) (st : Step), s.device ≠ .halted → (s.engine l).state = .calling →
    (s.engine l).step = some st → st.tries ≤ st.retryLimit → (s.engine l).headEnd = .normal →
    noCut s l = true →
    ∃ (n : Nat) (t : State), exec (.collisionDetected l) s = .next t ∧ 1 ≤ n ∧ n ≤ 8 ∧
      After l { s.setEngine l { s.engine l with
          state := .idle, frame := [], frameStarted := false, quiet := false, next := .backoff n,
          step := some { st with allGarbled := false } } with
        draws := s.draws + 1 } t) ∧
  (∀ (l : Line) (s : State) (st : Step) (commitMarked : State → Prop),
    s.device ≠ .halted → (s.engine l).step = some st →
    st.tries ≤ st.retryLimit → (s.engine l).headEnd = .normal → noCut s l = true →
    (∀ m, commitMarked m ↔
      (∀ i x w, (s.engine l).holder = .slot i → s.slot i = some x → x.work = .param w →
        w.phase = some .commit →
        m.slot i = some { x with work := .param { w with unverified := true } }) ∧
      ∀ j, ¬((s.engine l).holder = .slot j ∧ ∃ x w, s.slot j = some x ∧ x.work = .param w ∧
        w.phase = some .commit) → m.slot j = s.slot j) →
    ((s.engine l).state = .awaiting → ∃ m t, exec (.replyWindowTimeout l) s = .next t ∧
      Worked s m ∧ After l m t ∧ m.nodes = s.nodes ∧ m.buffer = s.buffer ∧ commitMarked m ∧
      m.engine l =
        (if (s.engine l).quiet = true then
          { s.engine l with
            state := .calling, frame := callFrame st.call, frameStarted := false, quiet := false,
            next := .none, step := some { st with tries := st.tries + 1, allGarbled := false } }
        else
          { s.engine l with
            state := .idle, frame := [], frameStarted := false, next := .gap,
            step := some { st with allGarbled := false } })) ∧
    (∀ c, (s.engine l).state = .receiving →
      (c = .garbledReception l ∨
        ∃ frame, c = .replyFrameEnd l frame ∧ judgeReply st.call frame = none) →
      ∃ m t, exec c s = .next t ∧
      Worked s m ∧ After l m t ∧ m.nodes = s.nodes ∧ m.buffer = s.buffer ∧ commitMarked m ∧
      m.engine l = { s.engine l with
        state := .idle, frame := [], frameStarted := false, quiet := false, next := .gap }))

/-- The last try of a CALL ends without a valid reply (R9, R10, R30, R32, R46, R47, R82, R91, R93, R94,
R97): a try of a CALL without reply only by a collision, one with reply also with no reply, or garbled, by
a garbled reception or a frame that is no valid reply. The grant ends, and the slot ends NO_REPLY, GARBLED
or COLLIDED, its detail giving the tries used, the busy rounds, the last reply, whether every try was
garbled, and no data. The entry of a node that was to reply counts a miss or a garble, with the notices
of the statement on the table, or nothing for a collision; of any other call the table is told
nothing. -/
def Obligations.LastUnansweredTryEndsTheCall : Prop :=
  ∀ (l : Line) (s : State) (st : Step) (i : SlotId) (x : Slot) (c : Instr) (o : TryOutcome)
    (w : CallWork) (status : Status), StepEnds l s st i x c o → x.work = .call w →
    (o, status) ∈ [(TryOutcome.noReply, Status.noReply), (.garbled, .garbled),
      (.collided, .collided)] →
    ∃ m t, StepOver l s i c o m t ∧
      Decided i { x with
          tries := st.tries
          work := .call { w with allGarbled := st.allGarbled && status == .garbled } } status
        ([byteOf st.tries, byteOf w.busyRounds, lastReplyByte w.lastReply,
          flagBit (st.allGarbled && status == .garbled) 0 ||| flagBit w.noticePending 1, 0]
          ++ padTo 8 []) s m ∧
      (∀ a, st.call.target = .node a → st.call.reply = true →
        (∀ b, b ≠ a → m.entry l b = s.entry l b) ∧
        m.buffer = (reportStep l st.call st.allGarbled o s).buffer ∧
        m.entry l a =
          (match status with
          | .noReply => (s.entry l a).missed (s.engine l).config.silence
          | .garbled => (s.entry l a).garbledStep st.allGarbled
          | _ => s.entry l a)) ∧
      (st.call.reply = false ∨ (∀ a, st.call.target ≠ .node a) →
        m.nodes = s.nodes ∧ m.buffer = s.buffer)

/-- A well-formed frame ends in the reply window of a CALL and is a valid reply (R10, R22, R32, R45,
R91, R92, R94, R97): the table hears of it first, with the data of a PING or an UNASSIGN answered OK
(R49, R53), as the statement on the table says, the notice-pending flag sets listen-due, the grant
ends, and the slot ends OK, REFUSED or PROTECTED with the reply in its detail; BUSY ends it NODE_BUSY
once its busy rounds are used up, and before that pauses it for the poll interval, or ends it ABORTED if
an abort is pending (R85). -/
def Obligations.ValidReplyEndsTheCall : Prop :=
  ∀ (l : Line) (s : State) (frame : List Byte) (st : Step) (i : SlotId) (x : Slot) (w : CallWork)
    (a : Addr) (r : Reply),
    s.device ≠ .halted → (s.engine l).state = .receiving → (s.engine l).step = some st →
    st.call.target = .node a → st.call.reply = true → (s.engine l).holder = .slot i →
    s.slot i = some x → x.line = l → x.work = .call w → noWaiting s l = true →
    judgeReply st.call frame = some r →
    ∃ m t : State, exec (.replyFrameEnd l frame) s = .next t ∧ Worked s m ∧ After l m t ∧
      m.engine l = grantOver { s.engine l with
        state := .idle, quiet := false
        listenDue := (s.engine l).listenDue || r.noticePending } ∧
      (∀ j, j ≠ i → m.slot j = s.slot j) ∧
      (st.call.verb ≠ verbPing → w.verb ≠ verbUnassign →
        m.entry l a = (s.entry l a).heard s.ms ∧ ∀ b, b ≠ a → m.entry l b = s.entry l b) ∧
      m.nodes = (followUnassign l w (.replied r)
        (reportStep l st.call st.allGarbled (.replied r) s)).nodes ∧
      m.buffer = (reportStep l st.call st.allGarbled (.replied r) s).buffer ∧
      m.lost = (reportStep l st.call st.allGarbled (.replied r) s).lost ∧
      (w.verb = 2 → w.target = .node a → r.status = .ok →
        m.entry l a = { NodeEntry.initial with lock := (s.entry l a).lock }) ∧
      (r.status = .busy → w.busyRounds < w.busyLimit → x.abortPending = false →
        ∃ y w', m.slot i = some y ∧ y.state = .paused ∧ y.work = .call w' ∧
          w'.busyRounds = w.busyRounds + 1 ∧ y.tries = st.tries ∧
          y.pollAt = some (s.ms + BitVec.ofNat 32 (s.engine l).config.pollInterval)) ∧
      (r.status = .busy → w.busyRounds < w.busyLimit → x.abortPending = true → x.started = true →
        Decided i { x with
            tries := st.tries
            work := .call { w with
              lastReply := some .busy, noticePending := r.noticePending, data := r.data,
              allGarbled := false } } .aborted
          ([byteOf st.tries, byteOf w.busyRounds, replyStatusCode .busy,
            flagBit r.noticePending 1, 0] ++ padTo 8 []) s m) ∧
      (r.status ≠ .busy ∨ w.busyLimit ≤ w.busyRounds →
        Decided i { x with
            tries := st.tries
            work := .call { w with
              lastReply := some r.status, noticePending := r.noticePending, data := r.data,
              allGarbled := false } }
          (match r.status with
            | .ok | .done => .ok
            | .refused => .refused
            | .locked => .protected_
            | .busy => .nodeBusy)
          ([byteOf st.tries, byteOf w.busyRounds, replyStatusCode r.status,
            flagBit r.noticePending 1, byteOf r.data.length] ++ padTo 8 r.data) s m)

/-! ## Listen windows -/

/-- A listen window ends without a valid notice (R13, R22, R37, R146): an empty one ends the series,
with the listen interval timer started; a garbled one, or one with a frame that is no valid notice,
ends it with listen-due set after the fourth window, ends it if STOP has asked for that, or leaves it
to its next window. A LISTEN that ends COLLIDED ends the series as an empty window does (R145). The
end of a TAKEN (R146, R148), by any outcome, is reported to the table for the notice's source, clears
the acknowledgement, and then ends the series with listen-due set after the fourth window, ends it if
STOP has asked for that, or leaves it to its next window; that the fourth window comes before STOP is
the model's choice (assumption log 21). -/
def Obligations.ListenWindowsEndTheirGrant : Prop :=
  (∀ (l : Line) (s : State) (sr : Series) (c : Instr), s.device ≠ .halted →
    (s.engine l).state = .listening → (s.engine l).series = some sr → noWaiting s l = true →
    (c = .garbledReception l ∨ ∃ frame, c = .noticeFrameEnd l frame ∧ judgeNotice frame = none) →
    ((s.engine l).frameStarted = false → ∃ t, exec (.listenWindowEmpty l) s = .next t ∧
      After l (s.setEngine l (grantOver { s.engine l with
        state := .idle, series := none
        listenTimer := some (s.ms + BitVec.ofNat 32 (s.engine l).config.listenInterval) })) t) ∧
    ((s.engine l).frameStarted = true → sr.window < 4 → sr.stopping = false →
      ∃ t, exec c s = .next t ∧
        After l (s.setEngine l (grantOver { s.engine l with
          state := .idle, quiet := false
          series := some { sr with last := some .garbled, ack := none } })) t) ∧
    ((s.engine l).frameStarted = true → sr.window < 4 → sr.stopping = true →
      ∃ t, exec c s = .next t ∧
        After l (s.setEngine l (grantOver { s.engine l with
          state := .idle, quiet := false, series := none
          listenTimer := some (s.ms + BitVec.ofNat 32 (s.engine l).config.listenInterval) })) t) ∧
    ((s.engine l).frameStarted = true → 4 ≤ sr.window →
      ∃ t, exec c s = .next t ∧
        After l (s.setEngine l (grantOver { s.engine l with
          state := .idle, quiet := false, listenDue := true, series := none
          listenTimer := some (s.ms + BitVec.ofNat 32 (s.engine l).config.listenInterval) })) t)) ∧
  (∀ (l : Line) (s : State) (sr : Series) (st : Step), s.device ≠ .halted →
    (s.engine l).state = .calling → (s.engine l).holder = .series →
    (s.engine l).series = some sr → sr.ack = none → (s.engine l).step = some st →
    st.retryLimit < st.tries → noWaiting s l = true →
    ∃ t, exec (.collisionDetected l) s = .next t ∧
      After l (s.setEngine l (grantOver { s.engine l with
        state := .idle, quiet := false, series := none
        listenTimer := some (s.ms + BitVec.ofNat 32 (s.engine l).config.listenInterval) })) t) ∧
  (∀ (l : Line) (s : State) (sr : Series) (st : Step) (a : Addr) (q : BitVec 4) (c : Instr)
    (o : TryOutcome) (e : LineEngine), s.device ≠ .halted →
    (s.engine l).holder = .series → (s.engine l).series = some sr → sr.ack = some (a, q) →
    (s.engine l).step = some st →
    st.call = { target := .node a, verb := 9, reply := true, args := [q.setWidth 8] } →
    TryEnds l s st c o → (o = .noReply ∨ o = .garbled ∨ o = .collided → st.retryLimit < st.tries) →
    noWaiting s l = true →
    e = { s.engine l with
      state := .idle
      quiet := (s.engine l).quiet && (match o with | .noReply => true | _ => false)
      listenDue := (s.engine l).listenDue ||
        (match o with | .replied r => r.noticePending | _ => false) } →
    ∃ m t, exec c s = .next t ∧ After l m t ∧
      m = (reportStep l st.call st.allGarbled o s).setEngine l (grantOver
        (if 4 ≤ sr.window then
          { e with
            listenDue := true, series := none
            listenTimer := some (s.ms + BitVec.ofNat 32 (s.engine l).config.listenInterval) }
        else if sr.stopping = true then
          { e with
            series := none
            listenTimer := some (s.ms + BitVec.ofNat 32 (s.engine l).config.listenInterval) }
        else { e with series := some { sr with last := some .valid, ack := none } })) ∧
      m.entry l a = (match o with
        | .replied _ => (s.entry l a).heard s.ms
        | .noReply => (s.entry l a).missed (s.engine l).config.silence
        | .garbled => (s.entry l a).garbledStep st.allGarbled
        | _ => s.entry l a) ∧
      ∀ b, b ≠ a → m.entry l b = s.entry l b)

/-- A valid notice ends its window (R13, R45, R52, R147, R148): the source is heard; a notice whose
sequence is not the last one accepted from it is kept as the last one and delivered, and a repeat is
not; either is followed by TAKEN under the same grant, after the gap. -/
def Obligations.ValidNoticeIsDeliveredAndTaken : Prop :=
  ∀ (l : Line) (s : State) (frame : List Byte) (sr : Series) (n : NodeNotice),
    s.device ≠ .halted → (s.engine l).state = .listening → (s.engine l).frameStarted = true →
    (s.engine l).series = some sr → noCut s l = true → judgeNotice frame = some n →
    ∃ m t : State, exec (.noticeFrameEnd l frame) s = .next t ∧ AfterBoth m t ∧
      Worked { s with reflexes := m.reflexes } m ∧
      m.engine l = { s.engine l with
        state := .idle, frameStarted := false, quiet := false, next := .gap
        series := some { sr with last := some .valid, ack := some (n.source, n.seq) }
        step := some { call := takenCall n.source n.seq
                       retryLimit := (s.engine l).config.retryLimit
                       tries := 0, allGarbled := true } } ∧
      (∀ i, m.slot i = s.slot i) ∧ (∀ b, b ≠ n.source → m.entry l b = s.entry l b) ∧
      m.entry l n.source
        = { (s.entry l n.source).heard s.ms with lastSeq := some n.seq } ∧
      ((s.entry l n.source).lastSeq = some n.seq →
        m.reflexes = s.reflexes ∧ m.queues = s.queues ∧
        ((s.entry l n.source).state ≠ .silent → m.buffer = s.buffer)) ∧
      ((s.entry l n.source).lastSeq ≠ some n.seq → (s.entry l n.source).state ≠ .silent →
        s.buffer.length < 16 → ∃ more, m.buffer = s.buffer ++
          { body := .nodeNotice n, line := some l, stamp := s.ms, lost := s.lost } :: more)

/-! ## The deadlines of slots, reflexes and rings -/

/-- A defer deadline and a poll deadline expire (R71, R81): the slot's wait is over and it is judged.
The expiry deadline of an unstarted slot passes (R79, R82, R97, R102, R126, R142): the slot ends
EXPIRED with a detail of zero. A commit's budget expires (R116, R117, R118, R122): ON_LINE it is kept
for the step's end; a commit whose node is thought to be programming makes its final CHECK, or ends
ABORTED with its store UNKNOWN if an abort is pending; any other one ends COMMIT_TIMEOUT, its lock
released and its store UNKNOWN if a COMMIT may have been taken. A deadline is reached from its
millisecond on (assumption log 5). The bytes of a commit's detail are given in
CommitStepsFollowTheirPhase. -/
def Obligations.SlotDeadlinesExpire : Prop :=
  (∀ (i : SlotId) (s : State) (x : Slot) (d : Word), s.device ≠ .halted → s.slot i = some x →
    (s.ms - d).toNat < 2 ^ 31 →
    (x.deferAt = some d → ∃ t, exec (.deferExpiry i) s = .next t ∧
      After x.line (s.setSlot i (some { x with deferAt := none })) t ∧
      (RingTakes x s → t.slot i ≠ none) ∧
      ∀ y, t.slot i = some y → y.deferAt = none ∧ y.state ≠ .waiting .defer) ∧
    (x.pollAt = some d → x.state = .paused → ∃ t, exec (.pollDeadlineExpiry i) s = .next t ∧
      After x.line (s.setSlot i (some { x with state := .ready, pollAt := none })) t ∧
      (RingTakes x s → t.slot i ≠ none) ∧
      ∀ y, t.slot i = some y → y.pollAt = none ∧ y.state ≠ .paused)) ∧
  (∀ (i : SlotId) (s : State) (x : Slot) (d : Word), s.device ≠ .halted →
    s.slot i = some x → x.started = false → x.expireAt = some d → (s.ms - d).toNat < 2 ^ 31 →
    (∀ w, x.work = .param w → (s.entry x.line w.addr).lock ≠ some i) →
    ∃ (t : State) (v : Work), exec (.expireDeadlineExpiry i) s = .next t ∧
      ((∀ w, x.work ≠ .param w) → v = x.work) ∧
      After x.line (ended i { x with work := v } .expired [] s) t ∧
      t.slot i = (if RingTakes x s then some (finished i { x with work := v } .expired [])
        else none)) ∧
  (∀ (i : SlotId) (s : State) (x : Slot) (w : ParamWork) (d : Word), s.device ≠ .halted →
    s.slot i = some x → x.work = .param w → x.budgetAt = some d → (s.ms - d).toNat < 2 ^ 31 →
    (x.state = .onLine → ∃ t, exec (.budgetExpiry i) s = .next t ∧
      After x.line (s.setSlot i (some { x with
        budgetAt := none, pollAt := none, work := .param { w with budgetPassed := true } })) t ∧
      t.slot i = some { x with
        budgetAt := none, pollAt := none, work := .param { w with budgetPassed := true } }) ∧
    (x.state ≠ .onLine → x.state ≠ .finishing → x.started = true → x.abortPending = false →
      w.phase = some .poll ∨ w.phase = some .final ∨
        (w.phase = some .prelude ∧ w.preludeBusy = true) →
      ∃ t, exec (.budgetExpiry i) s = .next t ∧
        After x.line (s.setSlot i (some { x with
          state := .ready, budgetAt := none, pollAt := none
          work := .param { w with finalFlag := true, phase := some .final } })) t ∧
        (RingTakes x s → t.slot i ≠ none) ∧
        ∀ y, t.slot i = some y →
          y.state ∈ [SlotState.ready, .waiting .lock, .onLine, .finishing] ∧
          ∃ w', y.work = .param w' ∧ w'.phase = some .final ∧ w'.finalFlag = true) ∧
    (x.state ≠ .onLine → x.state ≠ .finishing → x.started = true → x.abortPending = true →
      w.phase = some .poll ∨ w.phase = some .final ∨
        (w.phase = some .prelude ∧ w.preludeBusy = true) → w.verified = false →
      ∃ (t : State) (w' : ParamWork) (e : NodeEntry), exec (.budgetExpiry i) s = .next t ∧
        w' = { w with finalFlag := true, outcome := .unknown } ∧
        e = { s.entry x.line w.addr with
          lock := if (s.entry x.line w.addr).lock = some i then none
            else (s.entry x.line w.addr).lock
          store := .unknown } ∧
        After x.line (ended i { x with work := .param w' } .aborted (paramDetail s.ms w')
          (s.setEntry x.line w.addr e)) t ∧
        t.slot i = (if RingTakes x s then
          some (finished i { x with work := .param w' } .aborted (paramDetail s.ms w'))
          else none)) ∧
    (x.state ≠ .onLine → x.state ≠ .finishing →
      w.phase ≠ some .poll → w.phase ≠ some .final →
      (w.phase = some .prelude → w.preludeBusy = false) → w.verified = false →
      x.started = true →
      ∃ (t : State) (w' : ParamWork) (e : NodeEntry), exec (.budgetExpiry i) s = .next t ∧
        w' = { w with outcome :=
          if w.unverified = true ∨ w.finalFlag = true then .unknown else .none } ∧
        e = { s.entry x.line w.addr with
          lock := if (s.entry x.line w.addr).lock = some i then none
            else (s.entry x.line w.addr).lock
          store := if w.unverified = true ∨ w.finalFlag = true then .unknown
            else (s.entry x.line w.addr).store } ∧
        After x.line (ended i { x with work := .param w' } .commitTimeout (paramDetail s.ms w')
          (s.setEntry x.line w.addr e)) t ∧
        t.slot i = (if RingTakes x s then
          some (finished i { x with work := .param w' } .commitTimeout (paramDetail s.ms w'))
          else none)))

/-- The end of a SWEEP's ping (R85, R100, R101), the choice of its step address (R99), and the end of a
DISCOVER's step (R129 to R137, R140): the node table hears of it first, the phase's rule judges the
outcome, and the slot is to make another step or ends. What `reportStep` and `followAssign` make of the
table is said by the statement on the table below. The clauses on `judgedStep`, `takeNext`,
`withCandidate` and `roundEnd` say what the outcome makes of a discovery: its next phase, the class of
a position, the next clean position, the candidate for it, and the round's end. The last clause gives
the bytes of the two details (R102, R143, R212). -/
def Obligations.SweepAndDiscoverStepsEnd : Prop :=
  (∀ (l : Line) (s : State) (st : Step) (i : SlotId) (x : Slot) (c : Instr) (o : TryOutcome)
    (w w' : SweepWork) (a : Addr), StepEnds l s st i x c o → x.work = .sweep w →
    w.step = some a → x.started = true →
    w' = { w with
      step := none
      marks := w.marks.map fun p => if p.1 = a then (a, .pinged) else p } →
    ∃ m t, StepOver l s i c o m t ∧
      m.nodes = (reportStep l st.call st.allGarbled o s).nodes ∧
      m.buffer = (reportStep l st.call st.allGarbled o s).buffer ∧
      (if x.abortPending = true then
        Decided i { x with tries := st.tries, work := .sweep w' } .aborted
          (sweepDetail (m.table l) w') s m
      else m.slot i = some { x with state := .ready, tries := st.tries, work := .sweep w' })) ∧
  (∀ (s : State) (i : SlotId) (x : Slot) (w : SweepWork) (locked : Addr → Prop)
    (aside busy : List (Addr × Mark) → List (Addr × Mark)),
    s.slot i = some x → x.work = .sweep w → (x.state = .ready ∨ ∃ r, x.state = .waiting r) →
    (∀ r, place r ≤ 4 → ¬Applies s i x r) →
    (∀ a, locked a ↔ ∃ j, (s.entry x.line a).lock = some j ∧ j ≠ i) →
    (∀ v, aside v = v.map fun p => if p.2 = .unvisited then (p.1, .aside) else p) →
    (∀ v, busy v = v.map fun p => if p.2 = .aside then (p.1, .busy) else p) →
    (∀ pre a post, w.marks = pre ++ (a, .unvisited) :: post →
      (∀ b, (b, Mark.unvisited) ∈ pre → locked b) → ¬locked a →
      judgeSlot i s = s.setSlot i (some { x with
        state := .ready
        work := .sweep { w with
          marks := aside pre ++ (a, .unvisited) :: post, step := some a } })) ∧
    (∀ pre a post, (∀ b, (b, Mark.unvisited) ∈ w.marks → locked b) →
      aside w.marks = pre ++ (a, .aside) :: post →
      (∀ b, (b, Mark.aside) ∈ pre → locked b) → ¬locked a →
      judgeSlot i s = s.setSlot i (some { x with
        state := .ready
        work := .sweep { w with marks := busy pre ++ (a, .aside) :: post, step := some a } })) ∧
    ((∀ b, (b, Mark.unvisited) ∈ w.marks ∨ (b, Mark.aside) ∈ w.marks → locked b) →
      ∀ w', w' = { w with marks := busy (aside w.marks), step := none } →
      judgeSlot i s = ended i { x with work := .sweep w' } .ok
        (sweepDetail (s.table x.line) w') s)) ∧
  (∀ (l : Line) (s : State) (st : Step) (i : SlotId) (x : Slot) (c : Instr) (o : TryOutcome)
    (w : DiscoverWork), StepEnds l s st i x c o → x.work = .discover w →
    ∃ (m t s' : State) (w' : DiscoverWork), StepOver l s i c o m t ∧
      s' = followAssign l w o (reportStep l st.call st.allGarbled o s) ∧
      m.nodes = s'.nodes ∧ m.buffer = s'.buffer ∧ w' = w.judgedStep s' l o ∧
      (if x.abortPending = true then
        Decided i { x with
            tries := st.tries, work := .discover { w' with endReason := .aborted } } .aborted
          (discoverDetail { w' with endReason := .aborted }) s m
      else if w'.endReason = .none then
        m.slot i = some { x with state := .ready, tries := st.tries, work := .discover w' }
      else
        Decided i { x with tries := st.tries, work := .discover w' } .ok (discoverDetail w')
          s m)) ∧
  (∀ (w : DiscoverWork) (s : State) (l : Line) (o : TryOutcome) (a : Addr) (c : CleanPosition)
    (w1 : DiscoverWork),
    (w.phase = .roll → w.judgedStep s l .sent = { w with phase := .pick } ∧
      w.judgedStep s l .collided = w.roundEnd false) ∧
    (w.phase = .pick →
      w1 = pickClassed o w →
      w.judgedStep s l o =
        if w.nextPosition + 1 < w.positions then { w1 with nextPosition := w.nextPosition + 1 }
        else ({ w1 with nextPosition := w.nextPosition + 1 }).takeNext s l) ∧
    (w.phase = .check → w.candidate = some a →
      w.judgedStep s l o =
        if o = .noReply then { w with phase := .assign }
        else ({ w with avoid := w.avoid ++ [a] }).withCandidate s l) ∧
    (w.phase = .assign → w.candidate = some a → w.current = some c →
      ((∀ r d, o = .replied r → r.status = .ok → pingData r.data = some d → d.1 ≠ c.identity) →
        w.judgedStep s l o = (assignSettled c a false w).takeNext s l) ∧
      ∀ r d, o = .replied r → r.status = .ok → pingData r.data = some d → d.1 = c.identity →
        w.judgedStep s l o = (assignSettled c a true w).takeNext s l)) ∧
  (∀ (w : DiscoverWork) (s : State) (l : Line) (quiet : Bool),
    w.roundEnd quiet =
      (if quiet = true ∧ w.roundCollided = 0 ∧ w.clean = [] then
        { w with current := none, candidate := none, endReason := .quiet }
      else if w.rounds = w.roundLimit then
        { w with current := none, candidate := none, endReason := .roundLimit }
      else { w with current := none, candidate := none, phase := .roll }) ∧
    ((∀ p ∈ w.clean, p.mark ≠ .pending) → w.takeNext s l = w.roundEnd true) ∧
    (∀ pre c post, w.clean = pre ++ c :: post → (∀ p ∈ pre, p.mark ≠ .pending) →
      c.mark = .pending →
      w.takeNext s l = ({ w with current := some c, candidate := none }).withCandidate s l) ∧
    (∀ (c : CleanPosition) (former free : Addr → Prop), w.current = some c →
      (∀ a, former a ↔ w.poolFirst ≤ a ∧ a ≤ w.poolLast ∧ a ∉ w.avoid ∧
        (s.entry l a).identity = some c.identity ∧ (s.entry l a).state ≠ .clash) →
      (∀ a, free a ↔ w.poolFirst ≤ a ∧ a ≤ w.poolLast ∧ a ∉ w.avoid ∧
        (s.entry l a).state = .vacant) →
      (∀ a, former a → (∀ b, b < a → ¬former b) →
        w.withCandidate s l = { w with phase := .check, candidate := some a }) ∧
      (∀ a, (∀ b, ¬former b) → free a → (∀ b, b < a → ¬free b) →
        w.withCandidate s l = { w with phase := .check, candidate := some a }) ∧
      ((∀ b, ¬former b) → (∀ b, ¬free b) →
        w.withCandidate s l = { w with candidate := none, endReason := .poolExhausted }))) ∧
  (∀ (w : SweepWork) (table : Vector NodeEntry 80) (count : (Addr × Mark → Bool) → Byte),
    (∀ p, count p = byteOf (w.marks.countP p)) →
    sweepDetail table w =
      [count fun m => m.2 == .pinged,
        count fun m => m.2 == .pinged && table[m.1].state == .present,
        count fun m => m.2 == .pinged && table[m.1].state == .silent,
        count fun m => m.2 == .pinged && table[m.1].state == .clash,
        count fun m => m.2 == .busy]) ∧
  (∀ w : DiscoverWork, discoverDetail w =
    [(match w.endReason with
      | .none => 0 | .quiet => 1 | .roundLimit => 2 | .poolExhausted => 3 | .aborted => 4
      | .cut => 5),
      byteOf w.rounds, byteOf w.assigned, byteOf w.lost, byteOf w.cleanTotal,
      byteOf w.collidedTotal, byteOf w.roundCollided])

/-- A reflex entry's quiet-until deadline (R161) and a ring's holdoff timer (R189, R190) expire: the
entry may fire again; the timer stops, and an ACTIVE ring with an entry left to consume signals. The
timer of a holdoff of 0 expires at the next tick, not in the millisecond in which it started. That any
other deadline is reached from its millisecond on is the model's reading (assumption log 5). -/
def Obligations.QuietAndHoldoffDeadlinesExpire : Prop :=
  ∀ (s : State) (d : Word), s.device ≠ .halted → (s.ms - d).toNat < 2 ^ 31 →
    (∀ k : ReflexId, (s.reflex k).quietUntil = some d →
      exec (.quietUntilExpiry k) s
        = .next (s.setReflex k { s.reflex k with quietUntil := none })) ∧
    (∀ n : RingName, (s.outRing n).timer = some d →
      exec (.holdoffTimerExpiry n) s = .next (
        if (s.outRing n).holdoff = 0 ∧ s.ms = d then s
        else s.setOutRing n { s.outRing n with
          timer := none
          signalled := (s.outRing n).signalled || ((s.outRing n).state == .active &&
            decide (0 < ((s.outRing n).written - (s.outRing n).consumed).toNat)) }))

/-! ## The ends of the ring unit's writes -/

/-- The ring unit. The head of a pending list or of the notice buffer begins its write at the entry of
the ring's written count, in the bytes of section 12.2, while the ring is ACTIVE, free and not full
(R153, R182, R183). The allocation arbiter serves the class that comes first, its rings in turn after
the last one served, within their credit, BULK only with 7 FREE slots, and reserves the lowest FREE
slot (R65, R66). The admin unit fetches when no request is current (R203).
A result record is written (R182, R189, R190): written rises by 1, the head leaves the list, its
sender is told, the ring signals at its threshold and starts its holdoff timer with its first entry,
and the progress word write begins. On a ring that a BAD_TAKE has made FAULTED while the write was in
flight no condition is set (R189), and the rest is the same (R185); that its holdoff timer does not
start either is the model's choice (assumption log 31). A progress word is written (R182, R188): the next
record may be.
The last clauses give the codes of a result's status and of a reply's, and the source, the kind and the
fields of each notice record (R155 to R158, R212). That an entry's address wraps modulo 2^32 is the
model's choice (assumption log 25); the number by which RING_FAULT names the notice ring is a free value
(log 28). -/
def Obligations.RingUnitWritesAndFetches : Prop :=
  (∀ s t : State, t = serviceRings s → s.device ≠ .halted →
    (∀ (q : ResultRingId) (r : ResultRecord) (rest : List ResultRecord),
      (s.resultRing q).out.state = .active → (s.resultRing q).out.access = .idle →
      (s.resultRing q).pending = r :: rest →
      if ((s.resultRing q).out.written - (s.resultRing q).out.consumed).toNat
          < (s.resultRing q).out.size then
        (t.resultRing q).out = { (s.resultRing q).out with
          access := .record
            { addr := (s.resultRing q).out.base + BitVec.ofNat 32
                (32 * ((s.resultRing q).out.written.toNat % (s.resultRing q).out.size))
              bytes := padTo 32 ([r.code, statusByte r.status, byteOf r.ring.val, 0]
                ++ le32 r.tag ++ r.detail) } false }
      else (t.resultRing q).out = (s.resultRing q).out) ∧
    (∀ (n : NoticeRecord) (rest : List NoticeRecord),
      s.notice.state = .active → s.notice.access = .idle → s.adminWaits .closingNotice = false →
      s.buffer = n :: rest →
      t.buffer = s.buffer ∧
      if (s.notice.written - s.notice.consumed).toNat < s.notice.size then
        t.notice = { s.notice with
          access := .record
            { addr := s.notice.base + BitVec.ofNat 32
                (32 * (s.notice.written.toNat % s.notice.size))
              bytes := padTo 32 ([noticeSource n.body, noticeKind n.body,
                (match n.line with | none => 0xFF | some .a => 0 | some .b => 1),
                byteOf n.lost] ++ le32 n.stamp ++ noticeFields n.body) } false }
      else t.notice = s.notice) ∧
    (∀ (able : WorkRingId → Prop) (rank : WorkRingId → Nat) (last : WorkRingId → WorkRingId),
      s.device = .running → s.workFetch = none →
      (∀ r, able r ↔ r ≠ 0 ∧ (t.workRing r).state = .active ∧
        0 < ((s.workRing r).posted - (s.workRing r).fetched).toNat ∧
        s.ringSlots r < (s.workRing r).credit) →
      (∀ r, rank r = match (s.workRing r).cls with | .urgent => 0 | .normal => 1 | .bulk => 2) →
      (∀ r, last r = match (s.workRing r).cls with
        | .urgent => s.served.urgent
        | .normal => s.served.normal
        | .bulk => s.served.bulk) →
      ((s.freeSlots = [] ∨ ∀ r, able r → (s.workRing r).cls = .bulk ∧ s.freeSlots.length < 7) →
        t.workFetch = none ∧ t.served = s.served) ∧
      (s.freeSlots ≠ [] →
        (∃ r, able r ∧ ((s.workRing r).cls ≠ .bulk ∨ 7 ≤ s.freeSlots.length)) →
        ∃ r i, able r ∧
          (∀ k, able k → rank r < rank k ∨ (rank r = rank k ∧
            (r.val + 13 - (last r).val) % 7 ≤ (k.val + 13 - (last r).val) % 7)) ∧
          s.slot i = none ∧ (∀ j, j < i → s.slot j ≠ none) ∧
          t.workFetch = some {
            ring := r, slot := i, stopped := false
            addr := (s.workRing r).base + BitVec.ofNat 32
              (32 * ((s.workRing r).fetched.toNat % (s.workRing r).size)) } ∧
          t.served = (match (s.workRing r).cls with
            | .urgent => { s.served with urgent := r }
            | .normal => { s.served with normal := r }
            | .bulk => { s.served with bulk := r }))) ∧
    (s.adminFetch = none →
      (s.device = .running → (s.workRing 0).state = .active → s.admin = none →
        0 < ((s.workRing 0).posted - (s.workRing 0).fetched).toNat →
        t.adminFetch = some ((s.workRing 0).base + BitVec.ofNat 32
          (32 * ((s.workRing 0).fetched.toNat % (s.workRing 0).size)))) ∧
      (s.device ≠ .running ∨ (s.workRing 0).state ≠ .active ∨ t.admin ≠ none ∨
        (s.workRing 0).posted = (s.workRing 0).fetched → t.adminFetch = none))) ∧
  (∀ (q : ResultRingId) (s : State) (w : HostWrite) (r : ResultRecord)
    (rest : List ResultRecord) (signals : Bool), s.device ≠ .halted →
    (s.resultRing q).out.access = .record w false → (s.resultRing q).pending = r :: rest →
    (signals = true ↔ (s.resultRing q).out.state = .active) →
    ∃ t s', exec (.resultRecordWritten q) s = .next t ∧
      s' = (match r.sender with
        | .slot i => s.setSlot i none
        | .admin => { s with admin := none }) ∧
      t.slots = s'.slots ∧
      Serviced (s'.setResultRing q
        { s.resultRing q with
          pending := rest
          out := { (s.resultRing q).out with
            written := (s.resultRing q).out.written + 1
            timer :=
              if signals = true ∧
                  ((s.resultRing q).out.written + 1 - (s.resultRing q).out.consumed).toNat = 1 then
                some (s.ms + BitVec.ofNat 32 (s.resultRing q).out.holdoff)
              else (s.resultRing q).out.timer
            signalled := (s.resultRing q).out.signalled ||
              (signals && decide ((s.resultRing q).out.threshold
                ≤ ((s.resultRing q).out.written + 1 - (s.resultRing q).out.consumed).toNat))
            access := .progress
              { addr := (s.resultRing q).out.progress
                bytes := le32 (((s.resultRing q).out.written + 1).setWidth 32) } false } }) t) ∧
  (∀ (n : RingName) (s : State) (w : HostWrite) (stale : Bool),
    (s.outRing n).access = .progress w stale →
    ∃ t, exec (.progressWordWritten n) s = .next t ∧
      Serviced (s.setOutRing n { s.outRing n with access := .idle }) t ∧
      ((t.outRing n).access = .idle ∨ ∃ bytes, (t.outRing n).access = .record
        { addr := (s.outRing n).base + BitVec.ofNat 32
            (32 * ((s.outRing n).written.toNat % (s.outRing n).size))
          bytes := bytes } false)) ∧
  (∀ st : Status, (statusByte st).toNat = match st with
    | .ok => 0 | .refused => 1 | .protected_ => 2 | .nodeBusy => 3 | .noReply => 4 | .garbled => 5
    | .collided => 6 | .lineDown => 7 | .lineReset => 8 | .nodeClash => 9 | .verifyFail => 10
    | .commitTimeout => 11 | .expired => 12 | .aborted => 13 | .badRecord => 14 | .badState => 20
    | .bound => 21 | .notFound => 22 | .hostFault => 23) ∧
  (∀ last : Option ReplyStatus, lastReplyByte last = match last with
    | none => 0xFF | some .ok => 0 | some .busy => 1 | some .done => 2 | some .refused => 3
    | some .locked => 4) ∧
  (∀ st : ReplyStatus, replyStatusCode st = lastReplyByte (some st)) ∧
  (∀ (body : NoticeBody) (known : Option UnitNo → Byte) (id : Option UnitNo → List Byte)
    (num : Half → List Byte) (zero : List Byte),
    (∀ u, known u = if u = none then 0 else 1) →
    (∀ u, id u = match u with
      | none => [0, 0, 0, 0, 0]
      | some v => [v.extractLsb' 0 8, v.extractLsb' 8 8, v.extractLsb' 16 8, v.extractLsb' 24 8,
          v.extractLsb' 32 8]) →
    (∀ v, num v = [v.extractLsb' 0 8, v.extractLsb' 8 8]) → zero = [0, 0, 0, 0, 0] →
    (noticeSource body, noticeKind body, noticeFields body) = match body with
      | .nodeNotice n => (0, 1, [byteOf (n.source.val + 1), n.kind.setWidth 8, n.seq.setWidth 8,
          byteOf n.arg.length] ++ n.arg)
      | .nodeFound a u kind => (1, 2, [byteOf (a.val + 1), 0, 1, kind] ++ id (some u) ++ zero)
      | .nodeSilent a u misses =>
        (1, 3, [byteOf (a.val + 1), 0, known u, byteOf misses] ++ id u ++ zero)
      | .nodeBack a u => (1, 4, [byteOf (a.val + 1), 0, known u, 0] ++ id u ++ zero)
      | .nodeClash a former u => (1, 5, [byteOf (a.val + 1), 0, known u,
          (match former with | .vacant => 0 | .present => 1 | .silent => 2 | .clash => 3)]
          ++ id u ++ zero)
      | .nodeReplaced a old new =>
        (1, 6, [byteOf (a.val + 1), 0, 1, 0] ++ id (some old) ++ id (some new))
      | .nodeMoved former new u => (1, 7, [byteOf (former.val + 1), byteOf (new.val + 1), 1, 0]
          ++ id (some u) ++ zero)
      | .lineDown left => (2, 8, [match left with
          | .calling => 1 | .awaiting => 2 | .receiving => 3 | .listening => 4 | _ => 0])
      | .lineUp origin => (2, 9, [match origin with | .off => 0 | .down => 1])
      | .reflexFired k count => (3, 10, [byteOf k.val, 0] ++ num (BitVec.ofNat 16 count))
      | .reflexDropped k reason =>
        (3, 11, [byteOf k.val, match reason with | .queueFull => 0 | .lineUnavailable => 1])
      | .ringFault ring reason lost =>
        (4, 12, (match ring with
          | .work r => [0, byteOf r.val]
          | .result q => [1, byteOf q.val]
          | .notice => [2, Config.noticeRingNumber]) ++
          [(match reason with
            | .fetchFault => 0 | .badPost => 1 | .writeFault => 2 | .badTake => 3), 0] ++
          num (BitVec.ofNat 16 lost))
      | .postIgnored ring reason count => (4, 13,
          [ring, match reason with | .ringClosed => 0 | .noSuchRing => 1] ++ num count))

/-- A write of an ACTIVE result ring ends with a bus error (R185): every pending result is counted lost,
up to 65535 (R181), and its slot is FREE, the ring is FAULTED with its counts kept and its timer stopped,
RING_FAULT carries the lost count, and its ACTIVE work rings are HELD. For result ring 0 the device halts
(R187, R201). On a ring that a BAD_TAKE has made FAULTED while the write was in flight, the result of a
record write is counted lost, its sender being told, and a progress word's write is over; nothing else
changes (R185). -/
def Obligations.WriteFaultsFaultTheResultRing : Prop :=
  (∀ (q : ResultRingId) (s : State), s.device ≠ .halted → q ≠ 0 →
    (s.resultRing q).out.state = .active →
    (∃ w, (s.resultRing q).out.access = .record w false ∨
      (s.resultRing q).out.access = .progress w false) →
    ∃ t, exec (.writeFault q) s = .next t ∧
      (t.resultRing q).pending = [] ∧
      (t.resultRing q).lost = (if (s.resultRing q).pending = [] then (s.resultRing q).lost
        else min 65535 ((s.resultRing q).lost + (s.resultRing q).pending.length)) ∧
      ((t.resultRing q).out.state = .faulted ∨
        ((t.resultRing q).out.state = .closed ∧ s.adminWaits (.closingResult q) = true)) ∧
      (t.resultRing q).out.timer = none ∧ (t.resultRing q).out.access = .idle ∧
      (t.resultRing q).out.written = (s.resultRing q).out.written ∧
      (t.resultRing q).out.consumed = (s.resultRing q).out.consumed ∧
      (t.resultRing q).out.signalled = (s.resultRing q).out.signalled ∧
      (∀ r ∈ (s.resultRing q).pending, ∀ i, r.sender = .slot i → t.slot i = none) ∧
      (s.buffer.length < 16 → t.buffer = s.buffer ++
        [{ body := .ringFault (.result q) .writeFault (t.resultRing q).lost, line := none,
           stamp := s.ms, lost := s.lost }]) ∧
      (∀ k : WorkRingId, k ≠ 0 → (s.workRing k).bound = q → (s.workRing k).state = .active →
        (t.workRing k).state = .held)) ∧
  (∀ s : State, s.device ≠ .halted → (s.resultRing 0).out.state = .active →
    (∃ w, (s.resultRing 0).out.access = .record w false ∨
      (s.resultRing 0).out.access = .progress w false) →
    ∃ t, exec (.writeFault 0) s = .next t ∧ t.device = .halted ∧ t.halt = .result0Fault ∧
      t.deviceEvent = true ∧ (t.resultRing 0).out.state = .faulted ∧
      (t.resultRing 0).pending = [] ∧
      (t.resultRing 0).lost = (if (s.resultRing 0).pending = [] then (s.resultRing 0).lost
        else min 65535 ((s.resultRing 0).lost + (s.resultRing 0).pending.length)) ∧
      t.lines = s.lines ∧ t.nodes = s.nodes ∧ t.work = s.work ∧ t.reflexes = s.reflexes) ∧
  (∀ (q : ResultRingId) (s : State) (w : HostWrite), s.device ≠ .halted →
    (s.resultRing q).out.state = .faulted →
    (∀ r rest, (s.resultRing q).out.access = .record w false → (s.resultRing q).pending = r :: rest →
      ∃ t, exec (.writeFault q) s = .next t ∧
        Serviced ((match r.sender with
          | .slot i => s.setSlot i none
          | .admin => { s with admin := none }).setResultRing q
            { s.resultRing q with
              pending := rest, lost := min 65535 ((s.resultRing q).lost + 1)
              out := { (s.resultRing q).out with access := .idle } }) t) ∧
    ((s.resultRing q).out.access = .progress w false →
      ∃ t, exec (.writeFault q) s = .next t ∧
        Serviced (s.setResultRing q
          { s.resultRing q with out := { (s.resultRing q).out with access := .idle } }) t))

/-- A notice record is written (R153, R182, R188): the head leaves the buffer, written rises by 1, and
the progress word write begins; on a ring that a BAD_TAKE has made FAULTED while the write was in flight
no condition is set (R188, R189), and that no holdoff timer starts is the model's choice (assumption log
31). A write of an ACTIVE notice ring that ends with a bus error makes it
FAULTED with RING_FAULT, one of any other ring is over, and the record stays at the head (R188). A
CLOSE_NOTICE_RING that waits stays current through the record write and ends with the progress word's, or
with a bus error: the ring is CLOSED, and the answer OK carries its written count. On a ring that is
FAULTED or CLOSED meanwhile this is the model's reading of R188 and R204 (assumption log 29). -/
def Obligations.NoticeWritesEnd : Prop :=
  ∀ (s : State) (w : HostWrite) (signals : Bool), s.device ≠ .halted →
    (signals = true ↔ s.notice.state = .active) →
    (s.notice.access = .record w false → ∃ t, exec .noticeRecordWritten s = .next t ∧
      Serviced { s with
        buffer := s.buffer.tail
        notice := { s.notice with
          written := s.notice.written + 1
          timer := if signals = true ∧ (s.notice.written + 1 - s.notice.consumed).toNat = 1 then
            some (s.ms + BitVec.ofNat 32 s.notice.holdoff) else s.notice.timer
          signalled := s.notice.signalled || (signals &&
            decide (s.notice.threshold ≤ (s.notice.written + 1 - s.notice.consumed).toNat))
          access := .progress
            { addr := s.notice.progress
              bytes := le32 ((s.notice.written + 1).setWidth 32) } false } } t) ∧
    (s.notice.state ≠ .active →
      s.notice.access = .record w false ∨ s.notice.access = .progress w false →
      ∃ t, exec .noticeWriteFault s = .next t ∧
        Serviced { s with notice := { s.notice with access := .idle } } t) ∧
    (∀ (code : Byte) (tag : Word), s.admin = some ⟨code, tag, .closingNotice⟩ →
      (s.resultRing 0).out.state = .active →
      (s.notice.access = .record w false → ∃ t, exec .noticeRecordWritten s = .next t ∧
        t.admin = s.admin ∧ t.notice.state = s.notice.state) ∧
      (∀ c, (c = .progressWordWritten .notice ∧ s.notice.access = .progress w false) ∨
          (c = .noticeWriteFault ∧
            (s.notice.access = .record w false ∨ s.notice.access = .progress w false)) →
        ∃ t, exec c s = .next t ∧
          t.notice = { s.notice with state := .closed, timer := none, access := .idle } ∧
          t.admin = some ⟨code, tag, .answered⟩ ∧
          (t.resultRing 0).pending = (s.resultRing 0).pending ++
            [{ sender := .admin, code := code, status := .ok, ring := 0, tag := tag,
               detail := le16 s.notice.written }])) ∧
    (s.notice.state = .active →
      s.notice.access = .record w false ∨ s.notice.access = .progress w false →
      ∃ t, exec .noticeWriteFault s = .next t ∧
        Serviced (createNotice none (.ringFault .notice .writeFault 0)
          { s with notice := { s.notice with
              state := .faulted, timer := none, access := .idle } }) t)

/-! ## The node table and frames -/

/-- What a step that ended NO_REPLY does to an entry (R46), that a step that ended SENT or COLLIDED does
nothing to the table, and what a step that ended GARBLED does (R47). Only a call to a node with reply is
reported (R32). A hearing (R45); the PING data of a reply OK to PING and the ASSIGN update, on an entry
that is not CLASH and on one that is (R49 to R51, R55): the entry that held the identity before is
given, for R50 leaves no second one. The UNASSIGN and UNASSIGN ALL updates (R53, R54). -/
def Obligations.TableFollowsReportsAndUpdates : Prop :=
  ((∀ (l : Line) (a : Addr) (s : State),
    ∃ e, (missStep l a s).entry l a = e ∧ e.garbles = 0 ∧
      { e with state := (s.entry l a).state, misses := (s.entry l a).misses,
               garbles := (s.entry l a).garbles } = s.entry l a ∧
      (∀ b, b ≠ a → (missStep l a s).entry l b = s.entry l b) ∧
      (match (s.entry l a).state with
      | .vacant => e.state = .vacant ∧ e.misses = (s.entry l a).misses ∧
          (missStep l a s).buffer = s.buffer
      | .present => e.misses = min 15 ((s.entry l a).misses + 1) ∧
          (if (s.engine l).config.silence ≤ (s.entry l a).misses + 1 then
            e.state = .silent ∧ (missStep l a s).buffer = (createNotice (some l)
              (.nodeSilent a (s.entry l a).identity e.misses) s).buffer
          else e.state = .present ∧ (missStep l a s).buffer = s.buffer)
      | st => e.state = st ∧ e.misses = min 15 ((s.entry l a).misses + 1) ∧
          (missStep l a s).buffer = s.buffer)) ∧
  (∀ (l : Line) (c : Call) (g : Bool) (s : State),
    reportStep l c g .sent s = s ∧ reportStep l c g .collided s = s)) ∧
  (∀ (l : Line) (a : Addr) (all : Bool) (s : State),
    ∃ e, (garbleStep l a all s).entry l a = e ∧
      { e with state := (s.entry l a).state, garbles := (s.entry l a).garbles } = s.entry l a ∧
      (∀ b, b ≠ a → (garbleStep l a all s).entry l b = s.entry l b) ∧
      e.garbles = (if all = true then min 3 ((s.entry l a).garbles + 1) else 0) ∧
      (if all = true ∧ 3 ≤ (s.entry l a).garbles + 1 then
        e.state = .clash ∧ (garbleStep l a all s).buffer =
          (if (s.entry l a).state = .clash then s.buffer
          else (createNotice (some l)
            (.nodeClash a (s.entry l a).state (s.entry l a).identity) s).buffer)
      else e.state = (s.entry l a).state ∧ (garbleStep l a all s).buffer = s.buffer)) ∧
  (∀ (l : Line) (c : Call) (g : Bool) (o : TryOutcome) (s : State),
    (c.reply = false ∨ (∀ a, c.target ≠ .node a) → reportStep l c g o s = s) ∧
    ∀ a, c.target = .node a → c.reply = true →
      (o = .noReply → reportStep l c g o s = missStep l a s) ∧
      (o = .garbled → reportStep l c g o s = garbleStep l a g s) ∧
      ∀ r, o = .replied r →
        (c.verb ≠ 0 ∨ r.status ≠ .ok ∨ pingData r.data = none ∨ (s.entry l a).state = .clash →
          reportStep l c g o s = hear l a s) ∧
        ∀ u k z former, c.verb = 0 → r.status = .ok → pingData r.data = some (u, k, z) →
          (s.entry l a).state ≠ .clash →
          (∀ b, former = some b ↔ b ≠ a ∧ (s.entry l b).identity = some u) →
          DataTaken l a u k z former
            (if (s.entry l a).state = .silent then some (.nodeBack a (s.entry l a).identity)
              else none) s (reportStep l c g o s)) ∧
  (∀ (l : Line) (a : Addr) (s : State),
    hear l a s =
      (if (s.entry l a).state = .silent then
        createNotice (some l) (.nodeBack a (s.entry l a).identity) else fun n => n)
      (s.setEntry l a
        (if (s.entry l a).state = .clash then { s.entry l a with lastHeard := some s.ms }
        else { s.entry l a with
          state := .present, misses := 0, garbles := 0, lastHeard := some s.ms }))) ∧
  (∀ (l : Line) (w : DiscoverWork) (o : TryOutcome) (s : State),
    (w.phase ≠ .assign ∨ w.candidate = none ∨
        (∀ r, o = .replied r → r.status ≠ .ok ∨ pingData r.data = none) →
      followAssign l w o s = s) ∧
    ∀ r a u k z former, w.phase = .assign → w.candidate = some a → o = .replied r →
      r.status = .ok → pingData r.data = some (u, k, z) →
      ((s.entry l a).state = .clash → followAssign l w o s =
        s.setEntry l a { s.entry l a with lastHeard := some s.ms }) ∧
      ((s.entry l a).state ≠ .clash →
        (∀ b, former = some b ↔ b ≠ a ∧ (s.entry l b).identity = some u) →
        DataTaken l a u k z former (some (.nodeFound a u k)) s (followAssign l w o s))) ∧
  (∀ (l : Line) (w : CallWork) (o : TryOutcome) (s : State) (t : State),
    t = followUnassign l w o s →
    (∀ a, w.verb = 2 → w.target = .node a → (∃ r, o = .replied r ∧ r.status = .ok) →
      t = s.setEntry l a { NodeEntry.initial with lock := (s.entry l a).lock }) ∧
    (w.verb = 2 → w.target = .all → o = .sent →
      { t with nodes := s.nodes } = s ∧ (∀ k, k ≠ l → t.table k = s.table k) ∧
      ∀ a, t.entry l a = if (s.entry l a).lock = none then NodeEntry.initial
        else s.entry l a) ∧
    (w.verb ≠ 2 ∨ (∀ a, w.target = .node a → ∀ r, o = .replied r → r.status ≠ .ok) ∧
        (w.target = .all → o ≠ .sent) → t = s)) ∧
  (∀ (data : List Byte) (u : UnitNo) (k : Byte) (z : ZoneSet),
    pingData data = some (u, k, z) ↔
      u ≠ 0 ∧ ∃ hi : Byte, data = be40 u ++ [k, hi, z.setWidth 8] ∧
        hi.setWidth 4 = (z >>> 8).setWidth 4) ∧
  (∀ (data : List Byte) (u : UnitNo), pickIdentity data = some u ↔ u ≠ 0 ∧ data = be40 u)

/-- The bytes of a call frame (R11, R211), with the check of R8. A frame is a valid reply to a call,
or a valid notice, exactly when it is built from the fields by R10, R12, R13 and R211 with that check,
and it is read back as those fields: the responder of a reply is the node called, 0 for PICK, and for
ASSIGN the address given. -/
def Obligations.FramesReadBackAsTheirFields : Prop :=
  (frameCheck [] = 0xFF ∧
    ∀ (bytes : List Byte) (b : Byte) (shift : Byte → Byte),
      (∀ v, shift v = if v.getLsbD 7 = true then (v <<< 1) ^^^ 0x4D else v <<< 1) →
      frameCheck (bytes ++ [b]) =
        shift (shift (shift (shift (shift (shift (shift (shift (frameCheck bytes ^^^ b))))))))) ∧
  (∀ (c : Call) (body : List Byte),
    body =
      (match c.target with
        | .unaddressed => 0
        | .node a => byteOf (a.val + 1)
        | .zone z => byteOf (0x51 + z.val)
        | .all => 0xFF) ::
      ((if c.reply = true then 0x80 else 0) + c.verb.setWidth 8) :: c.args →
    callFrame c = body ++ [frameCheck body] ∧ checkPasses (callFrame c) = true) ∧
  (∀ (c : Call) (frame : List Byte) (st : ReplyStatus) (pending : Bool) (data : List Byte),
    judgeReply c frame = some { status := st, noticePending := pending, data := data } ↔
    data.length ≤ 8 ∧ ∃ (responder : Byte) (body : List Byte),
      (match c.target with
        | .node a => responder = byteOf (a.val + 1)
        | .unaddressed => (c.verb = 4 ∧ responder = 0) ∨
            (c.verb = 1 ∧ c.args.getLast? = some responder)
        | _ => False) ∧
      body = responder ::
        ((if pending = true then 0x80 else 0) + (match st with
          | .ok => 0 | .busy => 1 | .done => 2 | .refused => 3 | .locked => 4)) :: data ∧
      frame = body ++ [frameCheck body]) ∧
  (∀ (frame : List Byte) (n : NodeNotice),
    judgeNotice frame = some n ↔
    n.arg.length ≤ 3 ∧ ∃ body : List Byte,
      body = byteOf (n.source.val + 1) :: n.kind.setWidth 8 :: n.seq.setWidth 8 :: n.arg ∧
      frame = body ++ [frameCheck body])

/-! ## Judgement and arbitration -/

/-- After the judgement and the decision at an event of a line, no reason of R70 holds a READY slot of
the line back: in particular no node of a READY CALL or PARAM_WRITE is locked by another slot (R75).
That ORDER sees the UNVISITED and ASIDE addresses of a SWEEP before its first grant too is the model's
reading (assumption log 23). -/
def Obligations.ReadySlotsHaveNoReason : Prop :=
  ∀ (l : Line) (s : State) (i : SlotId) (x : Slot), (settleLine l s).slot i = some x →
    x.line = l → x.state = .ready →
    earlyReason (settleLine l s) i x = none ∧ lateReason (settleLine l s) i x = none

/-- The arbiter grants to the READY slot of the line that comes first (R35): started slots, then the
classes, and the oldest fetch sequence among equals. Fetch sequences lie within half their range, as
24 slots and a counter keep them (R66). -/
def Obligations.ArbiterGrantsToTheFirstSlot : Prop :=
  ∀ (l : Line) (s : State) (base : Word) (rank : Slot → Nat),
    (∀ i x, s.slot i = some x → (x.seq - base).toNat < 2 ^ 31) →
    (∀ x, rank x = if x.started = true then 0
      else match x.cls with | .urgent => 1 | .normal => 2 | .bulk => 3) →
    (chooseSlot s l = none ↔ ∀ i x, s.slot i = some x → x.line = l → x.state ≠ .ready) ∧
    (∀ i x, chooseSlot s l = some (i, x) →
      s.slot i = some x ∧ x.state = .ready ∧ x.line = l ∧
      ∀ j y, s.slot j = some y → y.line = l → y.state = .ready →
        rank x < rank y ∨ (rank x = rank y ∧ (x.seq - base).toNat ≤ (y.seq - base).toNat))

/-! ## Laws that every step keeps -/

/-- The notice buffer holds at most 16 records, and each reflex queue at most 4 calls (R151, R163). -/
def Obligations.EveryStepKeepsTheBufferLaw : Prop :=
  ∀ s t : State, BufferLaw s → step s = .next t → BufferLaw t

/-- Posted − fetched of every work ring stays between 0 and its size, and no record is fetched that
was not posted (R65, R177, R179). -/
def Obligations.EveryStepKeepsTheWorkCountLaw : Prop :=
  ∀ s t : State, WorkCountLaw s → step s = .next t → WorkCountLaw t

/-- Written − consumed of every written ring stays between 0 and its size, and no entry is written
that the host has not consumed (R183). -/
def Obligations.EveryStepKeepsTheOutCountLaw : Prop :=
  ∀ s t : State, OutCountLaw s → step s = .next t → OutCountLaw t

/-- No work ring holds more slots than its credit, and a CLOSED one holds none (R65, R180). -/
def Obligations.EveryStepKeepsTheCreditLaw : Prop :=
  ∀ s t : State, CreditLaw s → step s = .next t → CreditLaw t

/-- On each line an identity stands in at most one entry (R50). -/
def Obligations.EveryStepKeepsTheIdentityLaw : Prop :=
  ∀ s t : State, IdentityLaw s → step s = .next t → IdentityLaw t

/-- The laws hold after reset. -/
def Obligations.ResetMeetsTheLaws : Prop :=
  BufferLaw State.reset ∧ WorkCountLaw State.reset ∧ OutCountLaw State.reset ∧
    CreditLaw State.reset ∧ IdentityLaw State.reset
end

