-- ==== Sys2Proof/Tests/Slice0.lean ====
section
/-! SUPPORT. Tests: what WellFormed refuses, the bytes and digests the manual's examples give, small
steps of one command, and a witness for the hypotheses of each obligation. -/

namespace Sys2Proof.Tests

set_option Elab.async false

open Sys2Proof.Machine Sys2Proof.Safety

/-! ## Small states -/

/-- A record with bytes at places, zero elsewhere. -/
def record (fields : List (Nat × Nat)) : Record :=
  Vector.ofFn fun i => byteOf (((fields.find? fun p => p.1 == i.val).map fun p => p.2).getD 0)

/-- The state after a command, or the state itself where it has no next state. -/
def after (c : Instr) (s : State) : State :=
  match exec c s with
  | .next t => t
  | .fault f => nomatch f
  | .refused _ => s

/-- An ACTIVE written ring of 8 entries. -/
def outRing : OutputRing := { OutputRing.reset with state := .active, size := 8 }

/-- An ACTIVE work ring of 8 entries on line A, bound to result ring 1. -/
def ring1 : WorkRing :=
  { WorkRing.reset with state := .active, size := 8, bound := 1, credit := 8 }

/-- A result ring that a BAD_TAKE has made FAULTED, with an access still in flight or without one. -/
def faultedRing (access : RingAccess) : ResultRing :=
  { ResultRing.reset with out := { outRing with state := .faulted, access := access } }

/-- A line in IDLE that has been high for one gap. -/
def idleLine : LineEngine := { LineEngine.reset with state := .idle, quiet := true }

/-- The part in RUNNING: work rings 0 and 1, result rings 0 and 1 and the notice ring are open, and
both lines are IDLE. -/
def up : State :=
  { ((State.reset.setWorkRing 0 { ring1 with bound := 0 }).setWorkRing 1 ring1 |>.setResultRing 0
      { ResultRing.reset with out := outRing }).setResultRing 1
      { ResultRing.reset with out := outRing } with
    device := .running, notice := outRing, lines := ⟨idleLine, idleLine⟩ }

/-- The part in RUNNING with the admin unit's fetch in flight. -/
def asked : State :=
  { up.setWorkRing 0 { ring1 with bound := 0, posted := 1 } with adminFetch := some 0 }

/-- A CALL of verb 20 to node 3 with reply, in a READY slot of ring 1. -/
def callWork : CallWork :=
  { target := .node 2, verb := 20, reply := true, args := [1], busyLimit := 2, busyRounds := 0,
    lastReply := none, allGarbled := false, noticePending := false, data := [] }

/-- A slot of ring 1. -/
def slotOf (w : Work) : Slot :=
  { state := .ready, ring := 1, tag := 7, code := 1, line := .a, cls := .normal, seq := 0,
    fetchTime := 0, force := false, retry := none, work := w, tries := 0, started := false,
    abortPending := false, deferAt := none, expireAt := none, budgetAt := none, pollAt := none,
    result := none }

/-- The step of the CALL with some tries begun. -/
def callStep (tries : Nat) : Machine.Step :=
  { call := { target := .node 2, verb := 20, reply := true, args := [1] }, retryLimit := 2,
    tries := tries, allGarbled := true }

/-- The CALL's slot holds line A in a line state, with some tries begun. -/
def onLine (st : LineState) (tries : Nat) : State :=
  (up.setSlot 0 (some { slotOf (.call callWork) with state := .onLine, started := true })).setEngine
    .a { idleLine with state := st, holder := .slot 0, step := some (callStep tries), quiet := false }

/-- The admin unit may answer a record. -/
theorem ready_of (s : State)
    (h : (s.adminFetch.isSome && s.device != .halted && (s.resultRing 0).out.state == .active)
      = true) : AdminReady s := by
  simp only [Bool.and_eq_true, bne_iff_ne, ne_eq, beq_iff_eq] at h
  exact ⟨h.1.1, h.1.2, h.2⟩

/-- The admin unit may answer a record in each of these states. -/
theorem readyAll_of (ss : List State)
    (h : (ss.all fun s =>
      s.adminFetch.isSome && s.device != .halted && (s.resultRing 0).out.state == .active) = true) :
    ∀ s ∈ ss, AdminReady s :=
  fun s hs => ready_of s (List.all_eq_true.mp h s hs)

/-- A command ends the step of a slot that holds the line. -/
theorem stepEnds_of (l : Line) (s : State) (st : Machine.Step) (i : SlotId) (x : Slot) (c : Instr)
    (o : TryOutcome) (ends : TryEnds l s st c o)
    (last : o = .noReply ∨ o = .garbled ∨ o = .collided → st.retryLimit < st.tries)
    (h : (s.device != .halted && (s.engine l).step == some st && (s.engine l).holder == .slot i &&
      s.slot i == some x && x.line == l && noWaiting s l) = true) :
    StepEnds l s st i x c o := by
  simp only [Bool.and_eq_true, bne_iff_ne, ne_eq, beq_iff_eq] at h
  obtain ⟨⟨⟨⟨⟨h1, h2⟩, h3⟩, h4⟩, h5⟩, h6⟩ := h
  exact ⟨h1, h2, h3, h4, h5, h6, ends, last⟩

/-! ## WellFormed

One ill-formed command for each check. -/

theorem test_wellFormed_refuses_a_plain_write_of_ctrl :
    (Instr.registerWrite 0x04 1).wellFormed = false := by decide +kernel

theorem test_wellFormed_refuses_work_records_of_another_code :
    [Instr.call (record [(0, 2)]), .sweep (record [(0, 1)]), .paramWrite (record [(0, 1)]),
      .discover (record [(0, 1)]), .unknownWorkKind (record [(0, 4)])].any Instr.wellFormed
      = false := by decide +kernel

theorem test_wellFormed_refuses_admin_records_of_another_code :
    [Instr.openWorkRing (record []), .closeWorkRing (record []), .openResultRing (record []),
      .closeResultRing (record []), .openNoticeRing (record []), .closeNoticeRing (record []),
      .lineSet (record []), .lineEnable (record []), .lineDisable (record []),
      .lineReset (record []), .reflexPut (record []), .reflexDrop (record []),
      .reflexRead (record []), .nodeRead (record []), .nodeClear (record []), .abort (record []),
      .unknownAdminRequest (record [(0, 0x4F)])].any Instr.wellFormed = false := by decide +kernel

theorem test_wellFormed_refuses_frames_of_no_length :
    [Instr.replyFrameEnd .a [], .replyFrameEnd .a (List.replicate 12 0), .noticeFrameEnd .a [],
      .noticeFrameEnd .a (List.replicate 8 0)].any Instr.wellFormed = false := by decide +kernel

theorem test_wellFormed_takes_records_of_their_code :
    [Instr.call (record [(0, 1)]), .unknownWorkKind (record []), .abort (record [(0, 0x4F)]),
      .unknownAdminRequest (record []), .registerWrite 0x0C 0,
      .replyFrameEnd .a (List.replicate 11 0), .noticeFrameEnd .b [0]].all Instr.wellFormed
      = true := by decide +kernel

/-! ## Bytes

The values are the manual's: the note of R8, the example of section 12.1, the example of section
1.4, and the codes of section 12.2. -/

theorem test_check_of_a_zero_byte : frameCheck [0x00] = 0xA8 := by decide +kernel

theorem test_ping_to_node_17 : callFrame (pingCall 16) = [0x11, 0x80, 0xC9] := by decide +kernel

theorem test_commit_digest : commitDigest 7 6 [0x10, 0x20, 0xFF, 0x01, 0x02, 0x03] = 0x037A := by
  decide +kernel

theorem test_broken_check_is_garbled : judgeReply (pingCall 16) [0x11, 0x00, 0xC9] = none := by
  decide +kernel

theorem test_result_record_bytes :
    resultBytes { sender := .slot 3, code := 1, status := .noReply, ring := 2, tag := 0x04030201,
                  detail := [3, 0, 0xFF, 0, 0] }
      = [1, 4, 2, 0, 1, 2, 3, 4, 3, 0, 0xFF] ++ List.replicate 21 0 := by decide +kernel

/-! ## Counts: the worked sequence of section 10.6 -/

theorem test_post_across_the_wrap :
    { ring1 with posted := 65532, fetched := 65532 }.goodPost 1 = true := by decide +kernel

theorem test_post_behind_is_bad :
    { ring1 with posted := 1, fetched := 1 }.goodPost 65535 = false := by decide +kernel

theorem test_take_too_early_is_bad :
    { outRing with written := 2, consumed := 65532 }.goodTake 3 = false := by decide +kernel

theorem test_take_of_everything_stops_the_timer :
    ({ outRing with written := 4, consumed := 65532, timer := some 9 }.taken 4).timer = none := by
  decide +kernel

/-! ## Single steps -/

theorem test_power_on_reset : (after .powerOnReset up).device = .reset := by decide +kernel

theorem test_host_reset_keeps_no_enable :
    (after (.hostReset true false true) { up with intEnable := true }).intEnable = false := by
  decide +kernel

theorem test_start_reads_the_boot_block :
    (after (.start false) { State.reset with boot := 0x4000 }).bootRead = some 0x4000 := by
  decide +kernel

theorem test_start_at_a_misaligned_block_halts :
    (after (.start false) { State.reset with boot := 0x4010 }).halt = .bootInvalid := by
  decide +kernel

theorem test_stop_aborts_an_unstarted_call :
    ((after (.stop false) (up.setSlot 0 (some (slotOf (.call callWork))))).resultRing 1).pending
      = [{ sender := .slot 0, code := 1, status := .aborted, ring := 1, tag := 7, detail := [] }] := by
  decide +kernel

theorem test_interrupt_enable : (after (.interruptEnable true true) up).intEnable = true := by
  decide +kernel

theorem test_boot_write : (after (.registerWrite 0x0C 0x80) up).boot = 0x80 := by decide +kernel

theorem test_write_under_the_reset_pin_is_not_taken :
    (after (.registerWrite 0x0C 0x80) { up with resetPinLow := true }).boot = 0 := by decide +kernel

theorem test_good_post_asks_for_a_fetch :
    (after (.post 0x00010001) up).workFetch
      = some { ring := 1, slot := 0, addr := 0, stopped := false } := by decide +kernel

theorem test_bad_post_faults_the_ring :
    ((after (.post 0x00010009) up).workRing 1).state = .faulted := by decide +kernel

theorem test_bad_take_of_result_ring_0_halts :
    (after (.take 0x00000001) up).halt = .result0Fault := by decide +kernel

theorem test_bad_take_of_result_ring_0_loses_the_result_in_flight :
    ((after (.take 0x00000001) (up.setResultRing 0
      { ResultRing.reset with
        out := { outRing with access := .record ⟨0, []⟩ false }
        pending := [{ sender := .admin, code := 0x40, status := .ok, ring := 0, tag := 7,
                      detail := [] }] })).resultRing 0).lost = 1 := by decide +kernel

theorem test_signal_acknowledges :
    (after (.signal 0x20) { up with deviceEvent := true }).deviceEvent = false := by decide +kernel

theorem test_boot_block_opens_the_rings :
    (after (.bootBlockRead (record [(4, 8), (12, 8), (14, 1)]))
      { State.reset with device := .starting, bootRead := some 0 }).device = .running := by
  decide +kernel

theorem test_boot_fault_halts :
    (after .bootFault { State.reset with device := .starting, bootRead := some 0 }).halt
      = .bootFault := by decide +kernel

/-- A CALL record to node 3 with verb 20 and reply. -/
def callRecord : Record := record [(0, 1), (2, 0xFF), (12, 0), (13, 3), (14, 20), (15, 1)]

/-- The fetch of work ring 1 is in flight for slot 0. -/
def fetching : State :=
  { up.setWorkRing 1 { ring1 with posted := 1 } with
    workFetch := some { ring := 1, slot := 0, addr := 0, stopped := false } }

theorem test_call_is_sent_on_a_free_line :
    ((after (.call callRecord) fetching).engine .a).state = .calling := by decide +kernel

theorem test_call_to_a_clash_entry_is_refused :
    (((after (.call callRecord)
      (fetching.setEntry .a 2 { NodeEntry.initial with state := .clash })).slot 0).bind
        fun x => x.result).map (fun r => r.status) = some .nodeClash := by decide +kernel

theorem test_sweep_of_an_empty_table_ends_ok :
    ((after (.sweep (record [(0, 2), (2, 0xFF)])) fetching).slot 0).map (fun x => x.state)
      = some .finishing := by decide +kernel

theorem test_unstarted_sweep_is_aborted_without_counts :
    slotDetail up .aborted (slotOf (.sweep { all := true, marks := [(4, .busy)], step := some 6 }))
      = [] := by decide +kernel

theorem test_address_counted_busy_leaves_the_target_set :
    [Mark.unvisited, .aside, .pinged, .busy].map (fun k =>
      inSlotTarget up (slotOf (.sweep { all := true, marks := [(4, k)], step := some 6 })) 4)
      = [true, true, false, false] := by decide +kernel

theorem test_param_write_takes_the_lock :
    ((after (.paramWrite (record [(0, 3), (2, 0xFF), (12, 3), (13, 7), (14, 1), (15, 1)]))
      fetching).entry .a 2).lock = some 0 := by decide +kernel

theorem test_aborted_fill_is_lost_on_a_faulted_ring :
    let t := after (.paramWrite (record [(0, 3), (2, 0xFF), (12, 3), (13, 7), (14, 1), (15, 1)]))
      { fetching.setResultRing 1 (faultedRing .idle) with device := .stopping }
    ((t.slot 0).isNone, (t.resultRing 1).lost) = (true, 1) := by decide +kernel

theorem test_discover_waits_for_the_line :
    (((after (.discover (record [(0, 4), (2, 0xFF), (12, 8), (13, 1), (14, 1), (15, 2)]))
      (fetching.setEngine .a { idleLine with state := .down })).slot 0).map fun x => x.state)
      = some (.waiting .line) := by decide +kernel

theorem test_unknown_work_kind_ends_bad_record :
    (((after (.unknownWorkKind (record [(0, 9)])) fetching).slot 0).bind fun x => x.result).map
      (fun r => r.status) = some .badRecord := by decide +kernel

theorem test_fetch_fault_faults_the_ring :
    ((after (.fetchFault .slotTable) fetching).workRing 1).state = .faulted := by decide +kernel

theorem test_open_work_ring_on_a_down_line_is_held :
    ((after (.openWorkRing (record [(0, 0x40), (12, 2), (13, 1), (15, 1), (16, 1), (18, 8)]))
      (asked.setEngine .b { idleLine with state := .down })).workRing 2).state = .held := by
  decide +kernel

theorem test_close_of_an_empty_work_ring :
    ((after (.closeWorkRing (record [(0, 0x41), (12, 1)])) asked).workRing 1).state = .closed := by
  decide +kernel

theorem test_open_result_ring_2 :
    ((after (.openResultRing (record [(0, 0x42), (12, 2), (13, 1), (18, 8)])) asked).resultRing
      2).out.state = .active := by decide +kernel

theorem test_close_of_a_bound_result_ring_is_refused :
    ((after (.closeResultRing (record [(0, 0x43), (12, 1)])) asked).resultRing 0).pending.map
      (fun r => r.status) = [.bound] := by decide +kernel

theorem test_open_of_the_open_notice_ring_is_refused :
    ((after (.openNoticeRing (record [(0, 0x44), (13, 1), (18, 8)])) asked).resultRing 0).pending.map
      (fun r => r.status) = [.badState] := by decide +kernel

theorem test_close_notice_ring :
    (after (.closeNoticeRing (record [(0, 0x45)])) asked).notice.state = .closed := by decide +kernel

/-- A LINE_SET of line A with the reset values, but a retry limit of 5. -/
def lineSetRecord : Record :=
  record [(0, 0x46), (14, 5), (15, 3), (16, 250), (18, 5), (20, 100), (22, 200)]

theorem test_line_set : ((after (.lineSet lineSetRecord) asked).engine .a).config.retryLimit = 5 := by
  decide +kernel

theorem test_lower_threshold_makes_nodes_silent :
    let e (st : NodeState) (n : Nat) := { NodeEntry.initial with state := st, misses := n }
    let t := after (.lineSet (record [(0, 0x46), (14, 5), (15, 2), (16, 250), (18, 5), (20, 100)]))
      (((asked.setEntry .a 5 (e .present 2)).setEntry .a 2 (e .present 2)).setEntry .a 4
        (e .silent 1))
    ([2, 4, 5].map fun a => (t.entry .a a).state, t.buffer.map fun n => n.body)
      = ([.silent, .present, .silent], [.nodeSilent 2 none 2, .nodeSilent 5 none 2]) := by
  decide +kernel

theorem test_line_enable :
    ((after (.lineEnable (record [(0, 0x47)])) (asked.setEngine .a LineEngine.reset)).engine
      .a).debounce = some 500 := by decide +kernel

theorem test_line_disable :
    ((after (.lineDisable (record [(0, 0x48)])) asked).engine .a).state = .off := by decide +kernel

theorem test_line_reset_forgets :
    (after (.lineReset (record [(0, 0x49), (13, 1)]))
      (asked.setEntry .a 2 { NodeEntry.initial with state := .present })).entry .a 2
      = NodeEntry.initial := by decide +kernel

theorem test_reflex_put :
    ((after (.reflexPut (record [(0, 0x4A), (12, 31), (19, 2), (21, 16)])) asked).reflex 31).armed
      = true := by decide +kernel

theorem test_reflex_drop :
    ((after (.reflexDrop (record [(0, 0x4B)]))
      (asked.setReflex 0 { ReflexEntry.empty with armed := true })).reflex 0).armed = false := by
  decide +kernel

theorem test_reflex_read_writes_the_image :
    ((after (.reflexRead (record [(0, 0x4C), (21, 1)])) asked).imageWrite).map (fun w => w.addr)
      = some 0x100 := by decide +kernel

theorem test_node_read_image_of_a_present_entry :
    ((after (.nodeRead (record [(0, 0x4D), (13, 3), (14, 1)]))
      (asked.setEntry .a 2 { NodeEntry.initial with state := .present, misses := 2 })).imageWrite).map
      (fun w => w.bytes.take 4) = some [3, 0, 1, 0] := by decide +kernel

theorem test_node_clear_of_a_locked_entry_is_refused :
    ((after (.nodeClear (record [(0, 0x4E), (13, 3)]))
      (asked.setEntry .a 2 { NodeEntry.initial with lock := some 4 })).resultRing 0).pending.map
      (fun r => r.status) = [.badState] := by decide +kernel

theorem test_abort_of_no_slot :
    ((after (.abort (record [(0, 0x4F), (12, 1), (16, 7)])) asked).resultRing 0).pending.map
      (fun r => r.status) = [.notFound] := by decide +kernel

theorem test_unknown_request :
    ((after (.unknownAdminRequest (record [(0, 0x50), (4, 9)])) asked).resultRing 0).pending
      = [{ sender := .admin, code := 0x50, status := .badRecord, ring := 0, tag := 9,
           detail := [] }] := by decide +kernel

theorem test_low_timer_takes_the_line_down :
    ((after (.lowTimerExpiry .a) (up.setEngine .a
      { idleLine with sense := false, lowTimer := 50 })).engine .a).state = .down := by
  decide +kernel

theorem test_sense_rise_starts_the_debounce :
    ((after (.senseRise .a) (up.setEngine .a { idleLine with state := .down, sense := false })).engine
      .a).state = .restoring := by decide +kernel

theorem test_sense_fall_stops_the_debounce :
    ((after (.senseFall .a) (up.setEngine .a
      { idleLine with state := .restoring, debounce := some 9 })).engine .a).debounce = none := by
  decide +kernel

theorem test_debounce_brings_the_line_up :
    ((after (.debounceExpiry .a) (up.setEngine .a
      { idleLine with state := .restoring, debounce := some 0 })).engine .a).settle = some 200 := by
  decide +kernel

theorem test_settle_expiry :
    ((after (.settleExpiry .a) (up.setEngine .a { idleLine with settle := some 0 })).engine .a).settle
      = none := by decide +kernel

theorem test_listen_interval_begins_a_window :
    ((after (.listenIntervalExpiry .a) (up.setEngine .a
      { idleLine with listenTimer := some 0 })).engine .a).frame = callFrame listenCall := by
  decide +kernel

theorem test_gap_begins_the_next_try :
    ((after (.gapComplete .a) ((onLine .idle 1).setEngine .a
      { (onLine .idle 1).engine .a with next := .gap })).engine .a).state = .calling := by
  decide +kernel

theorem test_backoff_begins_the_next_try :
    ((after (.backoffExpiry .a) ((onLine .idle 1).setEngine .a
      { (onLine .idle 1).engine .a with next := .backoff 3 })).engine .a).state = .calling := by
  decide +kernel

theorem test_sent_frame_opens_the_reply_window :
    ((after (.frameSent .a) (onLine .calling 1)).engine .a).state = .awaiting := by decide +kernel

theorem test_third_collision_ends_the_call :
    (((after (.collisionDetected .a) (onLine .calling 3)).slot 0).bind fun x => x.result).map
      (fun r => r.status) = some .collided := by decide +kernel

/-- The reply OK of node 3, without data. -/
def okReply : List Byte := [3, 0, frameCheck [3, 0]]

theorem test_reply_ends_the_call_ok :
    (((after (.replyFrameEnd .a okReply) (onLine .receiving 2)).slot 0).bind fun x => x.result).map
      (fun r => (r.status, r.detail.take 5)) = some (.ok, [2, 0, 0, 0, 0]) := by decide +kernel

theorem test_quiet_window_is_followed_by_the_next_try :
    ((after (.replyWindowTimeout .a) ((onLine .awaiting 1).setEngine .a
      { (onLine .awaiting 1).engine .a with quiet := true })).engine .a).state = .calling := by
  decide +kernel

theorem test_garbled_reception_waits_for_the_gap :
    ((after (.garbledReception .a) (onLine .receiving 1)).engine .a).next = .gap := by decide +kernel

/-- A listen window is open on line A, with or without a start. -/
def listening (started : Bool) (window : Nat) : State :=
  up.setEngine .a { idleLine with
    state := .listening, holder := .series, quiet := false, frameStarted := started
    step := some { call := listenCall, retryLimit := 0, tries := 1, allGarbled := true }
    series := some { window := window, last := none, ack := none, stopping := false } }

/-- The notice of node 3: kind 5, sequence 9, no argument. -/
def noticeFrame : List Byte := [3, 5, 9, frameCheck [3, 5, 9]]

theorem test_notice_is_delivered :
    (after (.noticeFrameEnd .a noticeFrame) (listening true 1)).buffer.map (fun n => n.body)
      = [.nodeNotice { source := 2, kind := 5, seq := 9, arg := [] }] := by decide +kernel

theorem test_empty_window_ends_the_series :
    ((after (.listenWindowEmpty .a) (listening false 2)).engine .a).listenTimer = some 250 := by
  decide +kernel

theorem test_defer_expiry_sends_the_call :
    ((after (.deferExpiry 0) (up.setSlot 0 (some { slotOf (.call callWork) with
      state := .waiting .defer, deferAt := some 0 }))).engine .a).state = .calling := by
  decide +kernel

theorem test_expiry_of_an_unstarted_call :
    (((after (.expireDeadlineExpiry 0) (up.setSlot 0 (some { slotOf (.call callWork) with
      expireAt := some 0 }))).slot 0).bind fun x => x.result).map (fun r => r.status)
      = some .expired := by decide +kernel

theorem test_poll_deadline_sends_the_call_again :
    ((after (.pollDeadlineExpiry 0) (up.setSlot 0 (some { slotOf (.call callWork) with
      state := .paused, started := true, pollAt := some 0 }))).engine .a).state = .calling := by
  decide +kernel

/-- A PARAM_WRITE to node 3, in a phase. -/
def paramWork (p : Phase) : ParamWork :=
  { addr := 2, index := 7, length := 1, data := [5], budget := 0, attempts := 1, digest := 13,
    phase := some p, attempt := 1, unverified := false, finalFlag := false, polls := 0,
    lastReply := none, readback := none, firstGrant := some 0, preludeUsed := false,
    preludeBusy := false, accepted := false, verified := false, mismatch := false,
    budgetPassed := false, outcome := .none, replyData := [] }

/-- A started PARAM_WRITE in a state and phase, its budget at the count's value. -/
def committing (st : SlotState) (p : Phase) : State :=
  up.setSlot 0 (some { slotOf (.param (paramWork p)) with
    state := st, started := true, budgetAt := some 0 })

theorem test_budget_turns_a_poll_into_the_final_check :
    (((after (.budgetExpiry 0) (committing .paused .poll)).slot 0).map fun x => x.inFinal)
      = some true := by decide +kernel

theorem test_quiet_until_expiry :
    ((after (.quietUntilExpiry 0) (up.setReflex 0
      { ReflexEntry.empty with quietUntil := some 0 })).reflex 0).quietUntil = none := by
  decide +kernel

theorem test_holdoff_expiry_signals :
    (after (.holdoffTimerExpiry .notice)
      { up with ms := 1, notice := { outRing with written := 1, timer := some 0 } }).notice.signalled
      = true := by decide +kernel

theorem test_holdoff_of_0_waits_for_the_next_millisecond :
    (after (.holdoffTimerExpiry .notice)
      { up with notice := { outRing with written := 1, timer := some 0 } }).notice.timer
      = some 0 := by decide +kernel

/-- The result of slot 0 is being written to result ring 1. -/
def writing : State :=
  (up.setSlot 0 (some { slotOf (.call callWork) with state := .finishing })).setResultRing 1
    { ResultRing.reset with
      out := { outRing with access := .record ⟨0, []⟩ false }
      pending := [{ sender := .slot 0, code := 1, status := .ok, ring := 1, tag := 7,
                    detail := [] }] }

theorem test_written_result_frees_its_slot : (after (.resultRecordWritten 1) writing).slot 0 = none := by
  decide +kernel

theorem test_progress_word_ends_the_write :
    (after (.progressWordWritten .notice)
      { up with notice := { outRing with access := .progress ⟨0, []⟩ false } }).notice.access
      = .idle := by decide +kernel

theorem test_write_fault_counts_the_result_lost :
    ((after (.writeFault 1) writing).resultRing 1).lost = 1 := by decide +kernel

/-- A notice record is being written. -/
def noticeWriting : State :=
  { up with
    buffer := [{ body := .lineUp .off, line := some .a, stamp := 0, lost := 0 }]
    notice := { outRing with access := .record ⟨0, []⟩ false } }

theorem test_written_notice_leaves_the_buffer : (after .noticeRecordWritten noticeWriting).buffer = [] := by
  decide +kernel

theorem test_notice_write_fault_keeps_the_record :
    (after .noticeWriteFault noticeWriting).buffer.length = 2 := by decide +kernel

/-- A notice record is being written, and a CLOSE_NOTICE_RING waits for it. -/
def noticeClosing : State := { noticeWriting with admin := some ⟨0x45, 9, .closingNotice⟩ }

/-- The state of the ring, whether the close has been answered, and with which detail. -/
def closeSeen (s : State) : OutState × Bool × List (List Byte) :=
  (s.notice.state, !s.adminWaits .closingNotice, (s.resultRing 0).pending.map fun r => r.detail)

theorem test_bad_take_leaves_a_close_current_until_the_write_ends :
    let s := after (.take 0x00080001) noticeClosing
    [s, after .noticeRecordWritten s,
        after (.progressWordWritten .notice) (after .noticeRecordWritten s),
        after .noticeWriteFault s].map closeSeen
      = [(.faulted, false, []), (.faulted, false, []), (.closed, true, [[1, 0]]),
        (.closed, true, [[0, 0]])] := by decide +kernel

theorem test_close_of_a_faulted_notice_ring_waits_for_its_write :
    let s := after (.closeNoticeRing (record [(0, 0x45)])) { asked with
      notice := { outRing with state := .faulted, access := .record ⟨0, []⟩ false } }
    [s, after .noticeWriteFault s].map closeSeen
      = [(.closed, false, []), (.closed, true, [[0, 0]])] := by decide +kernel

/-- The current request waits for an image write. -/
def imaging (p : AdminPhase) : State :=
  { up with admin := some ⟨0x4D, 9, p⟩, imageWrite := some ⟨0, []⟩ }

theorem test_next_image_of_a_node_read :
    ((after .nodeReadImageWritten (imaging (.readingNodes .a 2 2 0 0x100))).imageWrite).map
      (fun w => (w.addr, w.bytes.take 1)) = some (0x120, [4]) := by decide +kernel

theorem test_node_read_fault_reports_the_number_written :
    ((after .nodeReadWriteFault (imaging (.readingNodes .a 2 2 1 0x100))).resultRing 0).pending.map
      (fun r => (r.status, r.detail)) = [(.hostFault, [1])] := by decide +kernel

theorem test_reflex_read_ends_ok :
    ((after .reflexReadImageWritten (imaging .readingReflex)).resultRing 0).pending.map
      (fun r => r.status) = [.ok] := by decide +kernel

theorem test_reflex_read_fault :
    ((after .reflexReadWriteFault (imaging .readingReflex)).resultRing 0).pending.map
      (fun r => r.status) = [.hostFault] := by decide +kernel

theorem test_frame_start_in_the_reply_window :
    ((after (.frameStart .a) (onLine .awaiting 1)).engine .a).state = .receiving := by decide +kernel

theorem test_rx_low_restarts_the_gap : ((after (.rxLow .a) up).engine .a).quiet = false := by
  decide +kernel

theorem test_idle_step_counts_a_millisecond :
    (match step up with
     | .next t => t.ms
     | .fault f => nomatch f
     | .refused _ => 0) = 1 := by decide +kernel

/-! ## Witnesses

For each obligation with hypotheses, a state and operands that meet those of each of its clauses
together. -/

theorem witness_ResetsGiveTheInitialValues : up.resetPinLow = false := by decide +kernel

theorem witness_IdleStepIsAMillisecond :
    up.pending = [] ∧ up.device ≠ .reset ∧ up.device ≠ .halted ∧
      State.reset.pending = [] ∧ State.reset.device = .reset := by decide +kernel

theorem witness_ControlWritesStartOrAreIgnored :
    (up.resetPinLow = false ∧ up.device ≠ .reset ∧ up.device ≠ .stopped) ∧
      (State.reset.resetPinLow = false ∧ State.reset.device ≠ .running) ∧
      (State.reset.device = .reset ∧ State.reset.boot.toNat % 32 = 0) ∧
      { State.reset with boot := 0x1F }.boot.toNat % 32 ≠ 0 := by decide +kernel

theorem witness_StartInStoppedReturnsToRunning :
    { up with device := .stopped }.resetPinLow = false ∧
      { up with device := .stopped }.device = .stopped := by decide +kernel

/-- A started SWEEP waits in slot 1, and an unstarted CALL in slot 0. -/
def waiting : State :=
  (up.setSlot 0 (some (slotOf (.call callWork)))).setSlot 1
    (some { slotOf (.sweep { all := true, marks := [], step := none }) with started := true })

theorem witness_StopAbortsAndEmptiesTheQueues :
    waiting.resetPinLow = false ∧ waiting.device = .running ∧ (waiting.engine .a).holder ≠ .reflex ∧
      (waiting.slot 0).map (fun x => (x.state, x.started)) = some (.ready, false) ∧
      (waiting.slot 1).map (fun x => (x.state, x.started)) = some (.ready, true) ∧
      ((after (.stop false) waiting).slot 1).map (fun x => x.state) = some .finishing ∧
      (noWaiting waiting .a = true ∧ (waiting.engine .a).series = none) := by
  decide +kernel

theorem witness_PlainWritesReachBootAlone :
    up.resetPinLow = false ∧ (Instr.registerWrite 0x0C 5).wellFormed = true ∧
      (Instr.registerWrite 0x1C 5).wellFormed = true ∧
      { up with resetPinLow := true }.resetPinLow = true := by decide +kernel

theorem witness_ReadsAndInterruptFollowTheState :
    { up with deviceEvent := true, intEnable := true }.intAsserted = true ∧
      up.resetPinLow = false ∧ (0x10 : Word) ∉ [0x00, 0x04, 0x08, 0x0C, 0x18] := by decide +kernel

theorem test_read_of_stat_names_state_and_reason :
    { up with device := .halted, halt := .result0Fault }.readRegister 0x08 = 0x405 := by
  decide +kernel

/-- A part in HALTED. -/
def halted : State := { up with device := .halted }

theorem witness_PostsAreJudgedByTheirRing :
    (up.resetPinLow = false ∧ up.device ≠ .halted ∧ (ringField 0x00010008).toNat = (1 : WorkRingId).val ∧
        (up.workRing 1).state = .active ∧
        (countField 0x00010008 - (up.workRing 1).fetched).toNat ≤ (up.workRing 1).size ∧
        ((up.workRing 1).posted - (up.workRing 1).fetched).toNat
          ≤ (countField 0x00010008 - (up.workRing 1).fetched).toNat) ∧
      ¬(countField 0x00010009 - (up.workRing 1).fetched).toNat ≤ (up.workRing 1).size ∧
      ((ringField 0x00000009).toNat = (0 : WorkRingId).val ∧ (up.workRing 0).state = .active ∧
        ¬(countField 0x00000009 - (up.workRing 0).fetched).toNat ≤ (up.workRing 0).size) ∧
      halted.device = .halted ∧ 8 ≤ (ringField 0x00080000).toNat ∧
      ((ringField 0x00070000).toNat = (7 : WorkRingId).val ∧ (up.workRing 7).state = .closed) ∧
      ((up.setWorkRing 1 { ring1 with state := .draining }).workRing 1).state = .draining ∧
      ((up.setWorkRing 1 { ring1 with state := .faulted }).workRing 1).state = .faulted ∧
      ((up.setWorkRing 1 { ring1 with state := .held }).workRing 1).state = .held := by
  decide +kernel

/-- Result ring 1 and the notice ring hold 2 entries. -/
def filled : State :=
  { up.setResultRing 1 { ResultRing.reset with out := { outRing with written := 2 } } with
    notice := { outRing with written := 2 } }

theorem witness_GoodTakeMovesConsumed :
    halted.resetPinLow = false ∧ filled.resetPinLow = false ∧ halted.device = .halted ∧
      (4 ≤ (ringField 0x00040000).toNat ∧ (ringField 0x00040000).toNat ≠ 8) ∧
      (4 ≤ (ringField 0x00090000).toNat ∧ (ringField 0x00090000).toNat ≠ 8) ∧
      (filled.device ≠ .halted ∧ (ringField 0x00030000).toNat = (3 : ResultRingId).val ∧
        (filled.outRing (.result 3)).state ≠ .active) ∧
      ((ringField 0x00010002).toNat = (1 : ResultRingId).val ∧
        (filled.outRing (.result 1)).state = .active ∧
        (countField 0x00010002 - (filled.outRing (.result 1)).consumed).toNat
          ≤ ((filled.outRing (.result 1)).written
            - (filled.outRing (.result 1)).consumed).toNat) ∧
      ((ringField 0x00080002).toNat = 8 ∧ (filled.outRing .notice).state = .active ∧
        (countField 0x00080002 - (filled.outRing .notice).consumed).toNat
          ≤ ((filled.outRing .notice).written
            - (filled.outRing .notice).consumed).toNat) := by decide +kernel

theorem witness_BadTakeFaultsTheRing :
    (filled.resetPinLow = false ∧ filled.device ≠ .halted) ∧
      ((ringField 0x00080003).toNat = 8 ∧ filled.notice.state = .active ∧
        (filled.notice.written - filled.notice.consumed).toNat
          < (countField 0x00080003 - filled.notice.consumed).toNat) ∧
      ((ringField 0x00010003).toNat = (1 : ResultRingId).val ∧
        (filled.resultRing 1).out.state = .active ∧
        ((filled.resultRing 1).out.written - (filled.resultRing 1).out.consumed).toNat
          < (countField 0x00010003 - (filled.resultRing 1).out.consumed).toNat) ∧
      ((ringField 0x00000001).toNat = (0 : ResultRingId).val ∧
        (filled.resultRing 0).out.state = .active ∧
        ((filled.resultRing 0).out.written - (filled.resultRing 0).out.consumed).toNat
          < (countField 0x00000001 - (filled.resultRing 0).out.consumed).toNat) ∧
      ((filled.resultRing 1).lost + (filled.resultRing 1).pending.length ≤ 65535 ∧
        filled.buffer.length < 16) ∧
      ¬{ filled.resultRing 1 with lost := 65535, pending := [resultOf 0 (slotOf (.call callWork)) .ok []] }.lost
        + 1 ≤ 65535 ∧
      ((filled.workRing 1).bound = 1 ∧ (filled.workRing 1).state = .active) ∧
      ((writing.resetPinLow = false ∧ writing.device ≠ .halted ∧
          (writing.resultRing 1).out.state = .active) ∧
        ((writing.resultRing 1).out.written - (writing.resultRing 1).out.consumed).toNat
          < (countField 0x00010001 - (writing.resultRing 1).out.consumed).toNat ∧
        (writing.resultRing 1).pending.length = 1) ∧
      (noticeClosing.device ≠ .halted ∧ noticeClosing.notice.state = .active ∧
        (noticeClosing.notice.written - noticeClosing.notice.consumed).toNat
          < (countField 0x00080001 - noticeClosing.notice.consumed).toNat ∧
        noticeClosing.adminWaits .closingNotice = true ∧
        noticeClosing.notice.access = .record ⟨0, []⟩ false) := by decide +kernel

theorem witness_SignalAcknowledgesTheConditions :
    up.resetPinLow = false ∧
      ({ up with notice := { outRing with written := 1, signalled := true } }.outRing
        .notice).signalled = true := by decide +kernel

/-- The boot block read is in flight. -/
def booting : State := { State.reset with device := .starting, bootRead := some 0 }

/-- A boot block with every field at the end of its range. -/
def bootBlock : Record := record [(4, 8), (12, 0), (13, 4), (14, 64), (15, 255)]

theorem witness_BootBlockOpensTheRingsOrHalts :
    booting.device = .starting ∧ booting.bootRead.isSome = true ∧
      ((join32 bootBlock[3] bootBlock[2] bootBlock[1] bootBlock[0]).toNat % 32 = 0 ∧
        (join16 bootBlock[5] bootBlock[4]).toNat ∈ [8, 16, 32, 64, 128, 256, 512, 1024] ∧
        (join32 bootBlock[11] bootBlock[10] bootBlock[9] bootBlock[8]).toNat % 32 = 0 ∧
        (join16 bootBlock[13] bootBlock[12]).toNat ∈ [8, 16, 32, 64, 128, 256, 512, 1024] ∧
        (join32 bootBlock[19] bootBlock[18] bootBlock[17] bootBlock[16]).toNat % 4 = 0 ∧
        1 ≤ bootBlock[14].toNat ∧ bootBlock[14].toNat ≤ 64) ∧
      ¬1 ≤ (record [(4, 8), (12, 8)])[14].toNat := by decide +kernel

/-- A SWEEP, a PARAM_WRITE and a DISCOVER record. -/
def sweepRecord : Record := record [(0, 2), (2, 7)]
def paramRecord : Record := record [(0, 3), (2, 0), (12, 80), (13, 7), (14, 8), (15, 3), (16, 250)]
def discoverRecord : Record := record [(0, 4), (12, 32), (13, 64), (14, 1), (15, 80)]

theorem witness_FetchesFillTheSlotOrFaultTheRing :
    (fetching.device = .running ∧ fetching.device ≠ .halted ∧
        fetching.workFetch = some { ring := 1, slot := 0, addr := 0, stopped := false } ∧
        (fetching.workRing 1).state ≠ .draining ∧
        (decodeWork .call callRecord).isSome = true ∧
        (decodeWork .sweep sweepRecord).isSome = true ∧
        (decodeWork .param paramRecord).isSome = true ∧
        (decodeWork .discover discoverRecord).isSome = true) ∧
      ({ fetching with device := .stopping }.device ≠ .running ∧
        ((fetching.setWorkRing 1 { ring1 with state := .draining }).workRing 1).state = .draining ∧
        RingTakes (slotOf (.call callWork)) fetching ∧
        ¬RingTakes (slotOf (.call callWork)) (fetching.setResultRing 1 (faultedRing .idle))) ∧
      ((1 : WorkRingId) ≠ 0 ∧ (fetching.workRing 1).state = .active) ∧
      (asked.device ≠ .halted ∧ asked.adminFetch.isSome = true ∧
        (asked.workRing 0).state = .active) ∧
      ((asked.setWorkRing 0 { ring1 with state := .faulted }).workRing 0).state = .faulted := by
  decide +kernel

theorem witness_WorkRecordsAreChecked :
    (decodeWork .call callRecord).isSome = true ∧
      (decodeWork .call (record [(0, 1), (2, 7), (8, 4), (10, 5), (12, 1), (13, 12), (14, 63),
        (16, 6)])).isSome = true ∧
      (decodeWork .call (record [(0, 1), (12, 2), (14, 2)])).isSome = true ∧
      (decodeWork .call (record [(0, 1), (12, 0), (13, 80), (15, 1)])).isSome = true ∧
      (decodeWork .sweep sweepRecord).isSome = true ∧
      (decodeWork .sweep (record [(0, 2), (2, 0xFF), (12, 1)])).isSome = true ∧
      (decodeWork .param paramRecord).isSome = true ∧
      (decodeWork .param (record [(0, 3), (12, 1), (14, 2), (15, 1), (18, 0x0F)])).isSome = true ∧
      (decodeWork .discover discoverRecord).isSome = true := by
  decide +kernel

theorem witness_InvalidRecordEndsBadRecord :
    fetching.device ≠ .halted ∧
      fetching.workFetch = some { ring := 1, slot := 0, addr := 0, stopped := false } ∧
      decodeWork .call (record [(0, 1), (2, 8)]) = none ∧
      decodeWork .sweep (record [(0, 2), (12, 2)]) = none ∧
      decodeWork .param (record [(0, 3), (12, 81)]) = none ∧
      decodeWork .discover (record [(0, 4), (12, 9)]) = none ∧
      decodeWork .unknown (record [(0, 5)]) = none ∧
      (fetching.resultRing (fetching.workRing 1).bound).out.state = .active ∧
      (up.resultRing 2).out.state ≠ .active := by decide +kernel

/-- The only slot in use, on a usable settled line with no lock, has no reason to wait. -/
theorem alone_has_no_reason (s : State) (i : SlotId) (x : Slot) (defer : x.deferAt = none)
    (line : (s.engine x.line).state = .idle) (settle : (s.engine x.line).settle = none)
    (others : ∀ j, j ≠ i → s.slot j = none) (locks : ∀ a, (s.entry x.line a).lock = none) :
    ∀ r, ¬Applies s i x r := by
  intro r h
  cases r with
  | defer => exact h.2 defer
  | line => simp [Applies, line] at h
  | settle => exact h.2 settle
  | order => obtain ⟨-, j, y, -, hj, hy, -⟩ := h; simp [others j hj] at hy
  | lock => obtain ⟨a, j, hj, -⟩ := h; simp [locks a] at hj
  | barrier => obtain ⟨-, -, j, y, -, -, hj, hy, -⟩ := h; simp [others j hj] at hy
  | discovery => obtain ⟨-, -, j, y, -, hj, hy, -⟩ := h; simp [others j hj] at hy

/-- A CALL that waited for the lock of node 3, whose entry is CLASH. -/
def clashed : State :=
  (up.setSlot 0 (some { slotOf (.call callWork) with state := .waiting .lock })).setEntry .a 2
    { NodeEntry.initial with state := .clash }

theorem witness_JudgementFollowsTheReasons :
    (((settleLine .a (up.setSlot 0 (some { slotOf (.call callWork) with
        deferAt := some 9 }))).slot 0).map (fun x => (x.line, x.state))
          = some (.a, .waiting .defer) ∧
      ((settleLine .a ((up.setEngine .a { idleLine with quiet := false }).setSlot 0
        (some (slotOf (.call callWork))))).slot 0).map (fun x => (x.line, x.state))
          = some (.a, .ready)) ∧
      clashed.slot 0 = some { slotOf (.call callWork) with state := .waiting .lock } ∧
      ((clashed.entry .a 2).state = .clash ∧ (clashed.entry .a 2).lock = none ∧
        callWork.target = .node 2 ∧
        (clashed.resultRing (clashed.workRing 1).bound).out.state = .active) ∧
      ∀ r, ¬Applies clashed 0 { slotOf (.call callWork) with state := .waiting .lock } r :=
  ⟨by decide +kernel, by decide +kernel, by decide +kernel,
    alone_has_no_reason _ _ _ rfl (by decide +kernel) (by decide +kernel) (by decide +kernel)
      (by decide +kernel)⟩

/-- The admin unit may answer a record in the state of the witnesses of the requests. -/
theorem witness_AdminReady : AdminReady asked := ready_of _ (by decide +kernel)

theorem witness_BadAdminRecordsChangeNothing :
    AdminReady asked ∧
      decodeOpenWork (record [(12, 8)]) = none ∧
      ((record [])[12] = 0 ∧ 8 ≤ (record [(12, 8)])[12].toNat) ∧
      (4 ≤ (record [(12, 4)])[12].toNat ∧ decodeOpenOut (record [(13, 65)]) = none) ∧
      decodeLineSet (record [(12, 2)]) = none ∧ 2 ≤ (record [(12, 2)])[12].toNat ∧
      decodeReflexPut (record [(12, 32)]) = none ∧ 32 ≤ (record [(12, 32)])[12].toNat ∧
      decodeReflexRead (record [(20, 1)]) = none ∧
      decodeNodeRead (record [(13, 80), (14, 2)]) = none ∧
      decodeNodeClear (record [(13, 81)]) = none ∧ decodeAbort (record [(12, 8)]) = none :=
  ⟨witness_AdminReady, by decide +kernel⟩

/-- An OPEN_WORK_RING of ring 7 and an OPEN_RESULT_RING of ring 3 with fields at their ends. -/
def openWorkRecord : Record :=
  record [(0, 0x40), (12, 7), (13, 1), (14, 2), (15, 1), (16, 24), (19, 4)]
def openOutRecord : Record := record [(0, 0x42), (12, 3), (13, 64), (14, 255), (18, 8)]

theorem witness_OpenAndLineRecordsAreChecked :
    (decodeOpenWork openWorkRecord).isSome = true ∧ (decodeOpenOut openOutRecord).isSome = true ∧
      (decodeLineSet lineSetRecord).isSome = true := by decide +kernel

/-- The admin unit's fetch is in flight, and an unstarted CALL and a started SWEEP of ring 1 wait. -/
def askedWaiting : State :=
  (asked.setSlot 0 (some (slotOf (.call callWork)))).setSlot 1
    (some { slotOf (.sweep { all := true, marks := [], step := none }) with started := true })

theorem witness_CloseWorkRingDrainsTheRing :
    AdminReady askedWaiting ∧ (record [(12, 1)])[12].toNat = (1 : WorkRingId).val ∧
      (asked.workRing 2).state = .closed ∧
      ((asked.setWorkRing 1 { ring1 with state := .draining }).workRing 1).state = .draining ∧
      ((askedWaiting.workRing 1).state ≠ .closed ∧ (askedWaiting.workRing 1).state ≠ .draining ∧
        (askedWaiting.slot 0).map (fun x => (x.ring, x.started, x.state)) = some (1, false, .ready) ∧
        ((after (.closeWorkRing (record [(0, 0x41), (12, 1)])) askedWaiting).slot 0).map
          (fun x => x.state) = some .finishing) ∧
      asked.ringSlots 1 = 0 :=
  ⟨ready_of _ (by decide +kernel), by decide +kernel⟩

/-- A SWEEP, a PARAM_WRITE and a DISCOVER before their next step. -/
def sweepWork : SweepWork := { all := true, marks := [(6, .unvisited)], step := some 6 }
def newParamWork : ParamWork := { paramWork .stage1 with phase := none, firstGrant := none }
def discoverWork (p : DiscoverPhase) : DiscoverWork :=
  { positions := 8, roundLimit := 64, poolFirst := 0, poolLast := 79, phase := p, rounds := 1,
    seed := some 5, nextPosition := 7, clean := [⟨0, 9, .pending⟩], roundCollided := 0,
    avoid := [], current := some ⟨0, 9, .pending⟩, candidate := some 79, assigned := 0, lost := 0,
    cleanTotal := 1, collidedTotal := 0, endReason := .none }

/-- Line A is free, and one READY slot of it holds some work. -/
def readied (started : Bool) (w : Work) : State :=
  up.setSlot 0 (some { slotOf w with started := started })

/-- A queued call of verb 20 to ALL. -/
def reflexCall : QueuedCall := { target := .all, verb := 20, args := [1] }

theorem witness_ArbiterGrantsByItsOrder :
    (State.reset.device = .reset ∧ halted.device = .halted) ∧
      (up.device = .running ∧ (up.engine .a).state = .idle ∧ (up.engine .a).holder = .none ∧
        (up.engine .a).quiet = true) ∧
      ((up.setQueue .a [reflexCall]).queue .a = [reflexCall] ∧
        ∀ a, ((up.setQueue .a [reflexCall]).entry .a a).lock = none) ∧
      (up.queue .a = [] ∧
        ((up.setEngine .a { idleLine with listenDue := true }).engine .a).listenDue = true ∧
        ((listening true 3).engine .a).series ≠ none) ∧
      ((up.engine .a).series = none ∧ (up.engine .a).listenDue = false ∧
        chooseSlot up .a = none) ∧
      [readied false (.call callWork), readied true (.call callWork),
        readied false (.sweep sweepWork), readied false (.param newParamWork),
        (readied false (.param newParamWork)).setEntry .a 2
          { NodeEntry.initial with store := .unknown },
        readied true (.param (paramWork .prelude)), readied true (.param (paramWork .final)),
        readied true (.discover (discoverWork .roll)),
        readied true (.discover (discoverWork .assign))].map
          (fun s => (chooseSlot s .a).map fun p => (p.1, p.2.started, p.2.work))
        = [some (0, false, .call callWork), some (0, true, .call callWork),
          some (0, false, .sweep sweepWork), some (0, false, .param newParamWork),
          some (0, false, .param newParamWork), some (0, true, .param (paramWork .prelude)),
          some (0, true, .param (paramWork .final)),
          some (0, true, .discover (discoverWork .roll)),
          some (0, true, .discover (discoverWork .assign))] := by decide +kernel

/-- Reflex entry 31 reacts to notice kind 5 of node 3 on line A with verb 20 to ALL. -/
def reflex31 : ReflexEntry :=
  { ReflexEntry.empty with
    armed := true, matchSource := some 2, matchKind := 5, target := .all, verb := 20
    args := [1], holdoff := 9, report := true, fireCount := 65535 }

/-- The reflex call at the head of line A's queue is being sent, with some tries begun. -/
def reflexSending (tries : Nat) : State :=
  (up.setQueue .a [reflexCall]).setEngine .a { idleLine with
    state := .calling, holder := .reflex, quiet := false
    step := some { call := { target := .all, verb := 20, reply := false, args := [1] }
                   retryLimit := 1, tries := tries, allGarbled := true } }

theorem witness_StopAbortsAndEmptiesTheQueues_holders :
    ((reflexSending 1).resetPinLow = false ∧ (reflexSending 1).device = .running ∧
        noWaiting (reflexSending 1) .a = true ∧ ((reflexSending 1).engine .a).holder = .reflex ∧
        ((after (.stop false) (reflexSending 1)).queue .a).length = 1) ∧
      ((listening true 1).resetPinLow = false ∧ (listening true 1).device = .running ∧
        noWaiting (listening true 1) .a = true ∧ ((listening true 1).engine .a).holder = .series ∧
        ((after (.stop false) (listening true 1)).engine .a).series.map (fun sr => sr.stopping)
          = some true) := by decide +kernel

theorem witness_ReflexesFireInOrder :
    ((reflex31.armed = true ∧ reflex31.matchLine = .a ∧ reflex31.matchKind = 5 ∧
        reflex31.matchArg = none ∧ reflex31.quietUntil = none) ∧
      (up.setReflex 31 reflex31).reflex 31 = reflex31 ∧
      ((up.engine .a).state = .idle ∧ up.queue .a = [])) ∧
      ((up.setEngine .a LineEngine.reset).engine .a).state = .off ∧
      ((up.setQueue .a (List.replicate 4 reflexCall)).queue .a).length = 4 ∧
      ¬(up.reflex 0).armed = true ∧
      { reflex31 with quietUntil := some 3 }.quietUntil ≠ none ∧
      ((listening true 1).device ≠ .halted ∧
        ((listening true 1).engine .a).state = .listening ∧
        ((listening true 1).engine .a).frameStarted = true ∧
        noCut (listening true 1) .a = true ∧
        judgeNotice noticeFrame = some { source := 2, kind := 5, seq := 9, arg := [] } ∧
        ((listening true 1).entry .a 2).lastSeq ≠ some 9) ∧
      ((reflexSending 1).device ≠ .halted ∧ ((reflexSending 1).engine .a).state = .calling ∧
        ((reflexSending 1).engine .a).holder = .reflex ∧ noCut (reflexSending 1) .a = true ∧
        ((reflexSending 1).engine .a).step.map (fun st => st.call.reply) = some false ∧
        ((reflexSending 2).engine .a).step.map (fun st => decide (st.retryLimit < st.tries))
          = some true) := by decide +kernel

/-- The admin unit's fetch is in flight, no line work ring is open, and result ring 1 is the given
one. -/
def askedResult (r : ResultRing) : State :=
  (asked.setWorkRing 1 WorkRing.reset).setResultRing 1 r

theorem witness_RingsOpenAndClose :
    (∀ s ∈ [asked, askedResult (writing.resultRing 1),
        { asked with notice := { outRing with state := .closed } },
        { asked with notice := { outRing with state := .faulted } },
        { asked with notice := { outRing with access := .record ⟨0, []⟩ false } },
        { asked with
          notice := { outRing with state := .faulted, access := .record ⟨0, []⟩ false } }],
      AdminReady s) ∧
    ((decodeOpenWork openWorkRecord).map (fun p => (p.1, p.2.bound)) = some (7, 1) ∧
      (asked.workRing 7).state = .closed ∧ (asked.resultRing 1).out.state = .active ∧
      ((decodeOpenWork (record [(12, 1), (16, 1), (18, 8)])).map fun p => p.1) = some 1 ∧
      (asked.workRing 1).state ≠ .closed) ∧
    ((record [(12, 1)])[12].toNat = (1 : ResultRingId).val ∧ (1 : ResultRingId) ≠ 0 ∧
      (decodeOpenOut openOutRecord).isSome = true ∧ openOutRecord[12].toNat = (3 : ResultRingId).val ∧
      (asked.resultRing 3).out.state = .closed ∧
      ((asked.resultRing 1).out.state = .active ∧ (asked.workRing 1).bound = 1 ∧
        (asked.workRing 1).state ≠ .closed ∧ (asked.workRing 1).state ≠ .faulted) ∧
      ((askedResult (faultedRing .idle)).resultRing 1).out.state = .faulted ∧
      (((askedResult { ResultRing.reset with out := outRing }).resultRing 1).out.state = .active ∧
        ((askedResult { ResultRing.reset with out := outRing }).resultRing 1).pending = [] ∧
        ((askedResult { ResultRing.reset with out := outRing }).resultRing 1).out.access = .idle ∧
        ∀ k : WorkRingId, k ≠ 0 →
          ((askedResult { ResultRing.reset with out := outRing }).workRing k).bound = 1 →
          ((askedResult { ResultRing.reset with out := outRing }).workRing k).state = .closed) ∧
      (((askedResult (writing.resultRing 1)).resultRing 1).out.state = .active ∧
        (∀ k : WorkRingId, k ≠ 0 → ((askedResult (writing.resultRing 1)).workRing k).bound = 1 →
          ((askedResult (writing.resultRing 1)).workRing k).state = .closed) ∧
        ((askedResult (writing.resultRing 1)).resultRing 1).pending ≠ [])) ∧
    (asked.notice.state = .active ∧ asked.notice.access = .idle) :=
  ⟨readyAll_of _ (by decide +kernel), by decide +kernel⟩

/-- The admin unit's fetch is in flight, and line A is the given engine. -/
def askedLine (e : LineEngine) : State := asked.setEngine .a e

/-- A line whose holder has a try in progress. -/
def busyLine : LineEngine :=
  { idleLine with state := .calling, holder := .reflex, step := some (callStep 1), quiet := false }

/-- A LINE_SET of line A waits for the end of the line's grant. -/
def settingIn (s : State) : State :=
  { s with admin := some ⟨0x46, 9, .settingLine .a { LineConfig.reset with silence := 15 }⟩ }

theorem witness_LineSetAppliesBetweenGrants :
    (∀ s ∈ [askedLine busyLine, asked], AdminReady s) ∧
      (decodeLineSet lineSetRecord).map (fun p => (p.1, p.2.rate)) = some (.a, .r2400) ∧
      ((decodeLineSet (record [(0, 0x46), (13, 1), (14, 7), (15, 15), (16, 20), (18, 30), (20, 250)])).map
        fun p => p.2.rate) = some .r4800 ∧
      ((asked.engine .a).config.rate = .r2400 ∧ (asked.engine .a).state ≠ .off ∧
        (asked.engine .a).holder = .none) ∧
      ((askedLine busyLine).engine .a).holder ≠ .none ∧
      (settingIn (listening false 2)).admin
        = some ⟨0x46, 9, .settingLine .a { LineConfig.reset with silence := 15 }⟩ ∧
      (((settingIn (listening false 2)).resultRing 0).out.state = .active ∧
        (settingIn (listening false 2)).device ≠ .halted ∧
        ((settingIn (listening false 2)).engine .a).state = .listening ∧
        ((settingIn (listening false 2)).engine .a).frameStarted = false ∧
        ((settingIn (listening false 2)).engine .a).series.isSome = true) ∧
      (((settingIn (onLine .awaiting 3)).engine .a).step = some (callStep 3) ∧
        ((settingIn (onLine .awaiting 3)).engine .a).holder = .slot 0 ∧
        (callStep 3).retryLimit < (callStep 3).tries ∧
        ((settingIn (listening true 2)).engine .a).state = .listening ∧
        ((settingIn (listening true 2)).engine .a).frameStarted = true ∧
        judgeNotice [1] = none) ∧
      TryEnds .a (settingIn (onLine .awaiting 3)) (callStep 3) (.replyWindowTimeout .a) .noReply := by
  refine ⟨readyAll_of _ (by decide +kernel), ?_⟩
  simp only [← and_assoc]
  exact ⟨by decide +kernel, .inr (.inr (.inl ⟨rfl, by decide +kernel, rfl⟩))⟩

theorem witness_LineEnableStartsTheRestoration :
    AdminReady (askedLine LineEngine.reset) ∧
      ((askedLine LineEngine.reset).engine .a).state = .off ∧
      ((record [(0, 0x47)])[12] = 0 ∧ (record [(0, 0x47), (12, 1)])[12] = 1) ∧
      (asked.engine .b).state ≠ .off :=
  ⟨ready_of _ (by decide +kernel), by decide +kernel⟩

/-- The admin unit's fetch is in flight beside a state of line A, or a LINE_RESET of it waits. -/
def askedIn (s : State) : State := { s with adminFetch := some 0 }
def cuttingIn (s : State) : State := { s with admin := some ⟨0x49, 9, .cutting .a false true⟩ }

theorem witness_CutsEndTheWorkOfALine :
    (∀ s ∈ [askedWaiting, askedLine busyLine, askedIn (onLine .idle 1)], AdminReady s) ∧
      (((askedWaiting.engine .a).holder = .none ∧
        (askedWaiting.slot 0).map (fun x => (x.line, x.state)) = some (.a, .ready) ∧
        (record [(0, 0x49), (13, 1)])[12] = 0 ∧
        (record [(0, 0x49), (13, 1)])[13].getLsbD 0 = true) ∧
      (((askedIn (onLine .idle 1)).engine .a).holder = .slot 0 ∧
        ((askedIn (onLine .idle 1)).engine .a).state = .idle ∧
        ((askedIn (onLine .idle 1)).slot 0).map (fun x => x.work) = some (.call callWork)) ∧
      (((askedLine busyLine).engine .a).holder ≠ .none ∧
        ((askedLine busyLine).engine .a).state ≠ .idle) ∧
      ((cuttingIn (onLine .awaiting 1)).device ≠ .halted ∧
        ((cuttingIn (onLine .awaiting 1)).engine .a).step = some (callStep 1) ∧
        ((cuttingIn (onLine .awaiting 1)).engine .a).holder = .slot 0 ∧
        ((cuttingIn (onLine .awaiting 1)).slot 0).map (fun x => (x.line, x.work))
          = some (.a, .call callWork) ∧
        (cuttingIn (onLine .awaiting 1)).admin = some ⟨0x49, 9, .cutting .a false true⟩ ∧
        ((cuttingIn (onLine .awaiting 1)).resultRing 0).out.state = .active ∧
        ((cuttingIn (onLine .awaiting 1)).resultRing
          ((cuttingIn (onLine .awaiting 1)).workRing 1).bound).out.state = .active)) ∧
      TryEnds .a (cuttingIn (onLine .awaiting 1)) (callStep 1) (.replyWindowTimeout .a) .noReply :=
  ⟨readyAll_of _ (by decide +kernel), by decide +kernel,
    .inr (.inr (.inl ⟨rfl, by decide +kernel, rfl⟩))⟩

/-- A REFLEX_PUT of index 31 with fields at their ends. -/
def reflexRecord : Record :=
  record [(0, 0x4A), (12, 31), (14, 80), (15, 31), (16, 3), (19, 1), (20, 12), (21, 63), (22, 6),
    (29, 0x60), (30, 0xEA)]

theorem witness_ReflexPutReplacesTheEntry :
    AdminReady asked ∧
      (decodeReflexPut reflexRecord).isSome = true ∧
      (decodeReflexPut (record [(0, 0x4A), (13, 1), (18, 1), (20, 80), (21, 16)])).isSome = true ∧
      (decodeReflexPut (record [(0, 0x4A), (19, 2), (20, 99), (21, 16)])).isSome = true :=
  ⟨witness_AdminReady, by decide +kernel⟩

theorem witness_ReflexDropEmptiesTheEntry :
    AdminReady asked ∧
      32 ≤ (record [(0, 0x4B), (12, 32)])[12].toNat ∧
      (31 : ReflexId).val = (record [(0, 0x4B), (12, 31)])[12].toNat :=
  ⟨witness_AdminReady, by decide +kernel⟩

theorem witness_TableReadsWriteTheirFirstImage :
    AdminReady asked ∧
      (decodeReflexRead (record [(0, 0x4C), (12, 31), (20, 0x20)])).isSome = true ∧
      (decodeNodeRead (record [(0, 0x4D), (12, 1), (13, 1), (14, 80)])).isSome = true ∧
      (decodeNodeRead (record [(0, 0x4D), (12, 1), (13, 80), (14, 1)])).isSome = true ∧
      (reflex31.args.length ≤ 6 ∧ reflex31.target ≠ .unaddressed ∧ (byteOf 2).toNat = 2 ∧
        reflex31.report = true ∧ reflex31.matchArg = none ∧ reflex31.quietUntil = none) :=
  ⟨witness_AdminReady, by decide +kernel⟩

theorem test_image_of_a_node_entry :
    nodeImage .b 16 { NodeEntry.initial with
      state := .silent, identity := some 0x0102030405, zones := some 0x801, misses := 3
      lock := some 23, store := .unknown, lastHeard := some 0x0A0B0C0D }
      = [17, 1, 2, 0x35, 5, 4, 3, 2, 1, 0, 1, 8, 3, 0, 0, 23, 1, 0, 0, 0, 0x0D, 0x0C, 0x0B, 0x0A,
        0, 0, 0, 0, 0, 0, 0, 0] := by decide +kernel

theorem test_image_of_a_reflex_entry :
    (reflexImage 31 { reflex31 with quietUntil := some 0x01020304 }).take 28
      = [31, 1, 6, 0, 3, 5, 0, 0, 2, 0, 20, 1, 1, 0, 0, 0, 0, 0, 9, 0, 0xFF, 0xFF, 0, 0,
        4, 3, 2, 1] := by decide +kernel

theorem witness_ImageWritesEndTheReads :
    up.device ≠ .halted ∧ (imaging .readingReflex).imageWrite.isSome = true ∧
      (imaging (.readingNodes .a 2 2 0 0)).admin = some ⟨0x4D, 9, .readingNodes .a 2 2 0 0⟩ ∧
      (imaging (.readingNodes .a 2 2 1 0)).admin = some ⟨0x4D, 9, .readingNodes .a 2 2 1 0⟩ ∧
      (imaging .readingReflex).admin = some ⟨0x4D, 9, .readingReflex⟩ ∧
      ((imaging .readingReflex).resultRing 0).out.state = .active := by decide +kernel

theorem witness_NodeClearReturnsTheInitialEntry :
    AdminReady (asked.setEntry .a 2 { NodeEntry.initial with lock := some 4 }) ∧
      ((record [])[13] = 0 ∧ 81 ≤ (record [(13, 81)])[13].toNat) ∧
      ((0 : Addr).val + 1 = (record [(13, 1)])[13].toNat ∧
        (79 : Addr).val + 1 = (record [(13, 80)])[13].toNat) ∧
      ((asked.setEntry .a 2 { NodeEntry.initial with lock := some 4 }).entry .a 2).lock.isSome = true ∧
      (asked.entry .a 2).lock = none :=
  ⟨ready_of _ (by decide +kernel), by decide +kernel⟩

/-- An ABORT of ring 1 and tag 7. -/
def abortRecord : Record := record [(0, 0x4F), (12, 1), (16, 7)]

/-- A started PARAM_WRITE in a state and a phase has node 3 locked, and an ABORT may be answered. -/
def askedCommit (st : SlotState) (p : Phase) : State :=
  (askedIn (committing st p)).setEntry .a 2 { NodeEntry.initial with lock := some 0 }

theorem test_abort_of_a_commit_waits_while_its_node_programs :
    [(SlotState.paused, Phase.stage1), (.ready, .poll), (.ready, .stage1)].map (fun c =>
      let t := after (.abort abortRecord) (askedCommit c.1 c.2)
      ((t.slot 0).map fun x => x.abortPending, (t.entry .a 2).lock))
      = [(some true, some 0), (some true, some 0), (some false, none)] := by decide +kernel

theorem witness_AbortEndsTheNamedSlots :
    (∀ s ∈ [askedWaiting, askedCommit .ready .stage1], AdminReady s) ∧
      decodeAbort abortRecord = some (1, 7) ∧
      (((askedCommit .ready .stage1).entry .a 2).lock = some 0 ∧
        ((askedCommit .ready .stage1).slot 0).map (fun x => (x.work, x.started, x.state))
          = some (.param (paramWork .stage1), true, .ready) ∧
        ∀ j, j ≠ 0 → (askedCommit .ready .stage1).slot j = none) ∧
      (askedWaiting.slot 0).map (fun x => (x.ring, x.tag)) = some (1, 7) ∧
      (∀ i, asked.slot i = none) ∧
      ((after (.abort abortRecord) askedWaiting).slot 0).map (fun x => x.state)
        = some .finishing :=
  ⟨readyAll_of _ (by decide +kernel), by decide +kernel⟩

/-- Line A has been low for 50 ms, with a CALL between two tries. -/
def failing : State :=
  (onLine .idle 1).setEngine .a { (onLine .idle 1).engine .a with sense := false, lowTimer := 50 }

/-- Slot 0, with or without an abort pending, holds line A with some work. -/
def heldSlot (late : Bool) (w : Work) : Slot :=
  { slotOf w with state := .onLine, started := true, abortPending := late }

/-- Slot 0 has started some work. Line A has been low for 50 ms, with that slot as its holder or
without a holder. -/
def lowWith (held : Bool) (w : Work) : State :=
  (up.setSlot 0 (some { slotOf w with
    state := if held then .onLine else .ready, started := true })).setEngine .a
    { idleLine with
      sense := false, lowTimer := 50, quiet := false, holder := if held then .slot 0 else .none
      step := if held then some (callStep 1) else none }

theorem test_down_ends_the_holding_call_lineDown :
    ((after (.lowTimerExpiry .a) (lowWith true (.call callWork))).slot 0).bind
      (fun x => x.result.map fun r => (r.status, r.detail.take 3))
      = some (.lineDown, [1, 0, 0xFF]) := by decide +kernel

theorem test_cut_at_down_releases_the_holders_own_lock :
    [true, false].map (fun started =>
      let w := { paramWork .commit with unverified := true }
      let s := (cuttingIn (lowWith true (.param w))).setSlot 0
        (some { heldSlot false (.param w) with started := started })
      let t := after (.lowTimerExpiry .a)
        { s.setEntry .a 2 { NodeEntry.initial with lock := some 0 } with
          admin := some ⟨0x49, 9, .cutting .a false false⟩ }
      ((t.entry .a 2).lock, (t.entry .a 2).store))
      = [(none, .unknown), (none, .clean)] := by decide +kernel

theorem witness_LinesGoDownAndComeUp :
    (failing.device ≠ .halted ∧ (failing.engine .a).state.usable = true ∧
        50 ≤ (failing.engine .a).lowTimer ∧ (failing.engine .a).sense = false ∧
        noWaiting failing .a = true ∧ (failing.engine .a).headEnd = .normal ∧
        (failing.slot 0).map (fun x => (x.line, x.work, x.started))
          = some (.a, .call callWork, true) ∧
        ((after (.lowTimerExpiry .a) failing).slot 0).map (fun x => x.state) = some .finishing) ∧
      ([Work.sweep sweepWork, .param (paramWork .poll), .param (paramWork .final),
          .discover (discoverWork .pick)].all fun w => [true, false].all fun held =>
        (lowWith held w).device != .halted && ((lowWith held w).engine .a).state.usable &&
          decide (50 ≤ ((lowWith held w).engine .a).lowTimer) &&
          !((lowWith held w).engine .a).sense && noWaiting (lowWith held w) .a &&
          (((lowWith held w).engine .a).holder == .slot 0) == held &&
          ((lowWith held w).slot 0 == some { heldSlot false w with
            state := if held then .onLine else .ready }) &&
          ((lowWith held w).resultRing ((lowWith held w).workRing 1).bound).out.state == .active)
        = true ∧
      ([Work.call callWork, .sweep sweepWork, .param (paramWork .poll),
          .discover (discoverWork .pick)].all fun w =>
        let s := settingIn (lowWith true w)
        let c := cuttingIn (lowWith true w)
        s.device != .halted && (s.engine .a).state.usable && decide (50 ≤ (s.engine .a).lowTimer) &&
          !(s.engine .a).sense && (s.engine .a).holder == .slot 0 &&
          (s.resultRing 0).out.state == .active &&
          s.admin == some ⟨0x46, 9, .settingLine .a { LineConfig.reset with silence := 15 }⟩ &&
          c.engine .a == s.engine .a && c.slot 0 == some (heldSlot false w) &&
          c.admin == some ⟨0x49, 9, .cutting .a false true⟩) = true ∧
      (sweepWork.step = some 6 ∧ (paramWork .poll).phase = some .poll ∧
        (paramWork .poll).verified = false) ∧
      (up.device ≠ .halted ∧
        ((up.setEngine .a { idleLine with state := .restoring, debounce := some 0 }).engine
          .a).state = .restoring ∧
        ((up.setEngine .a { idleLine with state := .restoring, debounce := some 0 }).engine
          .a).debounce = some 0 ∧
        (up.ms - 0).toNat < 2 ^ 31 ∧ (up.engine .a).listenDue = false) := by
  decide +kernel

theorem witness_SenseEdgesMoveTheDebounce : halted.device = .halted ∧ up.device ≠ .halted := by
  decide +kernel

/-- That slot's line is in a line state, in the last try of a call. -/
def pressed (late : Bool) (w : Work) (st : LineState) (c : Call) : State :=
  (up.setSlot 0 (some (heldSlot late w))).setEngine .a
    { idleLine with
      state := st, holder := .slot 0, quiet := false
      step := some { call := c, retryLimit := 2, tries := 3, allGarbled := true } }

/-- The same with no abort pending. -/
def stepping (w : Work) (st : LineState) (c : Call) : State := pressed false w st c

/-- The work of a commit in a phase, the final CHECK under its flag, with or without its budget
passed. -/
def phaseWork (late : Bool) (p : Phase) : ParamWork :=
  { paramWork p with finalFlag := p == .final, budgetPassed := late }

/-- A reply DONE of node 3 with the digest of the commit. -/
def doneReply : List Byte := [3, 2, 0, 13, frameCheck [3, 2, 0, 13]]

theorem witness_CommitStepsFollowTheirPhase : ∀ (late : Bool) (p : Phase),
    ((phaseWork late p).phase = some p ∧ (phaseWork late p).verified = false ∧
      (p = .final → (phaseWork late p).finalFlag = true)) ∧
    judgeReply (phaseCall p (phaseWork late p)) doneReply
      = some { status := .done, noticePending := false, data := [0, 13] } ∧
    replyDigest [0, 13] = some (phaseWork late p).digest ∧
    StepEnds .a (pressed late (.param (phaseWork late p)) .receiving
        (phaseCall p (phaseWork late p)))
      { call := phaseCall p (phaseWork late p), retryLimit := 2, tries := 3, allGarbled := true } 0
      (heldSlot late (.param (phaseWork late p))) (.replyFrameEnd .a doneReply)
      (.replied { status := .done, noticePending := false, data := [0, 13] }) ∧
    StepEnds .a (pressed late (.param (phaseWork late p)) .awaiting
        (phaseCall p (phaseWork late p)))
      { call := phaseCall p (phaseWork late p), retryLimit := 2, tries := 3, allGarbled := true } 0
      (heldSlot late (.param (phaseWork late p))) (.replyWindowTimeout .a) .noReply := by
  have judged : ∀ (late : Bool) (p : Phase), judgeReply (phaseCall p (phaseWork late p)) doneReply
      = some { status := .done, noticePending := false, data := [0, 13] } := by
    intro late p; cases late <;> cases p <;> decide +kernel
  intro late p
  refine ⟨?_, judged late p, by cases late <;> cases p <;> decide +kernel, ?_, ?_⟩
  · cases late <;> cases p <;> decide +kernel
  · refine stepEnds_of _ _ _ _ _ _ _ ?_ (by simp)
      (by cases late <;> cases p <;> decide +kernel)
    refine .inr (.inr (.inr (.inr ⟨doneReply, rfl,
      by cases late <;> cases p <;> decide +kernel, ?_⟩)))
    rw [judged late p]
  · exact stepEnds_of _ _ _ _ _ _ _
      (.inr (.inr (.inl ⟨rfl, by cases late <;> cases p <;> decide +kernel, rfl⟩)))
      (by simp) (by cases late <;> cases p <;> decide +kernel)

theorem witness_SettleAndListenTimersExpire :
    up.device ≠ .halted ∧ (up.ms - 0).toNat < 2 ^ 31 ∧
      ((up.setEngine .a { idleLine with settle := some 0 }).engine .a).settle = some 0 ∧
      ((up.setEngine .a { idleLine with listenTimer := some 0 }).engine .a).listenTimer = some 0 := by
  decide +kernel

theorem witness_GapAndBackoffBeginTheTry :
    (onLine .idle 1).device ≠ .halted ∧ ((onLine .idle 1).engine .a).state = .idle ∧
      ((onLine .idle 1).engine .a).step = some (callStep 1) ∧
      ((onLine .idle 1).engine .a).holder ≠ .none ∧
      ({ (onLine .idle 1).engine .a with next := .gap }).next = .gap ∧
      ({ (onLine .idle 1).engine .a with next := .backoff 8 }).next = .backoff 8 ∧
      ((up.engine .a).state = .idle ∧ (up.engine .a).holder = .none) := by decide +kernel

theorem witness_FramesOpenAndFillTheWindows :
    ((onLine .awaiting 1).engine .a).state = .awaiting ∧
      ((listening false 1).engine .a).state = .listening ∧
      (((onLine .calling 1).engine .a).state = .calling ∧
        ((onLine .calling 1).engine .a).step = some (callStep 1) ∧ (callStep 1).call.reply = true) ∧
      (listenCall.reply = false ∧ ((listening false 1).engine .a).holder = .series) := by
  decide +kernel

/-- A CALL without reply is being sent, with some tries begun, a target and a verb. -/
def sendingOf (tries : Nat) (g : Target) (verb : BitVec 6) : State :=
  (up.setSlot 0 (some { slotOf (.call { callWork with
    target := g, verb := verb, reply := false }) with
    state := .onLine, started := true })).setEngine .a { idleLine with
      state := .calling, holder := .slot 0, quiet := false
      step := some { callStep tries with
        call := { (callStep tries).call with target := g, verb := verb, reply := false } } }

/-- A CALL of verb 20 to node 3 without reply is being sent. -/
def sending : State := sendingOf 1 (.node 2) 20

theorem test_unassign_all_leaves_a_locked_entry :
    let s := ((sendingOf 1 .all 2).setEntry .a 2 { NodeEntry.initial with misses := 2 }).setEntry .a 3
      { NodeEntry.initial with misses := 2, lock := some 5 }
    [((after (.frameSent .a) s).entry .a 2).misses, ((after (.frameSent .a) s).entry .a 3).misses]
      = [0, 2] := by decide +kernel

theorem witness_SentCallEndsOk :
    sending.device ≠ .halted ∧ (sending.engine .a).state = .calling ∧
      (sending.engine .a).step.map (fun st => st.call.reply) = some false ∧
      (sending.engine .a).holder = .slot 0 ∧
      (sending.slot 0).map (fun x => (x.line, x.work)) =
        some (.a, .call { callWork with reply := false }) ∧
      noWaiting sending .a = true ∧ callWork.verb ≠ 2 ∧
      RingTakes (slotOf (.call callWork)) sending ∧
      ¬RingTakes (slotOf (.call callWork)) (sending.setResultRing 1 (faultedRing .idle)) ∧
      ((sendingOf 1 .all 2).slot 0).map (fun x => (x.line, x.work)) =
        some (.a, .call { callWork with target := .all, verb := 2, reply := false }) := by
  decide +kernel

/-- A COMMIT of node 3 has a try left, its line in a line state. -/
def lostCommit (st : LineState) : State :=
  (up.setSlot 0 (some (heldSlot false (.param (paramWork .commit))))).setEngine .a
    { (onLine st 2).engine .a with
      step := some { callStep 2 with call := phaseCall .commit (paramWork .commit) } }

theorem test_lost_commit_try_is_marked :
    ((after (.replyWindowTimeout .a) (lostCommit .awaiting)).slot 0).map (fun x => x.work)
      = some (.param { paramWork .commit with unverified := true }) := by decide +kernel

theorem witness_FailedTriesAreRepeated :
    (onLine .calling 2).device ≠ .halted ∧ ((onLine .calling 2).engine .a).state = .calling ∧
      ((onLine .calling 2).engine .a).step = some (callStep 2) ∧
      (callStep 2).tries ≤ (callStep 2).retryLimit ∧
      ((onLine .calling 2).engine .a).headEnd = .normal ∧ noCut (onLine .calling 2) .a = true ∧
      noCut (settingIn (onLine .calling 2)) .a = true ∧
      judgeReply (callStep 2).call [1, 2, 3] = none ∧
      ((onLine .awaiting 2).engine .a).state = .awaiting ∧
      ((onLine .receiving 2).engine .a).state = .receiving ∧
      (((lostCommit .awaiting).engine .a).state = .awaiting ∧
        ((lostCommit .receiving).engine .a).state = .receiving ∧
        ((lostCommit .awaiting).engine .a).holder = .slot 0 ∧
        ((lostCommit .awaiting).slot 0).map (fun x => x.work) = some (.param (paramWork .commit)) ∧
        (paramWork .commit).phase = some .commit) := by decide +kernel

/-- Each end of a last try, with reply and without, and on a result ring that takes nothing. -/
theorem witness_LastUnansweredTryEndsTheCall :
    StepEnds .a (onLine .awaiting 3) (callStep 3) 0 (heldSlot false (.call callWork))
      (.replyWindowTimeout .a) .noReply ∧
    (∀ c ∈ [Instr.garbledReception .a, .replyFrameEnd .a [1, 2, 3]],
      StepEnds .a (onLine .receiving 3) (callStep 3) 0 (heldSlot false (.call callWork)) c
        .garbled) ∧
    (∀ s ∈ [sendingOf 3 .all 20, (sendingOf 3 .all 20).setResultRing 1 (faultedRing .idle)],
      StepEnds .a s
        { callStep 3 with call := { (callStep 3).call with target := .all, reply := false } } 0
        (heldSlot false (.call { callWork with target := .all, reply := false }))
        (.collisionDetected .a) .collided) ∧
    (callStep 3).call.target = .node 2 ∧ (callStep 3).call.reply = true := by
  refine ⟨?_, ?_, ?_, rfl, rfl⟩
  · exact stepEnds_of _ _ _ _ _ _ _ (.inr (.inr (.inl ⟨rfl, by decide +kernel, rfl⟩)))
      (fun _ => by decide) (by decide +kernel)
  · simp only [List.forall_mem_cons, List.not_mem_nil, false_implies, implies_true, and_true]
    refine ⟨stepEnds_of _ _ _ _ _ _ _ ?_ (fun _ => by decide) (by decide +kernel),
      stepEnds_of _ _ _ _ _ _ _ ?_ (fun _ => by decide) (by decide +kernel)⟩
    · exact .inr (.inr (.inr (.inl ⟨rfl, by decide +kernel, rfl⟩)))
    · exact .inr (.inr (.inr (.inr ⟨[1, 2, 3], rfl, by decide +kernel, by decide +kernel⟩)))
  · have key : ([sendingOf 3 .all 20,
        (sendingOf 3 .all 20).setResultRing 1 (faultedRing .idle)].all fun s =>
        s.device != .halted && (s.engine .a).step == some { callStep 3 with
          call := { (callStep 3).call with target := .all, reply := false } } &&
        (s.engine .a).holder == .slot 0 &&
        s.slot 0 == some (heldSlot false (.call { callWork with target := .all, reply := false })) &&
        (heldSlot false (.call { callWork with target := .all, reply := false })).line == .a &&
        noWaiting s .a && (s.engine .a).state == .calling) = true := by decide +kernel
    intro s hs
    have h := List.all_eq_true.mp key s hs
    rw [Bool.and_eq_true] at h
    exact stepEnds_of _ _ _ _ _ _ _ (.inr (.inl ⟨rfl, eq_of_beq h.2, rfl⟩))
      (fun _ => by decide) h.1

theorem witness_ValidReplyEndsTheCall :
    ((onLine .receiving 1).engine .a).state = .receiving ∧
      ((onLine .receiving 1).engine .a).step = some (callStep 1) ∧
      ((onLine .receiving 1).engine .a).holder = .slot 0 ∧
      ((onLine .receiving 1).slot 0).map (fun x => (x.line, x.work, x.abortPending))
        = some (.a, .call callWork, false) ∧
      noWaiting (onLine .receiving 1) .a = true ∧
      (judgeReply (callStep 1).call okReply).map (fun r => r.status) = some .ok ∧
      (judgeReply (callStep 1).call [3, 1, frameCheck [3, 1]]).map (fun r => r.status) = some .busy ∧
      callWork.busyRounds < callWork.busyLimit ∧ (callStep 1).call.verb ≠ verbPing ∧
      ((heldSlot true (.call callWork)).abortPending = true ∧
        (heldSlot true (.call callWork)).started = true ∧
        (pressed true (.call callWork) .receiving (callStep 1).call).slot 0
          = some (heldSlot true (.call callWork)) ∧
        ((pressed true (.call callWork) .receiving (callStep 1).call).resultRing
          ((pressed true (.call callWork) .receiving (callStep 1).call).workRing 1).bound).out.state
          = .active) ∧
      (({ callWork with verb := 2 }).verb = 2 ∧ callWork.target = .node 2) := by
  decide +kernel

/-- A LISTEN of a series is being sent. -/
def listenSending : State :=
  up.setEngine .a { idleLine with
    state := .calling, holder := .series, quiet := false
    step := some { call := listenCall, retryLimit := 0, tries := 1, allGarbled := true }
    series := some { window := 1, last := none, ack := none, stopping := false } }

/-- The last try of a TAKEN to node 3, after some window of a series that STOP has reached or not. -/
def takenStep : Machine.Step :=
  { call := takenCall 2 9, retryLimit := 2, tries := 3, allGarbled := true }
def taking (st : LineState) (window : Nat) (stopping : Bool) : State :=
  up.setEngine .a { idleLine with
    state := st, holder := .series, quiet := false, step := some takenStep
    series := some { window := window, last := some .valid, ack := some (2, 9)
                     stopping := stopping } }

theorem test_collided_listen_ends_the_series :
    ((after (.collisionDetected .a) listenSending).engine .a).listenTimer = some 250 := by
  decide +kernel

theorem test_taken_after_the_fourth_window_sets_listen_due :
    ((after (.replyWindowTimeout .a) (taking .awaiting 4 false)).engine .a).listenDue
      = true := by decide +kernel

theorem witness_ListenWindowsEndTheirGrant :
    ((listening false 1).device ≠ .halted ∧ ((listening false 1).engine .a).state = .listening ∧
      ((listening false 1).engine .a).series.isSome = true ∧
      noCut (listening false 1) .a = true ∧ noCut (settingIn (listening true 3)) .a = true ∧
      ((listening false 1).engine .a).frameStarted = false ∧
      (((listening true 3).engine .a).frameStarted = true ∧
        ((listening true 3).engine .a).series.map (fun r => (r.window, r.stopping))
          = some (3, false)) ∧
      ((listening true 4).engine .a).series.map (fun r => (r.window, r.stopping))
        = some (4, false) ∧
      (judgeNotice [1] = none ∧ ({ window := 3, last := none, ack := none
                                   stopping := true } : Series).stopping = true) ∧
      (listenSending.device ≠ .halted ∧ (listenSending.engine .a).state = .calling ∧
        (listenSending.engine .a).holder = .series ∧
        (listenSending.engine .a).series.map (fun sr => sr.ack) = some none ∧
        (listenSending.engine .a).step.map (fun st => decide (st.retryLimit < st.tries))
          = some true ∧ noWaiting listenSending .a = true)) ∧
      (∀ window stopping, (taking .awaiting window stopping).device ≠ .halted ∧
        ((taking .awaiting window stopping).engine .a).holder = .series ∧
        ((taking .awaiting window stopping).engine .a).series
          = some { window := window, last := some .valid, ack := some (2, 9)
                   stopping := stopping } ∧
        ((taking .awaiting window stopping).engine .a).step = some takenStep ∧
        takenStep.call
          = { target := .node 2, verb := 9, reply := true
              args := [(9 : BitVec 4).setWidth 8] } ∧
        takenStep.retryLimit < takenStep.tries ∧
        noWaiting (taking .awaiting window stopping) .a = true ∧
        TryEnds .a (taking .awaiting window stopping) takenStep (.replyWindowTimeout .a)
          .noReply) ∧
      TryEnds .a (taking .receiving 4 true) takenStep (.replyFrameEnd .a okReply)
        (.replied { status := .ok, noticePending := false, data := [] }) := by
  refine ⟨by decide +kernel, ?_, ?_⟩
  · intro window stopping
    exact ⟨nofun, rfl, rfl, rfl, rfl, by decide, rfl,
      .inr (.inr (.inl ⟨rfl, rfl, rfl⟩))⟩
  · exact .inr (.inr (.inr (.inr ⟨okReply, rfl, by decide +kernel, by decide +kernel⟩)))

theorem witness_ValidNoticeIsDeliveredAndTaken :
    ((listening true 1).engine .a).state = .listening ∧
      ((listening true 1).engine .a).frameStarted = true ∧
      judgeNotice noticeFrame = some { source := 2, kind := 5, seq := 9, arg := [] } ∧
      (((listening true 1).entry .a 2).lastSeq ≠ some 9 ∧
        ((listening true 1).entry .a 2).state ≠ .silent ∧ (listening true 1).buffer.length < 16) ∧
      (((listening true 1).setEntry .a 2 { NodeEntry.initial with lastSeq := some 9 }).entry .a
        2).lastSeq = some 9 := by decide +kernel

theorem witness_SlotDeadlinesExpire :
    (up.device ≠ .halted ∧ (up.ms - 0).toNat < 2 ^ 31 ∧
      ({ slotOf (.call callWork) with deferAt := some 0 }).deferAt = some 0 ∧
      (({ slotOf (.call callWork) with state := .paused, pollAt := some 0 }).pollAt = some 0 ∧
        ({ slotOf (.call callWork) with state := .paused, pollAt := some 0 }).state = .paused) ∧
      (({ slotOf (.call callWork) with expireAt := some 0 }).started = false ∧
        ({ slotOf (.call callWork) with expireAt := some 0 }).work = .call callWork ∧
        ({ slotOf (.call callWork) with expireAt := some 0 }).expireAt = some 0 ∧
        (up.resultRing (up.workRing 1).bound).out.state = .active) ∧
      ∀ a, (up.entry .a a).lock = none) ∧
    (((committing .onLine .commit).slot 0).map (fun x => (x.work, x.budgetAt, x.state))
        = some (.param (paramWork .commit), some 0, .onLine) ∧
      ((committing .paused .poll).slot 0).map
        (fun x => (x.work, x.budgetAt, x.state, x.started, x.abortPending))
        = some (.param (paramWork .poll), some 0, .paused, true, false) ∧
      (({ slotOf (.param (paramWork .poll)) with
          state := .paused, started := true, abortPending := true
          budgetAt := some 0 }).abortPending = true ∧ (paramWork .poll).verified = false ∧
        ((committing .paused .poll).resultRing
          ((committing .paused .poll).workRing 1).bound).out.state = .active) ∧
      ((committing .ready .stage1).slot 0).map
        (fun x => (x.work, x.budgetAt, x.state, x.started))
        = some (.param (paramWork .stage1), some 0, .ready, true) ∧
      ((paramWork .stage1).verified = false ∧
        ((committing .ready .stage1).resultRing
          ((committing .ready .stage1).workRing 1).bound).out.state = .active)) := by
  decide +kernel

/-- A SWEEP of node 7 in a READY slot, its only address in a mark. -/
def sweeping (m : Mark) : State :=
  up.setSlot 0 (some (slotOf (.sweep { all := true, marks := [(6, m)], step := none })))

/-- ASSIGN of address 80 to the identity 9. -/
def assignCall : Call :=
  { target := .unaddressed, verb := 1, reply := true, args := be40 9 ++ [80] }

theorem witness_SweepAndDiscoverStepsEnd :
    StepEnds .a (stepping (.sweep sweepWork) .awaiting (pingCall 6))
      { call := pingCall 6, retryLimit := 2, tries := 3, allGarbled := true } 0
      { slotOf (.sweep sweepWork) with state := .onLine, started := true }
      (.replyWindowTimeout .a) .noReply ∧
    (∀ m : Mark, ((sweeping m).slot 0).map (fun x => x.state) = some .ready ∧
      (∀ a, ((sweeping m).entry .a a).lock = none) ∧
      ((sweeping m).resultRing ((sweeping m).workRing 1).bound).out.state = .active ∧
      ∀ r, ¬Applies (sweeping m) 0
        (slotOf (.sweep { all := true, marks := [(6, m)], step := none })) r) ∧
    StepEnds .a (stepping (.discover (discoverWork .roll)) .calling (rollCall 5 8))
      { call := rollCall 5 8, retryLimit := 2, tries := 3, allGarbled := true } 0
      { slotOf (.discover (discoverWork .roll)) with state := .onLine, started := true }
      (.frameSent .a) .sent ∧
    StepEnds .a (stepping (.discover (discoverWork .assign)) .awaiting assignCall)
      { call := assignCall, retryLimit := 2, tries := 3, allGarbled := true } 0
      { slotOf (.discover (discoverWork .assign)) with state := .onLine, started := true }
      (.replyWindowTimeout .a) .noReply ∧
    pingData [0, 0, 0, 0, 9, 1, 0, 0] = some (9, 1, 0) ∧
    (discoverWork .roll).clean = [] ++ ⟨0, 9, .pending⟩ :: [] ∧
    (∀ p ∈ [CleanPosition.mk 0 9 .lost], p.mark ≠ .pending) ∧
    (discoverWork .check).current = some ⟨0, 9, .pending⟩ := by
  refine ⟨?_, ?_, ?_, ?_, by decide +kernel, rfl, by decide, rfl⟩
  · exact stepEnds_of _ _ _ _ _ _ _ (.inr (.inr (.inl ⟨rfl, by decide +kernel, rfl⟩))) (by simp)
      (by decide +kernel)
  · intro m
    cases m <;> exact ⟨by decide +kernel, by decide +kernel, by decide +kernel,
      alone_has_no_reason _ _ _ rfl (by decide +kernel) (by decide +kernel) (by decide +kernel)
        (by decide +kernel)⟩
  · exact stepEnds_of _ _ _ _ _ _ _ (.inl ⟨rfl, by decide +kernel, by decide +kernel, rfl⟩)
      (by simp) (by decide +kernel)
  · exact stepEnds_of _ _ _ _ _ _ _ (.inr (.inr (.inl ⟨rfl, by decide +kernel, rfl⟩))) (by simp)
      (by decide +kernel)

/-- The last try of a step of line A. -/
def lastTry (c : Call) : Machine.Step := { call := c, retryLimit := 2, tries := 3, allGarbled := true }

theorem test_cut_counts_the_replied_ping :
    ((after (.replyFrameEnd .a [7, 0, frameCheck [7, 0]])
      (cuttingIn (stepping (.sweep sweepWork) .receiving (pingCall 6)))).slot 0).bind
      (fun x => x.result.map fun r => (r.status, r.detail))
      = some (.lineReset, [1, 1, 0, 0, 0]) := by decide +kernel

/-- For each other holder of a line that a cut has reached, a try that ends, and a window. -/
theorem witness_CutsEndTheWorkOfALine_holders :
    (TryEnds .a (cuttingIn (stepping (.sweep sweepWork) .awaiting (pingCall 6)))
        (lastTry (pingCall 6)) (.replyWindowTimeout .a) .noReply ∧
      TryEnds .a (cuttingIn (stepping (.param (paramWork .poll)) .receiving
          (phaseCall .poll (paramWork .poll))))
        (lastTry (phaseCall .poll (paramWork .poll))) (.replyFrameEnd .a doneReply)
        (.replied { status := .done, noticePending := false, data := [0, 13] }) ∧
      TryEnds .a (cuttingIn (stepping (.discover (discoverWork .assign)) .awaiting assignCall))
        (lastTry assignCall) (.replyWindowTimeout .a) .noReply ∧
      TryEnds .a (cuttingIn (taking .awaiting 4 true)) takenStep (.replyWindowTimeout .a) .noReply ∧
      TryEnds .a (cuttingIn (reflexSending 1))
        { call := { target := .all, verb := 20, reply := false, args := [1] }, retryLimit := 1,
          tries := 1, allGarbled := true } (.frameSent .a) .sent) ∧
    ([Work.sweep sweepWork, .param (paramWork .poll), .discover (discoverWork .assign)].all
      fun w => [pingCall 6, phaseCall .poll (paramWork .poll), assignCall].all fun c =>
        let s := cuttingIn (stepping w .awaiting c)
        s.device != .halted && (s.engine .a).step == some (lastTry c) &&
          (s.engine .a).holder == .slot 0 && s.slot 0 == some (heldSlot false w) &&
          s.admin == some ⟨0x49, 9, .cutting .a false true⟩ &&
          (s.resultRing 0).out.state == .active &&
          (s.resultRing (s.workRing 1).bound).out.state == .active) = true ∧
    ([cuttingIn (reflexSending 1), cuttingIn (taking .awaiting 4 true),
        cuttingIn (listening false 1), cuttingIn (listening true 4)].all fun s =>
      s.device != .halted && s.admin == some ⟨0x49, 9, .cutting .a false true⟩ &&
        (s.resultRing 0).out.state == .active) = true ∧
    (((cuttingIn (listening true 4)).engine .a).state = .listening ∧
      ((cuttingIn (listening true 4)).engine .a).holder = .series ∧
      ((cuttingIn (listening true 4)).engine .a).frameStarted = true ∧
      ((cuttingIn (listening false 1)).engine .a).frameStarted = false ∧
      (judgeNotice noticeFrame).isSome = true) := by
  refine ⟨⟨.inr (.inr (.inl ⟨rfl, by decide +kernel, rfl⟩)),
    .inr (.inr (.inr (.inr ⟨doneReply, rfl, by decide +kernel, by decide +kernel⟩))),
    .inr (.inr (.inl ⟨rfl, by decide +kernel, rfl⟩)),
    .inr (.inr (.inl ⟨rfl, by decide +kernel, rfl⟩)),
    .inl ⟨rfl, by decide +kernel, rfl, rfl⟩⟩, by decide +kernel, by decide +kernel,
    by decide +kernel⟩

theorem witness_QuietAndHoldoffDeadlinesExpire :
    up.device ≠ .halted ∧ (up.ms - 0).toNat < 2 ^ 31 ∧
      ((up.setReflex 0 { ReflexEntry.empty with quietUntil := some 0 }).reflex 0).quietUntil
        = some 0 ∧
      (({ up with notice := { outRing with timer := some 0 } }).outRing .notice).timer = some 0 ∧
      outRing.holdoff = 0 ∧ up.ms = 0 := by
  decide +kernel

/-- Work ring 1 has a record to fetch, and so has work ring 0. -/
def posted : State :=
  (up.setWorkRing 1 { ring1 with posted := 1 }).setWorkRing 0 { ring1 with bound := 0, posted := 1 }

/-- One result is pending on result ring 1, with some entries unconsumed, and one notice waits. -/
def unwritten (n : Nat) : State :=
  { (up.setResultRing 1 { writing.resultRing 1 with
      out := { outRing with written := BitVec.ofNat 16 n } }) with
    buffer := [{ body := .lineUp .off, line := some .a, stamp := 0, lost := 0 }]
    notice := { outRing with written := BitVec.ofNat 16 n } }

/-- A BAD_TAKE has made result ring 1 FAULTED while its record is being written; its lost count is at
its end. -/
def faultedWriting : State :=
  writing.setResultRing 1 { writing.resultRing 1 with
    lost := 65535, out := (faultedRing (.record ⟨0, []⟩ false)).out }

theorem test_written_result_on_a_faulted_ring_signals_nothing :
    let t := after (.resultRecordWritten 1) faultedWriting
    ((t.slot 0).isNone, (t.resultRing 1).out.written, (t.resultRing 1).out.timer,
      (t.resultRing 1).out.signalled) = (true, 1, none, false) := by decide +kernel

theorem witness_RingUnitWritesAndFetches :
    (∀ n ∈ [7, 8], (unwritten n).device ≠ .halted ∧
      ((unwritten n).resultRing 1).out.state = .active ∧
      ((unwritten n).resultRing 1).out.access = .idle ∧
      ((unwritten n).resultRing 1).pending.length = 1 ∧
      (unwritten n).notice.state = .active ∧ (unwritten n).notice.access = .idle ∧
      (unwritten n).adminWaits .closingNotice = false ∧ (unwritten n).buffer.length = 1) ∧
    ((posted.device = .running ∧ posted.workFetch = none ∧ posted.freeSlots ≠ []) ∧
      ((serviceRings posted).workRing 1).state = .active ∧
      0 < ((posted.workRing 1).posted - (posted.workRing 1).fetched).toNat ∧
      posted.ringSlots 1 < (posted.workRing 1).credit ∧ (posted.workRing 1).cls ≠ .bulk) ∧
    (posted.adminFetch = none ∧ (posted.workRing 0).state = .active ∧ posted.admin = none ∧
      0 < ((posted.workRing 0).posted - (posted.workRing 0).fetched).toNat) ∧
    up.adminFetch = none ∧ (up.workRing 0).posted = (up.workRing 0).fetched ∧
    (∀ p ∈ [(writing, OutState.active), (faultedWriting, .faulted)], p.1.device ≠ .halted ∧
      (p.1.resultRing 1).out.state = p.2 ∧
      (p.1.resultRing 1).out.access = .record ⟨0, []⟩ false ∧
      (p.1.resultRing 1).pending.map (fun r => r.sender) = [.slot 0]) ∧
    (({ up with notice := { outRing with access := .progress ⟨0, []⟩ true } }).outRing
      .notice).access = .progress ⟨0, []⟩ true := by decide +kernel

theorem witness_WriteFaultsFaultTheResultRing :
    (writing.device ≠ .halted ∧ (writing.resultRing 1).out.state = .active ∧
        (writing.resultRing 1).out.access = .record ⟨0, []⟩ false ∧
        (writing.resultRing 1).lost + (writing.resultRing 1).pending.length ≤ 65535 ∧
        writing.buffer.length < 16 ∧ (writing.workRing 1).bound = 1 ∧
        (writing.workRing 1).state = .active) ∧
      ((up.setResultRing 0 { ResultRing.reset with
        out := { outRing with access := .progress ⟨0, []⟩ false } }).resultRing 0).out.access
        = .progress ⟨0, []⟩ false ∧
      (faultedWriting.device ≠ .halted ∧ (faultedWriting.resultRing 1).out.state = .faulted ∧
        (faultedWriting.resultRing 1).out.access = .record ⟨0, []⟩ false ∧
        (faultedWriting.resultRing 1).lost = 65535 ∧
        (faultedWriting.resultRing 1).pending.length = 1) ∧
      (faultedRing (.progress ⟨0, []⟩ false)).out.access = .progress ⟨0, []⟩ false := by
  decide +kernel

theorem witness_NoticeWritesEnd :
    noticeWriting.device ≠ .halted ∧ noticeWriting.notice.state = .active ∧
      noticeWriting.notice.access = .record ⟨0, []⟩ false ∧
      ({ noticeWriting.notice with state := .faulted }.state = .faulted ∧
        { noticeWriting.notice with state := .faulted }.access = .record ⟨0, []⟩ false) ∧
      (noticeClosing.device ≠ .halted ∧
        noticeClosing.admin = some ⟨0x45, 9, .closingNotice⟩ ∧
        (noticeClosing.resultRing 0).out.state = .active ∧
        noticeClosing.notice.access = .record ⟨0, []⟩ false) ∧
      (after .noticeRecordWritten noticeClosing).notice.access
        = .progress ⟨0, [1, 0, 0, 0]⟩ false := by decide +kernel

/-- Node 3 is SILENT with identity 7, and identity 9 stands at node 5, its store UNKNOWN. -/
def known : State :=
  (up.setEntry .a 2 { NodeEntry.initial with state := .silent, identity := some 7 }).setEntry .a 4
    { NodeEntry.initial with
      state := .present, identity := some 9, store := .unknown, lock := some 3 }

/-- PING data of identity 9, kind 1 and zones 9 and 1, with the other four bits set. -/
def nineData : List Byte := [0, 0, 0, 0, 9, 1, 0xF1, 1]

/-- A reply OK with those data. -/
def nineReply : Reply := { status := .ok, noticePending := false, data := nineData }

theorem test_ping_data_moves_the_identity_and_its_store :
    let t := reportStep .a (pingCall 2) false (.replied nineReply) known
    ((t.entry .a 2).store, (t.entry .a 2).zones, (t.entry .a 4).state, (t.entry .a 4).lock,
      t.buffer.map fun n => n.body)
      = (.unknown, some 0x101, .vacant, some 3,
        [.nodeBack 2 (some 7), .nodeReplaced 2 7 9, .nodeMoved 4 2 9]) := by decide +kernel

theorem witness_TableFollowsReportsAndUpdates :
    ((pingCall 2).target = .node 2 ∧ (pingCall 2).reply = true ∧ (pingCall 2).verb = 0 ∧
        nineReply.status = .ok ∧ pingData nineReply.data = some (9, 1, 0x101) ∧
        (known.entry .a 2).state = .silent ∧
        ∀ b, some 4 = some b ↔ b ≠ 2 ∧ (known.entry .a b).identity = some 9) ∧
      (listenCall.reply = false ∧ pingData [] = none) ∧
      ((discoverWork .assign).phase = .assign ∧ (discoverWork .assign).candidate = some 79 ∧
        (known.entry .a 79).state ≠ .clash ∧
        (∀ b, some 4 = some b ↔ b ≠ 79 ∧ (known.entry .a b).identity = some 9) ∧
        ((known.setEntry .a 79 { NodeEntry.initial with state := .clash }).entry .a 79).state
          = .clash ∧ (discoverWork .check).phase ≠ .assign) ∧
      (({ callWork with verb := 2 }).verb = 2 ∧ callWork.target = .node 2 ∧
        ({ callWork with target := .all }).target = .all ∧ callWork.verb ≠ 2) ∧
      ((9 : UnitNo) ≠ 0 ∧ nineData = be40 9 ++ [1, 0xF1, (0x101 : ZoneSet).setWidth 8] ∧
        (0xF1 : Byte).setWidth 4 = ((0x101 : ZoneSet) >>> 8).setWidth 4) := by decide +kernel

theorem witness_FramesReadBackAsTheirFields :
    (pingCall 16).target = .node 16 ∧ [1, 2, 3, 4, 5, 6, 7, (8 : Byte)].length ≤ 8 ∧
      [1, 2, (3 : Byte)].length ≤ 3 ∧
      (∀ v : Byte, crcShift v = if v.getLsbD 7 = true then (v <<< 1) ^^^ 0x4D else v <<< 1) ∧
      judgeReply (pickCall 5) [0, 0x80, 7, frameCheck [0, 0x80, 7]]
        = some { status := .ok, noticePending := true, data := [7] } ∧
      judgeReply (assignCall) [80, 4, frameCheck [80, 4]]
        = some { status := .locked, noticePending := false, data := [] } ∧
      judgeReply (rollCall 5 8) [0, 0, frameCheck [0, 0]] = none := by decide +kernel

theorem witness_ReadySlotsHaveNoReason :
    ((settleLine .a ((up.setEngine .a busyLine).setSlot 0
      (some (slotOf (.call callWork))))).slot 0).map (fun x => (x.line, x.state))
      = some (.a, .ready) := by decide +kernel

theorem witness_ArbiterGrantsToTheFirstSlot :
    (∀ i x, waiting.slot i = some x → (x.seq - 0).toNat < 2 ^ 31) ∧
      (∃ rank : Slot → Nat, ∀ x, rank x = if x.started = true then 0
        else match x.cls with | .urgent => 1 | .normal => 2 | .bulk => 3) ∧
      (chooseSlot waiting .a).map (fun p => p.1) = some 1 := by
  refine ⟨?_, ⟨_, fun _ => rfl⟩, by decide +kernel⟩
  intro i x h
  have key : ∀ i, ((waiting.slot i).all fun x => decide ((x.seq - 0).toNat < 2 ^ 31)) = true := by
    decide +kernel
  simpa [h] using key i

theorem witness_EveryStepKeepsTheWorkCountLaw : WorkCountLaw up where
  ahead := by decide +kernel
  fetch := by intro f h; cases h
  admin := by intro h; cases h
  idle := by decide +kernel

theorem witness_EveryStepKeepsTheBufferLaw : BufferLaw up where
  buffer := by decide +kernel
  lost := by decide +kernel
  queue := by intro l; cases l <;> decide +kernel

theorem witness_EveryStepKeepsTheOutCountLaw : OutCountLaw up := by
  have key : ∀ n : RingName, (up.outRing n).size ≤ 1024 ∧
      (up.outRing n).unconsumed ≤ (up.outRing n).size ∧ (up.outRing n).access = .idle := by
    have results : ∀ q : ResultRingId, (up.outRing (.result q)).size ≤ 1024 ∧
        (up.outRing (.result q)).unconsumed ≤ (up.outRing (.result q)).size ∧
        (up.outRing (.result q)).access = .idle := by decide +kernel
    intro n
    cases n with
    | result q => exact results q
    | notice => decide +kernel
  intro n
  exact ⟨(key n).1, (key n).2.1, fun w h => by rw [(key n).2.2] at h; cases h⟩

theorem witness_EveryStepKeepsTheCreditLaw : CreditLaw up := by
  have key : ∀ r : WorkRingId, r ≠ 0 →
      ((up.workRing r).state = .closed → up.ringSlots r = 0) ∧
      ((up.workRing r).state ≠ .closed → up.ringSlots r ≤ (up.workRing r).credit) := by
    decide +kernel
  exact key

/-- One entry of line A holds an identity. -/
def named : State := up.setEntry .a 2 { NodeEntry.initial with identity := some 9 }

theorem witness_EveryStepKeepsTheIdentityLaw : IdentityLaw named := by
  have onA : ∀ a : Addr, (named.entry .a a).identity.isSome = true → a = 2 := by decide +kernel
  have onB : ∀ a : Addr, (named.entry .b a).identity = none := by decide +kernel
  intro l a b u ha hb
  cases l with
  | a => exact (onA a (by rw [ha]; rfl)).trans (onA b (by rw [hb]; rfl)).symm
  | b => rw [onB a] at ha; cases ha

end Sys2Proof.Tests
end

/-! The node table: what the table's updates, NODE_CLEAR and the reports of ended steps do to the
entries and to the notice buffer. -/

namespace Sys2Proof.NodeTable

open Sys2Proof Sys2Proof.Machine Sys2Proof.Safety Sys2Proof.Laws

/-! ## Requests of the admin unit -/

/-- With result ring 0 ACTIVE a request's meaning runs on the state that has taken it. -/
theorem takeAdmin_ready {s : State} (h : AdminReady s) (r : Record) (run : State → State) :
    takeAdmin r run s = serviceRings (run (requestTaken r s)) := by
  obtain ⟨f, hf⟩ := Option.isSome_iff_exists.mp h.fetch
  have live : ({ s with adminFetch := none } : State).live = true := by simp [State.live, h.live]
  unfold takeAdmin
  rw [hf]
  exact if_pos live

/-- A request that has been taken is answered on result ring 0. -/
theorem adminAnswer_requestTaken {s m : State} {r : Record} (h : AdminReady s)
    (admin : m.admin = (requestTaken r s).admin)
    (results : m.results = (requestTaken r s).results) (st : Status) (d : List Byte) :
    adminAnswer st d m = answered r[0] (recordTag r) st d m := by
  refine adminAnswer_active (a := ⟨r[0], recordTag r, .answered⟩) admin ?_ st d
  have ring : m.resultRing 0 = s.resultRing 0 := congrArg (fun v => v[(0 : ResultRingId)]) results
  rw [ring]
  exact h.ring

/-! ## NODE_CLEAR -/

theorem addrOf_eq_none {b : Byte} (h : b = 0 ∨ 81 ≤ b.toNat) : addrOf b = none := by
  refine dif_neg ?_
  rcases h with rfl | h
  · decide
  · omega

theorem addrOf_eq_some {b : Byte} {a : Addr} (h : a.val + 1 = b.toNat) : addrOf b = some a := by
  have range : 1 ≤ b.toNat ∧ b.toNat ≤ 80 := by omega
  unfold addrOf
  rw [dif_pos range]
  exact congrArg some (Fin.ext (by dsimp only; omega))

theorem lineOf_code (l : Line) : lineOf (match l with | .a => 0 | .b => 1) = some l := by
  cases l <;> rfl

theorem decodeNodeClear_eq {r : Record} {l : Line} (hl : r[12] = match l with | .a => 0 | .b => 1) :
    decodeNodeClear r = (addrOf r[13]).map fun a => (l, a) := by
  have line : lineOf r[12] = some l := by rw [hl]; exact lineOf_code l
  simp only [decodeNodeClear, line]
  cases addrOf r[13] <;> rfl

theorem exec_nodeClear {s : State} (h : AdminReady s) (r : Record) :
    exec (.nodeClear r) s = .next (serviceRings
      (checked (decodeNodeClear r) (fun p => clearNode p.1 p.2) (requestTaken r s))) :=
  congrArg Host.Outcome.next (takeAdmin_ready h r _)

/-- R59: a record whose address is out of range is refused. -/
theorem nodeClear_badRecord {r : Record} {s : State} {l : Line} (h : AdminReady s)
    (hl : r[12] = match l with | .a => 0 | .b => 1) (ha : r[13] = 0 ∨ 81 ≤ r[13].toNat) :
    ∃ t, exec (.nodeClear r) s = .next t ∧
      Serviced (answered r[0] (recordTag r) .badRecord [] (requestTaken r s)) t := by
  have fields : decodeNodeClear r = none := by rw [decodeNodeClear_eq hl, addrOf_eq_none ha]; rfl
  refine ⟨_, exec_nodeClear h r, ?_⟩
  rw [fields, checked, adminAnswer_requestTaken h rfl rfl]
  exact serviceRings_serviced _

/-- A record in range reaches the entry it names. -/
theorem exec_nodeClear_of_addr {r : Record} {s : State} {l : Line} {a : Addr} (h : AdminReady s)
    (hl : r[12] = match l with | .a => 0 | .b => 1) (ha : a.val + 1 = r[13].toNat) :
    exec (.nodeClear r) s = .next (serviceRings (clearNode l a (requestTaken r s))) := by
  have fields : decodeNodeClear r = some (l, a) := by
    rw [decodeNodeClear_eq hl, addrOf_eq_some ha]; rfl
  rw [exec_nodeClear h, fields]
  rfl

theorem clearNode_locked {r : Record} {s : State} {l : Line} {a : Addr} (h : AdminReady s)
    (lock : (s.entry l a).lock.isSome = true) :
    clearNode l a (requestTaken r s) =
      answered r[0] (recordTag r) .badState [] (requestTaken r s) :=
  (if_pos lock).trans (adminAnswer_requestTaken h rfl rfl _ _)

/-- The state with an unlocked entry cleared and the request answered, before the line is settled. -/
def cleared (r : Record) (l : Line) (a : Addr) (s : State) : State :=
  answered r[0] (recordTag r) .ok [] ((requestTaken r s).setEntry l a NodeEntry.initial)

theorem adminAnswer_cleared {s : State} (h : AdminReady s) (r : Record) (l : Line) (a : Addr) :
    adminAnswer .ok [] ((requestTaken r s).setEntry l a NodeEntry.initial) = cleared r l a s :=
  adminAnswer_requestTaken (m := (requestTaken r s).setEntry l a NodeEntry.initial) h rfl rfl _ _

theorem clearNode_unlocked {r : Record} {s : State} {l : Line} {a : Addr} (h : AdminReady s)
    (lock : (s.entry l a).lock = none) :
    clearNode l a (requestTaken r s) = settleLine l (cleared r l a s) := by
  have free : ¬((requestTaken r s).entry l a).lock.isSome = true := by
    show ¬(s.entry l a).lock.isSome = true
    simp [lock]
  exact (if_neg free).trans (congrArg (settleLine l) (adminAnswer_cleared h r l a))

theorem cleared_entry (r : Record) (l : Line) (a : Addr) (s : State) :
    (cleared r l a s).entry l a = NodeEntry.initial := entry_setEntry_self (requestTaken r s) l a _

theorem cleared_entry_ne (r : Record) (l : Line) {a b : Addr} (s : State) (h : b ≠ a) :
    (cleared r l a s).entry l b = s.entry l b := entry_setEntry_ne (requestTaken r s) l _ h

theorem cleared_results (r : Record) (l : Line) (a : Addr) (s : State) :
    ((cleared r l a s).resultRing 0).pending = (s.resultRing 0).pending ++
      [{ sender := .admin, code := r[0], status := .ok, ring := 0, tag := recordTag r,
         detail := [] }] :=
  congrArg ResultRing.pending (resultRing_setResultRing_self (requestTaken r s) 0 _)

theorem cleared_worked {r : Record} {s : State} {l : Line} {a : Addr} (h : AdminReady s) :
    Worked (requestTaken r s) (cleared r l a s) := by
  rw [← adminAnswer_cleared h]
  exact worked_adminAnswer (worked_setEntry (worked_refl _) _ _ _) _ _

/-- Settles O31: NODE_CLEAR's three outcomes, by the record's address and the entry's lock. -/
theorem nodeClearReturnsTheInitialEntry : Obligations.NodeClearReturnsTheInitialEntry := by
  intro r s l h hl
  refine ⟨nodeClear_badRecord h hl, fun a ha => ⟨fun lock => ?_, fun lock => ?_⟩⟩
  · have serviced := serviceRings_serviced
      (answered r[0] (recordTag r) .badState [] (requestTaken r s))
    refine ⟨_, exec_nodeClear_of_addr h hl ha, ?_⟩
    rw [clearNode_locked h lock]
    refine ⟨serviced, ?_⟩
    simp only [State.entry, State.table, serviced.nodes]
    rfl
  · have settled := settleLine_settled l (cleared r l a s)
    have serviced := serviceRings_serviced (settleLine l (cleared r l a s))
    refine ⟨cleared r l a s, _, exec_nodeClear_of_addr h hl ha, cleared_worked h, ?_⟩
    rw [clearNode_unlocked h lock]
    exact ⟨⟨_, settled, serviced⟩, cleared_entry r l a s,
      fun b hb => cleared_entry_ne r l s hb, rfl, fun _ => rfl,
      serviced.buffer.trans settled.kept.buffer, serviced.lost.trans settled.kept.lost,
      ⟨_, cleared_results r l a s, List.mem_singleton_self _⟩⟩

/-! ## Notices and the table -/

@[simp] theorem createNotice_nodes (k : Option Line) (b : NoticeBody) (s : State) :
    (createNotice k b s).nodes = s.nodes := by
  unfold createNotice
  split <;> rfl

@[simp] theorem createNotice_table (k : Option Line) (b : NoticeBody) (s : State) (l : Line) :
    (createNotice k b s).table l = s.table l := by
  simp only [State.table, createNotice_nodes]

@[simp] theorem createNotice_entry (k : Option Line) (b : NoticeBody) (s : State) (l : Line)
    (a : Addr) : (createNotice k b s).entry l a = s.entry l a := by
  simp only [State.entry, createNotice_table]

/-- A notice is created alike over any table. -/
theorem createNotice_withNodes (k : Option Line) (b : NoticeBody) (s : State)
    (n : Pair (Vector NodeEntry 80)) :
    { createNotice k b s with nodes := n } = createNotice k b { s with nodes := n } := by
  unfold createNotice
  split <;> rfl

theorem createNotice_setEntry_buffer (k : Option Line) (b : NoticeBody) (s : State) (l : Line)
    (a : Addr) (e : NodeEntry) :
    (createNotice k b (s.setEntry l a e)).buffer = (createNotice k b s).buffer :=
  (congrArg State.buffer (createNotice_withNodes k b s _)).symm

/-- Notices of a line created in the order of a list, where they apply. -/
def noteAll (l : Line) (bodies : List (Option NoticeBody)) (s : State) : State :=
  bodies.foldl (fun n body => match body with | some b => createNotice (some l) b n | none => n) s

theorem noteAll_cons (l : Line) (body : Option NoticeBody) (bodies : List (Option NoticeBody))
    (s : State) : noteAll l (body :: bodies) s = noteAll l bodies (noteAll l [body] s) := rfl

@[simp] theorem noteAll_nodes (l : Line) (bodies : List (Option NoticeBody)) (s : State) :
    (noteAll l bodies s).nodes = s.nodes := by
  induction bodies generalizing s with
  | nil => rfl
  | cons body bodies ih =>
    rw [noteAll_cons, ih]
    cases body with
    | none => rfl
    | some b => exact createNotice_nodes _ _ _

@[simp] theorem noteAll_table (l : Line) (bodies : List (Option NoticeBody)) (s : State) (k : Line) :
    (noteAll l bodies s).table k = s.table k := by
  simp only [State.table, noteAll_nodes]

@[simp] theorem noteAll_entry (l : Line) (bodies : List (Option NoticeBody)) (s : State) (k : Line)
    (a : Addr) : (noteAll l bodies s).entry k a = s.entry k a := by
  simp only [State.entry, noteAll_table]

theorem noteAll_withNodes (l : Line) (bodies : List (Option NoticeBody)) (s : State)
    (n : Pair (Vector NodeEntry 80)) :
    { noteAll l bodies s with nodes := n } = noteAll l bodies { s with nodes := n } := by
  induction bodies generalizing s with
  | nil => rfl
  | cons body bodies ih =>
    rw [noteAll_cons, ih]
    cases body with
    | none => rfl
    | some b => exact congrArg (noteAll l bodies) (createNotice_withNodes _ _ _ _)

/-! ## Misses, garbles and hearings -/

theorem missStep_entry (l : Line) (a : Addr) (s : State) :
    (missStep l a s).entry l a = (s.entry l a).missed (s.engine l).config.silence := by
  unfold missStep
  dsimp only
  split <;> simp

theorem missStep_entry_ne (l : Line) {a b : Addr} (s : State) (h : b ≠ a) :
    (missStep l a s).entry l b = s.entry l b := by
  unfold missStep
  dsimp only
  split <;> simp [entry_setEntry_ne s l _ h]

theorem missStep_buffer (l : Line) (a : Addr) (s : State) :
    (missStep l a s).buffer =
      if (s.entry l a).state = .present ∧
          (s.engine l).config.silence ≤ (s.entry l a).misses + 1 then
        (createNotice (some l) (.nodeSilent a (s.entry l a).identity
          (min 15 ((s.entry l a).misses + 1))) s).buffer
      else s.buffer := by
  unfold missStep NodeEntry.missed
  dsimp only
  cases h : (s.entry l a).state
  case present =>
    by_cases silent : (s.engine l).config.silence ≤ (s.entry l a).misses + 1 <;>
      simp [silent, createNotice_setEntry_buffer]
  all_goals simp

/-- What a step that ended NO_REPLY does to an entry, to the other entries and to the buffer (R46). -/
theorem missStep_spec (l : Line) (a : Addr) (s : State) :
    ∃ e, (missStep l a s).entry l a = e ∧ e.garbles = 0 ∧
      { e with state := (s.entry l a).state, misses := (s.entry l a).misses,
               garbles := (s.entry l a).garbles } = s.entry l a ∧
      (∀ b, b ≠ a → (missStep l a s).entry l b = s.entry l b) ∧
      (match (s.entry l a).state with
      | .vacant => e.state = .vacant ∧ e.misses = (s.entry l a).misses ∧
          (missStep l a s).buffer = s.buffer
      | .present => e.misses = min 15 ((s.entry l a).misses + 1) ∧
          (if (s.engine l).config.silence ≤ (s.entry l a).misses + 1 then
            e.state = .silent ∧ (missStep l a s).buffer = (createNotice (some l)
              (.nodeSilent a (s.entry l a).identity e.misses) s).buffer
          else e.state = .present ∧ (missStep l a s).buffer = s.buffer)
      | st => e.state = st ∧ e.misses = min 15 ((s.entry l a).misses + 1) ∧
          (missStep l a s).buffer = s.buffer) := by
  have buffer := missStep_buffer l a s
  refine ⟨_, missStep_entry l a s, ?_, ?_, fun b hb => missStep_entry_ne l s hb, ?_⟩
  · unfold NodeEntry.missed
    split <;> rfl
  · unfold NodeEntry.missed
    split <;> rfl
  · cases h : (s.entry l a).state
    case present =>
      by_cases silent : (s.engine l).config.silence ≤ (s.entry l a).misses + 1
        <;> simp [NodeEntry.missed, h, silent, buffer]
    all_goals simp [NodeEntry.missed, h, buffer]

theorem garbleStep_entry (l : Line) (a : Addr) (all : Bool) (s : State) :
    (garbleStep l a all s).entry l a = (s.entry l a).garbledStep all := by
  unfold garbleStep
  dsimp only
  split <;> simp

theorem garbleStep_entry_ne (l : Line) {a b : Addr} (all : Bool) (s : State) (h : b ≠ a) :
    (garbleStep l a all s).entry l b = s.entry l b := by
  unfold garbleStep
  dsimp only
  split <;> simp [entry_setEntry_ne s l _ h]

theorem garbleStep_buffer (l : Line) (a : Addr) (all : Bool) (s : State) :
    (garbleStep l a all s).buffer =
      if (s.entry l a).state ≠ .clash ∧ all = true ∧ 3 ≤ (s.entry l a).garbles + 1 then
        (createNotice (some l) (.nodeClash a (s.entry l a).state (s.entry l a).identity) s).buffer
      else s.buffer := by
  have clash : ((s.entry l a).state ≠ .clash ∧ ((s.entry l a).garbledStep all).state = .clash) ↔
      ((s.entry l a).state ≠ .clash ∧ all = true ∧ 3 ≤ (s.entry l a).garbles + 1) := by
    refine and_congr_right fun known => ?_
    cases all <;> simp [NodeEntry.garbledStep, known]
    omega
  unfold garbleStep
  simp only [clash]
  split
  · exact createNotice_setEntry_buffer _ _ _ _ _ _
  · rfl

/-- What a step that ended GARBLED does to an entry, to the other entries and to the buffer (R47). -/
theorem garbleStep_spec (l : Line) (a : Addr) (all : Bool) (s : State) :
    ∃ e, (garbleStep l a all s).entry l a = e ∧
      { e with state := (s.entry l a).state, garbles := (s.entry l a).garbles } = s.entry l a ∧
      (∀ b, b ≠ a → (garbleStep l a all s).entry l b = s.entry l b) ∧
      e.garbles = (if all = true then min 3 ((s.entry l a).garbles + 1) else 0) ∧
      (if all = true ∧ 3 ≤ (s.entry l a).garbles + 1 then
        e.state = .clash ∧ (garbleStep l a all s).buffer =
          (if (s.entry l a).state = .clash then s.buffer
          else (createNotice (some l)
            (.nodeClash a (s.entry l a).state (s.entry l a).identity) s).buffer)
      else e.state = (s.entry l a).state ∧ (garbleStep l a all s).buffer = s.buffer) := by
  have buffer := garbleStep_buffer l a all s
  refine ⟨_, garbleStep_entry l a all s, ?_, fun b hb => garbleStep_entry_ne l all s hb, ?_, ?_⟩
  · cases all <;> rfl
  · cases all <;> rfl
  · rw [buffer]
    cases all with
    | false => simp [NodeEntry.garbledStep]
    | true =>
      by_cases third : 3 ≤ (s.entry l a).garbles + 1 <;> simp [NodeEntry.garbledStep, third]

/-- What a hearing does to a state (R45). -/
theorem hear_eq (l : Line) (a : Addr) (s : State) :
    hear l a s =
      (if (s.entry l a).state = .silent then
        createNotice (some l) (.nodeBack a (s.entry l a).identity) else fun n => n)
      (s.setEntry l a
        (if (s.entry l a).state = .clash then { s.entry l a with lastHeard := some s.ms }
        else { s.entry l a with
          state := .present, misses := 0, garbles := 0, lastHeard := some s.ms })) := by
  cases h : (s.entry l a).state <;> simp [hear, NodeEntry.heard, h]

/-- A heard entry that is not CLASH (R45, R55). -/
def heardEntry (t : Word) (e : NodeEntry) : NodeEntry :=
  { e with state := .present, misses := 0, garbles := 0, lastHeard := some t }

/-- The state in which an entry that is not CLASH has been heard, with a first notice created (R45,
R55). -/
def marked (l : Line) (a : Addr) (first : Option NoticeBody) (s : State) : State :=
  noteAll l [first] (s.setEntry l a (heardEntry s.ms (s.entry l a)))

theorem marked_entry (l : Line) (a : Addr) (first : Option NoticeBody) (s : State) :
    (marked l a first s).entry l a = heardEntry s.ms (s.entry l a) := by
  rw [marked, noteAll_entry, entry_setEntry_self]

theorem marked_entry_ne (l : Line) {a b : Addr} (first : Option NoticeBody) (s : State)
    (h : b ≠ a) : (marked l a first s).entry l b = s.entry l b := by
  rw [marked, noteAll_entry, entry_setEntry_ne s l _ h]

theorem marked_table {l k : Line} (a : Addr) (first : Option NoticeBody) (s : State) (h : k ≠ l) :
    (marked l a first s).table k = s.table k := by
  rw [marked, noteAll_table, table_setEntry_other s a _ h]

theorem marked_withNodes (l : Line) (a : Addr) (first : Option NoticeBody) (s : State) :
    { marked l a first s with nodes := s.nodes } = noteAll l [first] s := noteAll_withNodes _ _ _ _

/-- The notice of a hearing (R45). -/
def backNotice (a : Addr) (e : NodeEntry) : Option NoticeBody :=
  if e.state = .silent then some (.nodeBack a e.identity) else none

theorem hear_of_ne_clash {l : Line} {a : Addr} {s : State} (h : (s.entry l a).state ≠ .clash) :
    hear l a s = marked l a (backNotice a (s.entry l a)) s := by
  rw [hear_eq, if_neg h]
  by_cases silent : (s.entry l a).state = .silent
  · rw [backNotice, if_pos silent, if_pos silent]; rfl
  · rw [backNotice, if_neg silent, if_neg silent]; rfl

/-! ## Identities -/

theorem setEntry_withNodes (l : Line) (a : Addr) (e : NodeEntry) (s : State)
    (n : Pair (Vector NodeEntry 80)) :
    { s.setEntry l a e with nodes := n } = { s with nodes := n } := rfl

/-- The other holder of an identity, where the table has at most one (R50). -/
theorem holderOf_eq {s : State} {l : Line} {a : Addr} {u : UnitNo} {former : Option Addr}
    (h : ∀ b, former = some b ↔ b ≠ a ∧ (s.entry l b).identity = some u) :
    holderOf s l a u = former := by
  have meets : ∀ b, (b != a && (s.entry l b).identity == some u) = true ↔ former = some b := by
    intro b
    simp [h b]
  unfold holderOf
  cases found : allAddrs.find? fun b => b != a && (s.entry l b).identity == some u with
  | some b =>
    have met := List.find?_some found
    exact ((meets b).mp met).symm
  | none =>
    cases former with
    | none => rfl
    | some b =>
      exact absurd ((meets b).mpr rfl)
        (List.find?_eq_none.mp found b (List.mem_finRange b))

/-- The former holder of an identity is made VACANT (R50). -/
def vacateFormer (l : Line) (former : Option Addr) (s : State) : State :=
  match former with
  | none => s
  | some b => s.setEntry l b (s.entry l b).vacated

theorem vacateFormer_withNodes (l : Line) (former : Option Addr) (s : State)
    (n : Pair (Vector NodeEntry 80)) :
    { vacateFormer l former s with nodes := n } = { s with nodes := n } := by
  cases former <;> rfl

theorem vacateFormer_entry {l : Line} {former : Option Addr} {b : Addr} (s : State)
    (h : former ≠ some b) : (vacateFormer l former s).entry l b = s.entry l b := by
  cases former with
  | none => rfl
  | some c => exact entry_setEntry_ne s l _ fun e => h (congrArg some e.symm)

theorem vacateFormer_entry_former (l : Line) (b : Addr) (s : State) :
    (vacateFormer l (some b) s).entry l b = (s.entry l b).vacated := entry_setEntry_self s l b _

theorem vacateFormer_table {l k : Line} (former : Option Addr) (s : State) (h : k ≠ l) :
    (vacateFormer l former s).table k = s.table k := by
  cases former with
  | none => rfl
  | some b => exact table_setEntry_other s b _ h

/-- The notice of an identity that replaces another (R50). -/
def replacedNotice (a : Addr) (u : UnitNo) (previous : Option UnitNo) : Option NoticeBody :=
  match previous with
  | some v => if v = u then none else some (.nodeReplaced a v u)
  | none => none

/-- An entry with an identity written to it (R50). -/
def withIdentity (u : UnitNo) (other : Option StoreState) (e : NodeEntry) : NodeEntry :=
  { e with
    identity := some u
    store := storeWith other (e.identity.isSome && e.identity != some u) e.store }

/-- The table and the notices of a written identity, in one update each (R50). -/
theorem writeIdentity_eq {l : Line} {a : Addr} {u : UnitNo} {s : State} {former : Option Addr}
    (h : holderOf s l a u = former) :
    writeIdentity l a u s =
      noteAll l [replacedNotice a u (s.entry l a).identity, former.map fun b => .nodeMoved b a u]
        (vacateFormer l former (s.setEntry l a
          (withIdentity u (former.map fun b => (s.entry l b).store) (s.entry l a)))) := by
  unfold writeIdentity
  rw [h]
  cases e : (s.entry l a).identity with
  | none => cases former <;> simp [e, withIdentity, noteAll, vacateFormer, replacedNotice]
  | some v =>
    by_cases same : v = u
    all_goals
      cases former <;> simp [e, same, withIdentity, noteAll, vacateFormer, replacedNotice]

/-- The store state that R50 gives, as the statement spells it. -/
theorem storeWith_eq (other : Option StoreState) (previous : Option UnitNo) (u : UnitNo)
    (own : StoreState) :
    storeWith other (previous.isSome && previous != some u) own =
      if other = some .unknown then .unknown
      else if previous ≠ none ∧ previous ≠ some u then .clean else own := by
  simp [storeWith, Option.isSome_iff_ne_none]

theorem holderOf_marked {l : Line} {a : Addr} {u : UnitNo} {s : State} {former : Option Addr}
    (first : Option NoticeBody)
    (h : ∀ b, former = some b ↔ b ≠ a ∧ (s.entry l b).identity = some u) :
    holderOf (marked l a first s) l a u = former :=
  holderOf_eq fun b => (h b).trans (and_congr_right fun hb => by rw [marked_entry_ne l first s hb])

/-- The data that PING and ASSIGN bring, written to an entry that has just been heard (R49, R50,
R55). -/
theorem writeIdentity_dataTaken {l : Line} {a : Addr} {u : UnitNo} {s : State}
    {former : Option Addr} (kind : Byte) (zones : ZoneSet) (first : Option NoticeBody)
    (h : ∀ b, former = some b ↔ b ≠ a ∧ (s.entry l b).identity = some u) :
    DataTaken l a u kind zones former first s
      (writeKindZones l a kind zones (writeIdentity l a u (marked l a first s))) := by
  have apart : ∀ b, former = some b → b ≠ a := fun b hb => ((h b).mp hb).1
  have store : (former.map fun b => ((marked l a first s).entry l b).store) =
      former.map fun b => (s.entry l b).store :=
    Option.map_congr fun b hb => by rw [marked_entry_ne l first s (apart b hb)]
  rw [writeIdentity_eq (holderOf_marked first h), writeKindZones, noteAll_entry,
    vacateFormer_entry _ fun e => apart a e rfl, entry_setEntry_self, store, marked_entry]
  exact
    { entry := by
        rw [entry_setEntry_self]
        simp only [withIdentity, heardEntry, storeWith_eq]
      vacated := by
        intro b hb
        rw [entry_setEntry_ne _ _ _ (apart b hb), noteAll_entry, hb, vacateFormer_entry_former,
          entry_setEntry_ne _ _ _ (apart b hb), marked_entry_ne _ _ _ (apart b hb)]
        rfl
      others := by
        intro b hb hf
        rw [entry_setEntry_ne _ _ _ hb, noteAll_entry, vacateFormer_entry _ hf,
          entry_setEntry_ne _ _ _ hb, marked_entry_ne _ _ _ hb]
      otherLine := by
        intro k hk
        rw [table_setEntry_other _ _ _ hk, noteAll_table, vacateFormer_table _ _ hk,
          table_setEntry_other _ _ _ hk, marked_table _ _ _ hk]
      notices := by
        rw [setEntry_withNodes, noteAll_withNodes, vacateFormer_withNodes, setEntry_withNodes,
          marked_withNodes, ← noteAll_cons]
        rfl }

/-! ## Reports of ended steps -/

/-- Only the end of a try that calls a node with reply is reported (R32). -/
theorem reportStep_unreported {l : Line} {c : Call} {g : Bool} {o : TryOutcome} {s : State}
    (h : c.reply = false ∨ ∀ a, c.target ≠ .node a) : reportStep l c g o s = s := by
  unfold reportStep
  rcases h with silent | target
  · split <;> simp [silent]
  · split
    case h_4 => rfl
    all_goals exact absurd (by assumption) (target _)

/-- A try that ended SENT or COLLIDED is not reported to the table (R32). -/
theorem reportStep_sent_collided (l : Line) (c : Call) (g : Bool) (s : State) :
    reportStep l c g .sent s = s ∧ reportStep l c g .collided s = s := by
  unfold reportStep
  cases c.target <;> exact ⟨rfl, rfl⟩

theorem reportStep_of_node {l : Line} {c : Call} {a : Addr} {g : Bool} {o : TryOutcome} {s : State}
    (target : c.target = .node a) (reply : c.reply = true) :
    reportStep l c g o s =
      match o with
      | .replied r => hearReply l a c.verb r s
      | .noReply => missStep l a s
      | .garbled => garbleStep l a g s
      | .sent | .collided => s := by
  unfold reportStep
  rw [target]
  cases o <;> simp [reply]

theorem hear_state_clash {l : Line} {a : Addr} {s : State} (h : (s.entry l a).state = .clash) :
    ((hear l a s).entry l a).state = .clash := by
  rw [hear_eq, if_pos h, if_neg (by rw [h]; decide), entry_setEntry_self]
  exact h

/-- A reply without PING data to take is a hearing alone (R45, R49, R51). -/
theorem hearReply_eq_hear {l : Line} {a : Addr} {v : BitVec 6} {r : Reply} {s : State}
    (h : v ≠ 0 ∨ r.status ≠ .ok ∨ pingData r.data = none ∨ (s.entry l a).state = .clash) :
    hearReply l a v r s = hear l a s := by
  unfold hearReply
  cases data : pingData r.data with
  | none => rfl
  | some d =>
    refine ite_eq_right_iff.mpr fun ⟨ping, ok⟩ => if_pos (hear_state_clash ?_)
    rcases h with h | h | h | h
    · exact absurd ping h
    · exact absurd ok h
    · rw [data] at h; cases h
    · exact h

/-- A reply OK to PING, on an entry that is not CLASH: a hearing, and its PING data (R45, R49). -/
theorem hearReply_of_pingData {l : Line} {a : Addr} {r : Reply} {s : State} {u : UnitNo} {k : Byte}
    {z : ZoneSet} (ok : r.status = .ok) (data : pingData r.data = some (u, k, z))
    (h : (s.entry l a).state ≠ .clash) :
    hearReply l a 0 r s = writeKindZones l a k z (writeIdentity l a u
      (marked l a (backNotice a (s.entry l a)) s)) := by
  have known : ¬((marked l a (backNotice a (s.entry l a)) s).entry l a).state = .clash := by
    rw [marked_entry]
    exact NodeState.noConfusion
  unfold hearReply
  rw [hear_of_ne_clash h, data]
  exact (if_pos ⟨rfl, ok⟩).trans (if_neg known)

/-- What the reports of ended steps do (R32, R45 to R47, R49, R51). -/
theorem reportStep_spec (l : Line) (c : Call) (g : Bool) (o : TryOutcome) (s : State) :
    (c.reply = false ∨ (∀ a, c.target ≠ .node a) → reportStep l c g o s = s) ∧
    ∀ a, c.target = .node a → c.reply = true →
      (o = .noReply → reportStep l c g o s = missStep l a s) ∧
      (o = .garbled → reportStep l c g o s = garbleStep l a g s) ∧
      ∀ r, o = .replied r →
        (c.verb ≠ 0 ∨ r.status ≠ .ok ∨ pingData r.data = none ∨ (s.entry l a).state = .clash →
          reportStep l c g o s = hear l a s) ∧
        ∀ u k z former, c.verb = 0 → r.status = .ok → pingData r.data = some (u, k, z) →
          (s.entry l a).state ≠ .clash →
          (∀ b, former = some b ↔ b ≠ a ∧ (s.entry l b).identity = some u) →
          DataTaken l a u k z former
            (if (s.entry l a).state = .silent then some (.nodeBack a (s.entry l a).identity)
              else none) s (reportStep l c g o s) := by
  refine ⟨reportStep_unreported, fun a target reply => ?_⟩
  rw [reportStep_of_node target reply]
  refine ⟨by rintro rfl; rfl, by rintro rfl; rfl, ?_⟩
  rintro r rfl
  refine ⟨hearReply_eq_hear, fun u k z former ping ok data known unique => ?_⟩
  dsimp only
  rw [ping, hearReply_of_pingData ok data known]
  exact writeIdentity_dataTaken k z _ unique

/-! ## ASSIGN and UNASSIGN -/

/-- The data of an ASSIGN's reply is taken only from a reply OK (R137). -/
theorem assignData_eq_none {o : TryOutcome}
    (h : ∀ r, o = .replied r → r.status ≠ .ok ∨ pingData r.data = none) : assignData o = none := by
  unfold assignData
  cases o with
  | replied r =>
    refine ite_eq_right_iff.mpr fun ok => ?_
    exact (h r rfl).resolve_left fun refused => refused ok
  | _ => rfl

theorem followAssign_idle {l : Line} {w : DiscoverWork} {o : TryOutcome} {s : State}
    (h : w.phase ≠ .assign ∨ w.candidate = none ∨
      ∀ r, o = .replied r → r.status ≠ .ok ∨ pingData r.data = none) :
    followAssign l w o s = s := by
  unfold followAssign
  split
  · rename_i phase candidate data
    rcases h with h | h | h
    · exact absurd phase h
    · rw [candidate] at h; cases h
    · rw [assignData_eq_none h] at data; cases data
  · rfl

/-- An ASSIGN answered OK with PING data makes the ASSIGN update (R55, R137). -/
theorem followAssign_ok {l : Line} {w : DiscoverWork} {r : Reply} {s : State} {a : Addr}
    {d : UnitNo × Byte × ZoneSet} (phase : w.phase = .assign) (candidate : w.candidate = some a)
    (ok : r.status = .ok) (data : pingData r.data = some d) :
    followAssign l w (.replied r) s = assignUpdate l a d s := by
  have taken : assignData (.replied r) = some d := (if_pos ok).trans data
  unfold followAssign
  rw [phase, candidate, taken]

theorem assignUpdate_of_ne_clash {l : Line} {a : Addr} {u : UnitNo} {k : Byte} {z : ZoneSet}
    {s : State} (h : (s.entry l a).state ≠ .clash) :
    assignUpdate l a (u, k, z) s = writeKindZones l a k z (writeIdentity l a u
      (marked l a (some (.nodeFound a u k)) s)) := if_neg h

/-- What the end of a DISCOVER's step does to the table (R51, R55). -/
theorem followAssign_spec (l : Line) (w : DiscoverWork) (o : TryOutcome) (s : State) :
    (w.phase ≠ .assign ∨ w.candidate = none ∨
        (∀ r, o = .replied r → r.status ≠ .ok ∨ pingData r.data = none) →
      followAssign l w o s = s) ∧
    ∀ r a u k z former, w.phase = .assign → w.candidate = some a → o = .replied r →
      r.status = .ok → pingData r.data = some (u, k, z) →
      ((s.entry l a).state = .clash → followAssign l w o s =
        s.setEntry l a { s.entry l a with lastHeard := some s.ms }) ∧
      ((s.entry l a).state ≠ .clash →
        (∀ b, former = some b ↔ b ≠ a ∧ (s.entry l b).identity = some u) →
        DataTaken l a u k z former (some (.nodeFound a u k)) s (followAssign l w o s)) := by
  refine ⟨followAssign_idle, ?_⟩
  rintro r a u k z former phase candidate rfl ok data
  rw [followAssign_ok phase candidate ok data]
  refine ⟨fun clash => if_pos clash, fun known unique => ?_⟩
  rw [assignUpdate_of_ne_clash known]
  exact writeIdentity_dataTaken k z _ unique

/-- The step of UNASSIGN ALL at one address (R54). -/
def unassignUnlocked (l : Line) (s : State) (a : Addr) : State :=
  if (s.entry l a).lock.isNone then unassignUpdate l a s else s

theorem unassignAllUpdate_eq (l : Line) (s : State) :
    unassignAllUpdate l s = allAddrs.foldl (unassignUnlocked l) s := rfl

theorem unassignUnlocked_entry (l : Line) (s : State) (a b : Addr) :
    (unassignUnlocked l s a).entry l b =
      if b = a ∧ (s.entry l b).lock = none then NodeEntry.initial else s.entry l b := by
  unfold unassignUnlocked
  by_cases free : (s.entry l a).lock = none
  · have vacated : (s.entry l a).vacated = NodeEntry.initial := by
      rw [NodeEntry.vacated, free]; rfl
    by_cases here : b = a
    · subst here
      simp [free, unassignUpdate, vacated]
    · simp [free, unassignUpdate, here, entry_setEntry_ne s l _ here]
  · by_cases here : b = a
    · subst here
      simp [free]
    · simp [free, here]

theorem foldl_unassignUnlocked_entry (l : Line) (as : List Addr) (s : State) (b : Addr) :
    (as.foldl (unassignUnlocked l) s).entry l b =
      if b ∈ as ∧ (s.entry l b).lock = none then NodeEntry.initial else s.entry l b := by
  induction as generalizing s with
  | nil => simp
  | cons a as ih =>
    rw [List.foldl_cons, ih, unassignUnlocked_entry]
    by_cases here : b = a ∧ (s.entry l b).lock = none
    · rw [if_pos here, ite_self, if_pos ⟨List.mem_cons.mpr (.inl here.1), here.2⟩]
    · rw [if_neg here]
      refine if_congr ?_ rfl rfl
      rw [List.mem_cons, or_and_right, or_iff_right here]

/-- Every entry under UNASSIGN ALL: VACANT unless a commit has locked it (R54). -/
theorem unassignAllUpdate_entry (l : Line) (s : State) (a : Addr) :
    (unassignAllUpdate l s).entry l a =
      if (s.entry l a).lock = none then NodeEntry.initial else s.entry l a := by
  rw [unassignAllUpdate_eq, foldl_unassignUnlocked_entry]
  simp [allAddrs]

/-- Between two states nothing but the entries of a line has changed. -/
def OnlyEntries (l : Line) (s t : State) : Prop :=
  { t with nodes := s.nodes } = s ∧ ∀ k, k ≠ l → t.table k = s.table k

theorem onlyEntries_setEntry {l : Line} {s t : State} (h : OnlyEntries l s t) (a : Addr)
    (e : NodeEntry) : OnlyEntries l s (t.setEntry l a e) :=
  ⟨h.1, fun k hk => (table_setEntry_other t a e hk).trans (h.2 k hk)⟩

theorem onlyEntries_unassignAllUpdate (l : Line) (s : State) :
    OnlyEntries l s (unassignAllUpdate l s) := by
  rw [unassignAllUpdate_eq]
  refine List.foldlRecOn allAddrs (unassignUnlocked l) ⟨rfl, fun _ _ => rfl⟩ fun m h a _ => ?_
  unfold unassignUnlocked
  split
  · exact onlyEntries_setEntry h a _
  · exact h

/-- A CALL of another verb, or one that the wire has not confirmed, leaves the table (R53, R54). -/
theorem followUnassign_idle {l : Line} {w : CallWork} {o : TryOutcome} {s : State}
    (h : w.verb ≠ 2 ∨ (∀ a, w.target = .node a → ∀ r, o = .replied r → r.status ≠ .ok) ∧
      (w.target = .all → o ≠ .sent)) : followUnassign l w o s = s := by
  refine ite_eq_right_iff.mpr fun verb => ?_
  obtain ⟨node, all⟩ := h.resolve_left fun other => other verb
  split
  · rename_i target
    exact if_neg (node _ target _ rfl)
  · rename_i target
    exact absurd rfl (all target)
  · rfl

/-- What the end of a CALL's step does to the table (R53, R54, R96). -/
theorem followUnassign_spec (l : Line) (w : CallWork) (o : TryOutcome) (s t : State)
    (ht : t = followUnassign l w o s) :
    (∀ a, w.verb = 2 → w.target = .node a → (∃ r, o = .replied r ∧ r.status = .ok) →
      t = s.setEntry l a { NodeEntry.initial with lock := (s.entry l a).lock }) ∧
    (w.verb = 2 → w.target = .all → o = .sent →
      { t with nodes := s.nodes } = s ∧ (∀ k, k ≠ l → t.table k = s.table k) ∧
      ∀ a, t.entry l a = if (s.entry l a).lock = none then NodeEntry.initial
        else s.entry l a) ∧
    (w.verb ≠ 2 ∨ (∀ a, w.target = .node a → ∀ r, o = .replied r → r.status ≠ .ok) ∧
        (w.target = .all → o ≠ .sent) → t = s) := by
  subst ht
  refine ⟨?_, ?_, followUnassign_idle⟩
  · rintro a verb target ⟨r, rfl, ok⟩
    have node : followUnassign l w (.replied r) s = unassignUpdate l a s := by
      simp [followUnassign, verbUnassign, verb, target, ok]
    exact node
  · rintro verb target rfl
    have all : followUnassign l w .sent s = unassignAllUpdate l s := by
      simp [followUnassign, verbUnassign, verb, target]
    obtain ⟨rest, table⟩ := onlyEntries_unassignAllUpdate l s
    rw [all]
    exact ⟨rest, table, unassignAllUpdate_entry l s⟩

/-! ## Identities and zones on the line -/

theorem join40_extract (u : UnitNo) :
    join40 (u.extractLsb' 32 8) (u.extractLsb' 24 8) (u.extractLsb' 16 8) (u.extractLsb' 8 8)
      (u.extractLsb' 0 8) = u := by
  refine BitVec.eq_of_getLsbD_eq fun i hi => ?_
  simp only [join40, BitVec.getLsbD_append, BitVec.getLsbD_extractLsb']
  grind

theorem be40_join40 (b4 b3 b2 b1 b0 : Byte) :
    be40 (join40 b4 b3 b2 b1 b0) = [b4, b3, b2, b1, b0] := by
  simp only [be40, List.cons.injEq, and_true]
  refine ⟨?_, ?_, ?_, ?_, ?_⟩
  all_goals
    refine BitVec.eq_of_getLsbD_eq fun i hi => ?_
    simp only [join40, BitVec.getLsbD_append, BitVec.getLsbD_extractLsb']
    grind

/-- Which two bytes of PING data give a zone set: the low byte, and the low half of the high one. -/
theorem zones_of_bytes (hi lo : Byte) (z : ZoneSet) :
    (join16 hi lo).setWidth 12 = z ↔
      lo = z.setWidth 8 ∧ hi.setWidth 4 = (z >>> 8).setWidth 4 := by
  constructor
  · rintro rfl
    constructor
    all_goals
      refine BitVec.eq_of_getLsbD_eq fun i hi => ?_
      simp only [join16, BitVec.getLsbD_append, BitVec.getLsbD_setWidth, BitVec.getLsbD_ushiftRight]
      grind
  · rintro ⟨rfl, high⟩
    refine BitVec.eq_of_getLsbD_eq fun i hi => ?_
    have bit := congrArg (fun v => v.getLsbD (i - 8)) high
    simp only [BitVec.getLsbD_setWidth, BitVec.getLsbD_ushiftRight] at bit
    simp only [join16, BitVec.getLsbD_append, BitVec.getLsbD_setWidth]
    grind

/-- PING data is an identity, not 0, a kind code and a zone set (R49, R211). -/
theorem pingData_eq_some (data : List Byte) (u : UnitNo) (k : Byte) (z : ZoneSet) :
    pingData data = some (u, k, z) ↔
      u ≠ 0 ∧ ∃ hi : Byte, data = be40 u ++ [k, hi, z.setWidth 8] ∧
        hi.setWidth 4 = (z >>> 8).setWidth 4 := by
  constructor
  · intro h
    unfold pingData at h
    split at h
    · rename_i i4 i3 i2 i1 i0 kind hi lo
      dsimp only at h
      split at h
      · cases h
      · rename_i known
        obtain ⟨rfl, rfl, rfl⟩ : join40 i4 i3 i2 i1 i0 = u ∧ kind = k ∧
            (join16 hi lo).setWidth 12 = z := by simpa using h
        obtain ⟨low, high⟩ := (zones_of_bytes hi lo _).mp rfl
        refine ⟨known, hi, ?_, high⟩
        rw [be40_join40, ← low]
        rfl
    · cases h
  · rintro ⟨known, hi, rfl, high⟩
    have zones := (zones_of_bytes hi (z.setWidth 8) z).mpr ⟨rfl, high⟩
    simp only [be40, List.cons_append, List.nil_append, pingData, join40_extract, if_neg known, zones]

/-- A PICK reply's identity is its five bytes, not 0 (R130). -/
theorem pickIdentity_eq_some (data : List Byte) (u : UnitNo) :
    pickIdentity data = some u ↔ u ≠ 0 ∧ data = be40 u := by
  constructor
  · intro h
    unfold pickIdentity at h
    split at h
    · rename_i i4 i3 i2 i1 i0
      dsimp only at h
      split at h
      · cases h
      · rename_i known
        cases h
        exact ⟨known, (be40_join40 ..).symm⟩
    · cases h
  · rintro ⟨known, rfl⟩
    simp only [be40, pickIdentity, join40_extract, if_neg known]

/-- Settles O51, one lemma for each part: misses (R46), SENT and COLLIDED, garbles (R47), reports
(R32, R45, R49), hearings (R45), ASSIGN (R55), UNASSIGN (R53, R54), and the data they read. -/
theorem tableFollowsReportsAndUpdates : Obligations.TableFollowsReportsAndUpdates :=
  ⟨⟨missStep_spec, fun l c g s => reportStep_sent_collided l c g s⟩, garbleStep_spec,
    reportStep_spec, hear_eq, followAssign_spec, followUnassign_spec, pingData_eq_some,
    pickIdentity_eq_some⟩

end Sys2Proof.NodeTable

/-! The INT pin and the reads of the registers (R191, R192, R194, R213). -/

namespace Sys2Proof.Signalling

open Sys2Proof Sys2Proof.Machine

/-! ## INT -/

theorem mem_allResultRings (q : ResultRingId) : q ∈ allResultRings := by
  revert q
  decide

/-- The six conditions: one for each ring the part writes, and the device event (R191). -/
theorem anyCondition_iff (s : State) :
    s.anyCondition = true ↔ (∃ n, (s.outRing n).signalled = true) ∨ s.deviceEvent = true := by
  have rings : (∃ n, (s.outRing n).signalled = true) ↔
      (∃ q, (s.resultRing q).out.signalled = true) ∨ s.notice.signalled = true := by
    constructor
    · rintro ⟨n, set⟩
      cases n with
      | result q => exact .inl ⟨q, set⟩
      | notice => exact .inr set
    · rintro (⟨q, set⟩ | set)
      · exact ⟨.result q, set⟩
      · exact ⟨.notice, set⟩
  simp only [State.anyCondition, Bool.or_eq_true, List.any_eq_true, mem_allResultRings, true_and,
    rings]

theorem intAsserted_iff (s : State) :
    s.intAsserted = true ↔ s.intEnable = true ∧
      ((∃ n, (s.outRing n).signalled = true) ∨ s.deviceEvent = true) := by
  rw [State.intAsserted, Bool.and_eq_true, anyCondition_iff]

/-- A reset turns the enable off (R202), and with it INT. -/
theorem intAsserted_resetPart (s : State) : (resetPart s).intAsserted = false := by
  have off : (resetPart s).intEnable = false := rfl
  rw [State.intAsserted, off, Bool.false_and]

/-! ## SIGNAL -/

theorem getLsbD_wordBit (b : Bool) {place : Nat} (inWord : place < 32) (i : Nat) :
    (wordBit b place).getLsbD i = (b && decide (place = i)) := by
  cases b with
  | false => simp [wordBit]
  | true =>
    simp only [wordBit, if_true, BitVec.getLsbD_ofNat, Nat.testBit_two_pow, Bool.true_and]
    grind

theorem getLsbD_signalWord (s : State) (i : Nat) :
    s.signalWord.getLsbD i =
      ((s.resultRing 0).out.signalled && decide (0 = i)
        || (s.resultRing 1).out.signalled && decide (1 = i)
        || (s.resultRing 2).out.signalled && decide (2 = i)
        || (s.resultRing 3).out.signalled && decide (3 = i)
        || s.notice.signalled && decide (4 = i) || s.deviceEvent && decide (5 = i)) := by
  simp [State.signalWord, BitVec.getLsbD_or, getLsbD_wordBit]

theorem getLsbD_signalWord_result (s : State) (q : ResultRingId) :
    s.signalWord.getLsbD q.val = (s.resultRing q).out.signalled := by
  rw [getLsbD_signalWord]
  fin_cases q <;> simp

theorem getLsbD_signalWord_notice (s : State) :
    s.signalWord.getLsbD 4 = s.notice.signalled := by
  rw [getLsbD_signalWord]
  simp

theorem getLsbD_signalWord_deviceEvent (s : State) :
    s.signalWord.getLsbD 5 = s.deviceEvent := by
  rw [getLsbD_signalWord]
  simp

/-- SIGNAL has no bit above the six conditions. -/
theorem signalWord_lt (s : State) : s.signalWord.toNat < 64 := by
  refine Nat.lt_pow_two_of_testBit (n := 6) _ fun i above => ?_
  have none_above : s.signalWord.getLsbD i = false := by
    rw [getLsbD_signalWord]
    have elsewhere : ∀ place < 6, place ≠ i := by omega
    simp [elsewhere]
  exact none_above

/-! ## What a read returns -/

section
variable {s : State} (high : s.resetPinLow = false)
include high

theorem readRegister_ctrl : s.readRegister 0x04 = wordBit s.intEnable 8 := by
  simp [State.readRegister, high]

theorem readRegister_stat :
    s.readRegister 0x08 = deviceCode s.device ||| (haltCode s.halt <<< 8) := by
  simp [State.readRegister, high]

theorem readRegister_boot : s.readRegister 0x0C = s.boot := by
  simp [State.readRegister, high]

theorem readRegister_signal : s.readRegister 0x18 = s.signalWord := by
  simp [State.readRegister, high]

end

theorem readRegister_ident (s : State) : s.readRegister 0x00 = 0x57540201 := rfl

/-- POST, TAKE and every offset outside the registers read 0 (R213). -/
theorem readRegister_other (s : State) {o : Word} (other : o ∉ [0x00, 0x04, 0x08, 0x0C, 0x18]) :
    s.readRegister o = 0 := by
  simp only [List.mem_cons, List.not_mem_nil, or_false, not_or] at other
  obtain ⟨ident, ctrl, stat, boot, signal⟩ := other
  simp only [State.readRegister, if_neg ident, if_neg ctrl, if_neg stat, if_neg boot, if_neg signal,
    ite_self]

theorem toNat_ctrl (b : Bool) : (wordBit b 8).toNat = if b = true then 256 else 0 := by
  cases b <;> rfl

/-- STAT holds the state code in its low byte and the halt reason in the next: the two never
overlap, so the word is their sum. -/
theorem toNat_stat (d : DeviceState) (h : HaltReason) :
    (deviceCode d ||| (haltCode h <<< 8)).toNat =
      (deviceCode d).toNat + 256 * (haltCode h).toNat := by
  cases d <;> cases h <;> rfl

/-- Settles O8: INT (R192), SIGNAL (R191), and the reads of the other registers (R213). -/
theorem readsAndInterruptFollowTheState : Obligations.ReadsAndInterruptFollowTheState := by
  refine ⟨intAsserted_iff, intAsserted_resetPart, fun s q high => ?_, fun s high => ?_,
    fun s high => ⟨readRegister_ident s, ?_, ?_, readRegister_boot high,
      fun _ => readRegister_other s⟩⟩
  · rw [readRegister_signal high, getLsbD_signalWord_result]
  · rw [readRegister_signal high]
    exact ⟨getLsbD_signalWord_notice s, getLsbD_signalWord_deviceEvent s, signalWord_lt s⟩
  · rw [readRegister_ctrl high, toNat_ctrl]
  · rw [readRegister_stat high, toNat_stat]
    refine congrArg₂ (fun state reason => state + 256 * reason) ?_ ?_
    · cases s.device <;> rfl
    · cases s.halt <;> rfl

end Sys2Proof.Signalling

/-! What the work of a line carries over beside `Worked`: the bounds of the notice buffer and of the
reflex queues, the identities of the node tables, and that no work ring closes. -/

namespace Sys2Proof.Invariants

open Sys2Proof Sys2Proof.Machine Sys2Proof.Safety Sys2Proof.Laws Sys2Proof.NodeTable

/-! ## The buffer law and the identity law under single updates -/

theorem bufferLaw_congr {s t : State}
    (same : (t.buffer, t.lost, t.queues) = (s.buffer, s.lost, s.queues)) (h : BufferLaw s) :
    BufferLaw t := by
  simp only [Prod.mk.injEq] at same
  obtain ⟨buffer, lost, queues⟩ := same
  refine ⟨buffer ▸ h.buffer, lost ▸ h.lost, fun l => ?_⟩
  rw [State.queue, queues]
  exact h.queue l

theorem bufferLaw_createNotice {s : State} (l : Option Line) (b : NoticeBody) (h : BufferLaw s) :
    BufferLaw (createNotice l b s) := by
  unfold createNotice
  split
  · next room =>
    refine ⟨?_, Nat.zero_le _, h.queue⟩
    simp only [List.length_append, List.length_singleton]
    omega
  · exact ⟨h.buffer, Nat.min_le_left _ _, h.queue⟩

theorem bufferLaw_setQueue {s : State} {l : Line} {q : List QueuedCall} (hq : q.length ≤ 4)
    (h : BufferLaw s) : BufferLaw (s.setQueue l q) := by
  refine ⟨h.buffer, h.lost, fun k => ?_⟩
  rcases eq_or_ne k l with rfl | hk
  · rwa [queue_setQueue_self]
  · rw [queue_setQueue_other s q hk]
    exact h.queue k

/-- No identity has come to an entry. -/
theorem identityLaw_of_sub {s t : State}
    (sub : ∀ l a u, (t.entry l a).identity = some u → (s.entry l a).identity = some u)
    (h : IdentityLaw s) : IdentityLaw t :=
  fun l a b u ha hb => h l a b u (sub l a u ha) (sub l b u hb)

theorem identityLaw_congr {s t : State} (same : t.nodes = s.nodes) (h : IdentityLaw s) :
    IdentityLaw t := by
  refine identityLaw_of_sub (fun l a u hu => ?_) h
  rwa [State.entry, State.table, same] at hu

theorem identityLaw_setEntry {s : State} {l : Line} {a : Addr} {e : NodeEntry}
    (same : ∀ u, e.identity = some u → (s.entry l a).identity = some u) (h : IdentityLaw s) :
    IdentityLaw (s.setEntry l a e) := by
  refine identityLaw_of_sub (fun k b u hu => ?_) h
  rcases eq_or_ne k l with rfl | hk
  · rcases eq_or_ne b a with rfl | hb
    · rw [entry_setEntry_self] at hu
      exact same u hu
    · rwa [entry_setEntry_ne _ _ _ hb] at hu
  · rwa [entry_setEntry_other _ _ _ _ hk] at hu

/-- Under the law the other holder of an identity is its only other holder. -/
theorem holderOf_spec {s : State} (h : IdentityLaw s) (l : Line) (a : Addr) (u : UnitNo) (b : Addr) :
    holderOf s l a u = some b ↔ b ≠ a ∧ (s.entry l b).identity = some u := by
  constructor
  · intro found
    have := List.find?_some found
    simpa using this
  · rintro ⟨ne, holds⟩
    cases found : holderOf s l a u with
    | none =>
      have := List.find?_eq_none.mp found b (List.mem_finRange b)
      simp [ne, holds] at this
    | some c =>
      have hc := List.find?_some found
      simp only [Bool.and_eq_true, bne_iff_ne, beq_iff_eq] at hc
      rw [h l c b u hc.2 holds]

/-- R50: the entry written to takes the identity, its former entry gives it up. -/
theorem identityLaw_writeIdentity {s : State} (l : Line) (a : Addr) (u : UnitNo)
    (h : IdentityLaw s) : IdentityLaw (writeIdentity l a u s) := by
  have former := holderOf_spec h l a u
  rw [writeIdentity_eq rfl]
  refine identityLaw_congr (noteAll_nodes _ _ _) ?_
  generalize holderOf s l a u = f at former
  generalize he : withIdentity u (f.map fun b => (s.entry l b).store) (s.entry l a) = e
  have hu : e.identity = some u := by rw [← he]; rfl
  have written : ∀ k b v,
      ((vacateFormer l f (s.setEntry l a e)).entry k b).identity = some v →
      (k = l ∧ b = a ∧ v = u) ∨
        ((s.entry k b).identity = some v ∧ ¬(k = l ∧ v = u)) := by
    intro k b v hv
    rcases eq_or_ne k l with rfl | hk
    · by_cases hf : f = some b
      · subst hf
        rw [vacateFormer_entry_former] at hv
        cases hv
      · rw [vacateFormer_entry _ hf] at hv
        rcases eq_or_ne b a with rfl | hb
        · rw [entry_setEntry_self, hu] at hv
          exact .inl ⟨rfl, rfl, (Option.some.inj hv).symm⟩
        · rw [entry_setEntry_ne _ _ _ hb] at hv
          refine .inr ⟨hv, ?_⟩
          rintro ⟨-, rfl⟩
          exact hf ((former b).mpr ⟨hb, hv⟩)
    · refine .inr ⟨?_, fun x => hk x.1⟩
      simpa only [State.entry, vacateFormer_table f _ hk, table_setEntry_other s a e hk] using hv
  intro k b c v hb hc
  rcases written k b v hb with ⟨hk, rfl, hv⟩ | ⟨hb', hn⟩
  · rcases written k c v hc with ⟨-, rfl, -⟩ | ⟨-, hn⟩
    · rfl
    · exact absurd ⟨hk, hv⟩ hn
  · rcases written k c v hc with ⟨hk, -, hv⟩ | ⟨hc', -⟩
    · exact absurd ⟨hk, hv⟩ hn
    · exact h k b c v hb' hc'

/-! ## The frame -/

/-- What the work of a line carries over beside `Worked`. -/
structure Carried (s t : State) : Prop where
  buffer : BufferLaw s → BufferLaw t
  identity : IdentityLaw s → IdentityLaw t
  opened : ∀ r, (s.workRing r).state ≠ .closed → (t.workRing r).state ≠ .closed

theorem carried_refl (s : State) : Carried s s := ⟨id, id, fun _ => id⟩

theorem Carried.trans {s m t : State} (h : Carried s m) (k : Carried m t) : Carried s t :=
  ⟨fun x => k.buffer (h.buffer x), fun x => k.identity (h.identity x),
    fun r x => k.opened r (h.opened r x)⟩

variable {s m t : State}

/-! ## Single updates -/

theorem carried_same (h : Carried s m)
    (same : (t.buffer, t.lost, t.queues, t.nodes, t.work) =
      (m.buffer, m.lost, m.queues, m.nodes, m.work)) : Carried s t := by
  simp only [Prod.mk.injEq] at same
  obtain ⟨buffer, lost, queues, nodes, work⟩ := same
  refine h.trans ⟨bufferLaw_congr (by rw [buffer, lost, queues]), identityLaw_congr nodes,
    fun r hr => ?_⟩
  rwa [State.workRing, work]

theorem carried_lineKept {l : Line} (h : Carried s m) (k : LineKept l m t) : Carried s t := by
  refine h.trans ⟨bufferLaw_congr (by rw [k.buffer, k.lost, k.queues]),
    identityLaw_of_sub fun n a u hu => ?_, fun r hr => ?_⟩
  · rcases eq_or_ne n l with rfl | hn
    · rwa [(k.entry a).identity] at hu
    · rwa [State.entry, k.otherTable n hn] at hu
  · rwa [State.workRing, k.work]

theorem carried_createNotice (h : Carried s m) (l : Option Line) (b : NoticeBody) :
    Carried s (createNotice l b m) := by
  refine h.trans ⟨bufferLaw_createNotice l b, identityLaw_congr (createNotice_nodes l b m),
    fun r hr => ?_⟩
  unfold createNotice
  split <;> exact hr

theorem carried_setQueue {l : Line} {q : List QueuedCall} (h : Carried s m)
    (hq : q.length ≤ 4 ∨ q.length ≤ (m.queue l).length) : Carried s (m.setQueue l q) :=
  h.trans ⟨fun b => bufferLaw_setQueue (hq.elim id fun le => le.trans (b.queue l)) b,
    identityLaw_congr rfl, fun _ => id⟩

theorem carried_setEntry {l : Line} {a : Addr} {e : NodeEntry} (h : Carried s m)
    (same : ∀ u, e.identity = some u → (m.entry l a).identity = some u) :
    Carried s (m.setEntry l a e) :=
  h.trans ⟨bufferLaw_congr rfl, identityLaw_setEntry same, fun _ => id⟩

theorem carried_judgeRings (h : Carried s m) : Carried s (judgeRings m) := by
  refine h.trans ⟨bufferLaw_congr rfl, identityLaw_congr rfl, fun r hr => ?_⟩
  rw [judgeRings_workRing]
  unfold judgedState
  repeat' split
  all_goals simp_all

theorem carried_foldl {α : Type} {f : State → α → State} (hf : ∀ m x, Carried s m → Carried s (f m x))
    (h : Carried s m) (xs : List α) : Carried s (xs.foldl f m) := by
  induction xs generalizing m with
  | nil => exact h
  | cons x xs ih => exact ih (hf m x h)

/-! ## The node table -/

theorem carried_hear (h : Carried s m) (l : Line) (a : Addr) : Carried s (hear l a m) := by
  rw [hear_eq]
  have heard : Carried s (m.setEntry l a
      (if (m.entry l a).state = .clash then { m.entry l a with lastHeard := some m.ms }
      else { m.entry l a with
        state := .present, misses := 0, garbles := 0, lastHeard := some m.ms })) :=
    carried_setEntry h fun u hu => by split at hu <;> exact hu
  split
  · exact carried_createNotice heard _ _
  · exact heard

theorem missed_identity (n : Nat) (e : NodeEntry) : (e.missed n).identity = e.identity := by
  unfold NodeEntry.missed
  split <;> rfl

theorem garbledStep_identity (g : Bool) (e : NodeEntry) :
    (e.garbledStep g).identity = e.identity := by
  unfold NodeEntry.garbledStep
  split <;> rfl

theorem rejudged_identity (n : Nat) (e : NodeEntry) : (e.rejudged n).identity = e.identity := by
  unfold NodeEntry.rejudged
  split
  · split <;> rfl
  · split <;> rfl
  all_goals rfl

theorem carried_missStep (h : Carried s m) (l : Line) (a : Addr) : Carried s (missStep l a m) := by
  unfold missStep
  dsimp only
  have missed : Carried s (m.setEntry l a ((m.entry l a).missed (m.engine l).config.silence)) :=
    carried_setEntry h fun u hu => by rwa [missed_identity] at hu
  split
  · exact carried_createNotice missed _ _
  · exact missed

theorem carried_garbleStep (h : Carried s m) (l : Line) (a : Addr) (g : Bool) :
    Carried s (garbleStep l a g m) := by
  unfold garbleStep
  dsimp only
  have garbled : Carried s (m.setEntry l a ((m.entry l a).garbledStep g)) :=
    carried_setEntry h fun u hu => by rwa [garbledStep_identity] at hu
  split
  · exact carried_createNotice garbled _ _
  · exact garbled

theorem carried_rejudgeTable (h : Carried s m) (l : Line) (n : Nat) :
    Carried s (rejudgeTable l n m) := by
  refine carried_foldl (fun m a k => ?_) h _
  unfold rejudgeEntry
  dsimp only
  have judged : Carried s (m.setEntry l a ((m.entry l a).rejudged n)) :=
    carried_setEntry k fun u hu => by rwa [rejudged_identity] at hu
  split
  · exact carried_createNotice judged _ _
  · exact judged

theorem carried_noteAll (h : Carried s m) (l : Line) (bodies : List (Option NoticeBody)) :
    Carried s (noteAll l bodies m) := by
  refine carried_foldl (fun m b k => ?_) h _
  split
  · exact carried_createNotice k _ _
  · exact k

theorem carried_writeIdentity (h : Carried s m) (l : Line) (a : Addr) (u : UnitNo) :
    Carried s (writeIdentity l a u m) := by
  have k : Carried m (writeIdentity l a u m) := by
    refine ⟨fun b => ?_, identityLaw_writeIdentity l a u, ?_⟩
    all_goals rw [writeIdentity_eq rfl]
    · refine (carried_noteAll (carried_refl _) l _).buffer (bufferLaw_congr ?_ b)
      unfold vacateFormer
      split <;> rfl
    · intro r hr
      refine (carried_noteAll (carried_refl _) l _).opened r ?_
      unfold vacateFormer
      split <;> exact hr
  exact h.trans k

theorem carried_writeData (h : Carried s m) (l : Line) (a : Addr) (u : UnitNo) (k : Byte)
    (z : ZoneSet) : Carried s (writeKindZones l a k z (writeIdentity l a u m)) :=
  carried_setEntry (carried_writeIdentity h l a u) fun _ => id

theorem carried_hearReply (h : Carried s m) (l : Line) (a : Addr) (v : BitVec 6) (r : Reply) :
    Carried s (hearReply l a v r m) := by
  have k := carried_hear h l a
  unfold hearReply writePingData
  dsimp only
  split
  · split
    · split
      · exact k
      · exact carried_writeData k _ _ _ _ _
    · exact k
  · exact k

theorem carried_assignUpdate (h : Carried s m) (l : Line) (a : Addr)
    (d : UnitNo × Byte × ZoneSet) : Carried s (assignUpdate l a d m) := by
  unfold assignUpdate
  dsimp only
  split
  · exact carried_setEntry h fun _ => id
  · refine carried_writeData ?_ _ _ _ _ _
    refine carried_createNotice ?_ _ _
    exact carried_setEntry h fun _ => id

theorem carried_reportStep (h : Carried s m) (l : Line) (c : Call) (g : Bool) (o : TryOutcome) :
    Carried s (reportStep l c g o m) := by
  unfold reportStep
  split
  · split
    · exact carried_hearReply h _ _ _ _
    · exact h
  · split
    · exact carried_missStep h _ _
    · exact h
  · split
    · exact carried_garbleStep h _ _ _
    · exact h
  · exact h

theorem carried_setEngine (h : Carried s m) (l : Line) (e : LineEngine) :
    Carried s (m.setEngine l e) := carried_same h rfl

theorem carried_notePending (h : Carried s m) (l : Line) (o : TryOutcome) :
    Carried s (notePending l o m) := by
  unfold notePending
  split
  · split
    · exact carried_setEngine h _ _
    · exact h
  all_goals exact h

theorem carried_followAssign (h : Carried s m) (l : Line) (w : DiscoverWork) (o : TryOutcome) :
    Carried s (followAssign l w o m) := by
  unfold followAssign
  split
  · exact carried_assignUpdate h _ _ _
  · exact h

theorem carried_unassignUpdate (h : Carried s m) (l : Line) (a : Addr) :
    Carried s (unassignUpdate l a m) :=
  carried_setEntry h fun _ hu => by cases hu

theorem carried_unassignAllUpdate (h : Carried s m) (l : Line) :
    Carried s (unassignAllUpdate l m) := by
  refine carried_foldl (fun m a k => ?_) h _
  split
  · exact carried_unassignUpdate k _ _
  · exact k

theorem carried_followUnassign (h : Carried s m) (l : Line) (w : CallWork) (o : TryOutcome) :
    Carried s (followUnassign l w o m) := by
  unfold followUnassign
  split
  · split
    · split
      · exact carried_unassignUpdate h _ _
      · exact h
    · exact carried_unassignAllUpdate h _
    · exact h
  · exact h

theorem carried_forgetLine (h : Carried s m) (l : Line) : Carried s (forgetLine l m) := by
  refine h.trans ⟨bufferLaw_congr rfl, identityLaw_of_sub fun k a u hu => ?_, fun _ => id⟩
  rcases eq_or_ne k l with rfl | hk
  · simp [forgetLine, State.entry, NodeEntry.initial] at hu
  · rwa [State.entry, forgetLine, table_setTable_other _ _ hk] at hu

end Sys2Proof.Invariants

/-! What the ends of steps, grants and windows, entries to DOWN, cuts and aborts carry over. -/

namespace Sys2Proof.Invariants

open Sys2Proof Sys2Proof.Machine Sys2Proof.Safety Sys2Proof.Laws

/-! ## What the end of a step does to its slot -/

/-- The three things that an event can do to a slot in use (R81): nothing, new fields for it, or its
end with new fields. -/
inductive SlotMove (i : SlotId) (s : State) : State → Prop
  | stays : SlotMove i s s
  | put (y : Slot) : SlotMove i s (s.setSlot i (some y))
  | ends (y : Slot) (st : Status) (narrow : Bool) :
      SlotMove i s (endSlot i st narrow (s.setSlot i (some y)))

theorem slotMove_stepFollows (i : SlotId) (x : Slot) (w : Work) (s : State) :
    SlotMove i s (stepFollows i x w s) := .put _

theorem slotMove_pauseSlot (i : SlotId) (x : Slot) (w : Work) (s : State) :
    SlotMove i s (pauseSlot i x w s) := .put _

theorem slotMove_decideSlot (i : SlotId) (x : Slot) (w : Work) (st : Status) (narrow : Bool)
    (s : State) : SlotMove i s (decideSlot i x w st narrow s) := .ends _ _ _

/-- A slot ends as it stands. -/
theorem slotMove_endSlot (i : SlotId) (st : Status) (narrow : Bool) (s : State) :
    SlotMove i s (endSlot i st narrow s) := by
  cases hx : s.slot i with
  | none =>
    have : endSlot i st narrow s = s := by simp [endSlot, hx]
    rw [this]
    exact .stays
  | some x =>
    have same : s.setSlot i (some x) = s := by
      have : s.slots.set i (some x) = s.slots := by
        rw [← hx]
        exact Vector.set_getElem_self _
      exact congrArg (fun v => { s with slots := v }) this
    have ends := SlotMove.ends (i := i) (s := s) x st narrow
    rwa [same] at ends

theorem slotMove_sweepStepEnd (i : SlotId) (x : Slot) (w : SweepWork) (s : State) :
    SlotMove i s (sweepStepEnd i x w s) := by
  unfold sweepStepEnd
  split
  · exact slotMove_decideSlot ..
  · exact slotMove_stepFollows ..

theorem slotMove_sweepCut (i : SlotId) (x : Slot) (w : SweepWork) (last : Option TryOutcome)
    (s : State) : SlotMove i s (sweepCut i x w last s) := by
  unfold sweepCut
  split <;> exact slotMove_decideSlot ..

theorem slotMove_callDown (i : SlotId) (x : Slot) (w : CallWork) (s : State) :
    SlotMove i s (callDown i x w s) := slotMove_decideSlot ..

theorem slotMove_commitContinues (i : SlotId) (x : Slot) (w : ParamWork) (polled : Bool)
    (c : CommitCont) (s : State) : SlotMove i s (commitContinues i x w polled c s) := by
  have goOn : ∀ w : ParamWork, SlotMove i s
      (if w.budgetPassed = true then decideSlot i x (.param w) .commitTimeout true s
        else stepFollows i x (.param w) s) := by
    intro w
    split
    · exact slotMove_decideSlot ..
    · exact slotMove_stepFollows ..
  unfold commitContinues
  dsimp only
  split
  · exact slotMove_decideSlot ..
  · split
    · unfold pausePastBudget
      split
      · exact slotMove_decideSlot ..
      · exact slotMove_stepFollows ..
    · exact slotMove_pauseSlot ..
  · exact goOn _
  · split
    · exact goOn _
    · exact slotMove_decideSlot ..

theorem slotMove_commitAborts (i : SlotId) (x : Slot) (w : ParamWork) (narrow : Bool)
    (c : CommitCont) (s : State) : SlotMove i s (commitAborts i x w narrow c s) := by
  unfold commitAborts
  split
  · split
    · exact slotMove_decideSlot ..
    · exact slotMove_pauseSlot ..
  all_goals exact slotMove_decideSlot ..

theorem slotMove_commitStepEnd (i : SlotId) (x : Slot) (w : ParamWork) (o : TryOutcome) (s : State) :
    SlotMove i s (commitStepEnd i x w o s) := by
  unfold commitStepEnd
  split
  · exact .stays
  · dsimp only
    split
    · exact slotMove_commitAborts ..
    · exact slotMove_commitContinues ..

theorem slotMove_commitCut (i : SlotId) (x : Slot) (w : ParamWork) (last : Option TryOutcome)
    (s : State) : SlotMove i s (commitCut i x w last s) := by
  unfold commitCut
  split <;> exact slotMove_decideSlot ..

theorem slotMove_budgetTurns (i : SlotId) (x : Slot) (w : ParamWork) (s : State) :
    SlotMove i s (budgetTurns i x w s) := by
  unfold budgetTurns
  split
  · split
    · exact slotMove_decideSlot ..
    · exact slotMove_stepFollows ..
  · exact slotMove_decideSlot ..

theorem slotMove_commitDown (i : SlotId) (x : Slot) (w : ParamWork) (s : State) :
    SlotMove i s (commitDown i x w s) := by
  unfold commitDown
  dsimp only
  split
  · exact slotMove_decideSlot ..
  · split
    · split
      · exact slotMove_commitAborts ..
      · exact slotMove_decideSlot ..
    · split
      · exact slotMove_budgetTurns ..
      · exact slotMove_stepFollows ..

theorem slotMove_budgetExpires (i : SlotId) (x : Slot) (w : ParamWork) (s : State) :
    SlotMove i s (budgetExpires i x w s) := by
  unfold budgetExpires
  dsimp only
  split
  · exact .put _
  all_goals first | exact slotMove_budgetTurns .. | exact .stays

theorem slotMove_discoverContinues (i : SlotId) (x : Slot) (w : DiscoverWork) (s : State) :
    SlotMove i s (discoverContinues i x w s) := by
  unfold discoverContinues
  split
  · exact slotMove_stepFollows ..
  · exact slotMove_decideSlot ..

theorem slotMove_discoverDown (i : SlotId) (x : Slot) (w : DiscoverWork) (held : Bool) (s : State) :
    SlotMove i s (discoverDown i x w held s) := by
  unfold discoverDown
  dsimp only
  split
  · exact slotMove_decideSlot ..
  · exact slotMove_discoverContinues ..

theorem slotMove_slotDown (i : SlotId) (tries : Nat) (s : State) :
    SlotMove i s (slotDown i tries s) := by
  unfold slotDown
  split
  · exact .stays
  · dsimp only
    split
    · exact slotMove_callDown ..
    · exact slotMove_sweepStepEnd ..
    · exact slotMove_commitDown ..
    · exact slotMove_discoverDown ..
    · exact .stays

theorem slotMove_abortSlot (i : SlotId) (s : State) : SlotMove i s (abortSlot i s) := by
  unfold abortSlot
  split
  · exact .stays
  · split
    · exact .stays
    · split
      · exact .put _
      · exact slotMove_endSlot ..

/-- The table follows an UNASSIGN or an ASSIGN that a step has made, and nothing else is done to it. -/
inductive TableMove (l : Line) (s : State) : State → Prop
  | stays : TableMove l s s
  | unassign (w : CallWork) (o : TryOutcome) : TableMove l s (followUnassign l w o s)
  | assign (w : DiscoverWork) (o : TryOutcome) : TableMove l s (followAssign l w o s)

/-- The end of a slot's step, with the table's update before the slot's. -/
def StepMove (i : SlotId) (s t : State) : Prop :=
  ∃ l m, TableMove l s m ∧ SlotMove i m t

theorem SlotMove.stepMove {i : SlotId} {s t : State} (h : SlotMove i s t) : StepMove i s t :=
  ⟨.a, s, .stays, h⟩

theorem stepMove_callStepEnd (i : SlotId) (x : Slot) (w : CallWork) (g : Bool) (o : TryOutcome)
    (s : State) : StepMove i s (callStepEnd i x w g o s) := by
  refine ⟨x.line, _, .unassign w o, ?_⟩
  unfold callStepEnd
  cases o with
  | replied r =>
    dsimp only
    split
    case h_5 =>
      split
      · split
        · exact slotMove_decideSlot ..
        · exact slotMove_pauseSlot ..
      · exact slotMove_decideSlot ..
    all_goals exact slotMove_decideSlot ..
  | sent => exact slotMove_decideSlot ..
  | noReply => exact slotMove_decideSlot ..
  | garbled => exact slotMove_decideSlot ..
  | collided => exact slotMove_decideSlot ..

theorem stepMove_callCut (i : SlotId) (x : Slot) (w : CallWork) (last : Option TryOutcome)
    (s : State) : StepMove i s (callCut i x w last s) := by
  unfold callCut
  dsimp only
  split
  · exact ⟨x.line, _, .unassign _ _, slotMove_decideSlot ..⟩
  · exact ⟨x.line, _, .unassign _ _, slotMove_decideSlot ..⟩
  all_goals exact (slotMove_decideSlot ..).stepMove

theorem stepMove_discoverStepEnd (i : SlotId) (x : Slot) (w : DiscoverWork) (o : TryOutcome)
    (s : State) : StepMove i s (discoverStepEnd i x w o s) := by
  refine ⟨x.line, _, .assign w o, ?_⟩
  unfold discoverStepEnd
  dsimp only
  split
  · exact slotMove_decideSlot ..
  · exact slotMove_discoverContinues ..

theorem stepMove_discoverCut (i : SlotId) (x : Slot) (w : DiscoverWork) (last : Option TryOutcome)
    (s : State) : StepMove i s (discoverCut i x w last s) := by
  unfold discoverCut
  cases last with
  | none => exact (slotMove_decideSlot ..).stepMove
  | some o => exact ⟨x.line, _, .assign w o, slotMove_decideSlot ..⟩

theorem stepMove_slotStepEnd (i : SlotId) (st : Step) (o : TryOutcome) (s : State) :
    StepMove i s (slotStepEnd i st o s) := by
  unfold slotStepEnd
  split
  · exact SlotMove.stays.stepMove
  · dsimp only
    split
    · exact stepMove_callStepEnd ..
    · exact (slotMove_sweepStepEnd ..).stepMove
    · exact (slotMove_commitStepEnd ..).stepMove
    · exact stepMove_discoverStepEnd ..
    · exact SlotMove.stays.stepMove

theorem stepMove_slotCut (i : SlotId) (tries : Nat) (last : Option TryOutcome) (s : State) :
    StepMove i s (slotCut i tries last s) := by
  unfold slotCut
  split
  · exact SlotMove.stays.stepMove
  · dsimp only
    split
    · exact stepMove_callCut ..
    · exact (slotMove_sweepCut ..).stepMove
    · exact (slotMove_commitCut ..).stepMove
    · exact stepMove_discoverCut ..
    · exact SlotMove.stays.stepMove

/-! ## Slots, steps and grants -/

variable {s m t : State}

theorem carried_slotMove {i : SlotId} (h : Carried s m) (k : SlotMove i m t) : Carried s t := by
  cases k with
  | stays => exact h
  | put y => exact carried_same h rfl
  | ends y st narrow =>
    have put : Carried s (m.setSlot i (some y)) := carried_same h rfl
    exact carried_lineKept put (endSlot_lineKept st narrow (slot_setSlot_self m i _) rfl)

theorem carried_stepMove {i : SlotId} (h : Carried s m) (k : StepMove i m t) : Carried s t := by
  obtain ⟨l, n, table, slot⟩ := k
  refine carried_slotMove ?_ slot
  cases table with
  | stays => exact h
  | unassign w o => exact carried_followUnassign h l w o
  | assign w o => exact carried_followAssign h l w o

theorem carried_adminAnswer (h : Carried s m) (st : Status) (d : List Byte) :
    Carried s (adminAnswer st d m) := by
  unfold adminAnswer submitResult loseResult tellSender
  dsimp only
  repeat' split
  all_goals first | exact h | exact carried_same h rfl

theorem carried_applyLineSet (h : Carried s m) (l : Line) (c : LineConfig) :
    Carried s (applyLineSet l c m) := by
  have set := carried_setEngine h l { m.engine l with config := c }
  unfold applyLineSet
  dsimp only
  refine carried_adminAnswer ?_ _ _
  split
  · exact carried_rejudgeTable set _ _
  · exact set

theorem carried_clearQueue (h : Carried s m) (l : Line) : Carried s (m.setQueue l []) :=
  carried_setQueue h (.inl (Nat.zero_le _))

theorem carried_finishCut (h : Carried s m) (l : Line) (disable forget : Bool) :
    Carried s (finishCut l disable forget m) := by
  have due := carried_setEngine h l { m.engine l with listenDue := false }
  have forgotten : Carried s (if forget = true then
      forgetLine l (m.setEngine l { m.engine l with listenDue := false })
      else m.setEngine l { m.engine l with listenDue := false }) := by
    split
    · exact carried_forgetLine due l
    · exact due
  unfold finishCut
  dsimp only
  refine carried_adminAnswer ?_ _ _
  split
  · exact carried_judgeRings (carried_setEngine (carried_clearQueue forgotten l) _ _)
  · exact forgotten

theorem carried_afterGrant (h : Carried s m) (l : Line) : Carried s (afterGrant l m) := by
  unfold afterGrant
  split
  · exact h
  · split
    · split
      · exact carried_applyLineSet h _ _
      · exact h
    · split
      · exact carried_finishCut h _ _ _
      · exact h
    · exact h

theorem carried_grantEnded (h : Carried s m) (l : Line) : Carried s (grantEnded l m) :=
  carried_afterGrant (carried_setEngine h _ _) _

theorem carried_endSeries (h : Carried s m) (l : Line) : Carried s (endSeries l m) :=
  carried_setEngine h _ _

theorem carried_windowEnd (h : Carried s m) (l : Line) (out : WindowOutcome) :
    Carried s (windowEnd l out m) := by
  unfold windowEnd
  dsimp only
  split
  · exact h
  · split
    · exact carried_endSeries h l
    · split
      · exact carried_endSeries (carried_setEngine h _ _) l
      · split
        · exact carried_endSeries h l
        · exact carried_setEngine h _ _

theorem carried_queueAfterGrant (h : Carried s m) (l : Line) : Carried s (queueAfterGrant l m) := by
  unfold queueAfterGrant
  split
  · exact carried_setQueue h (.inr (by simp))
  · exact carried_clearQueue h l
  · exact h

theorem carried_queueAfterDown (h : Carried s m) (l : Line) : Carried s (queueAfterDown l m) := by
  unfold queueAfterDown
  split
  · exact h
  · exact h
  · exact carried_clearQueue h l

theorem carried_reportLast (h : Carried s m) (l : Line) (last : Option TryOutcome) :
    Carried s (reportLast l last m) := by
  unfold reportLast
  split
  · exact carried_notePending (carried_reportStep h _ _ _ _) _ _
  · exact h

theorem carried_cutHolder (h : Carried s m) (l : Line) (last : Option TryOutcome) :
    Carried s (cutHolder l last m) := by
  have told := carried_reportLast h l last
  unfold cutHolder
  dsimp only
  split
  · exact h
  · exact carried_grantEnded (carried_stepMove told (stepMove_slotCut ..)) l
  · exact carried_grantEnded (carried_clearQueue h l) l
  · exact carried_grantEnded (carried_endSeries told l) l

theorem carried_endStep (h : Carried s m) (l : Line) (st : Step) (o : TryOutcome) :
    Carried s (endStep l st o m) := by
  have told := carried_notePending (carried_reportStep h l st.call st.allGarbled o) l o
  unfold endStep
  split
  · exact h
  · exact carried_grantEnded (carried_stepMove told (stepMove_slotStepEnd ..)) l
  · exact carried_grantEnded (carried_queueAfterGrant h l) l
  · split
    · exact carried_grantEnded h l
    · split
      · exact carried_grantEnded (carried_windowEnd h l _) l
      · exact carried_grantEnded (carried_windowEnd told l _) l

theorem carried_beginTry (h : Carried s m) (l : Line) : Carried s (beginTry l m) := by
  unfold beginTry
  dsimp only
  split
  · exact h
  · exact carried_setEngine h _ _

theorem carried_afterGap (h : Carried s m) (l : Line) : Carried s (afterGap l m) := by
  unfold afterGap
  split
  · exact carried_beginTry h l
  · exact carried_setEngine h _ _

theorem carried_waitForTry (h : Carried s m) (l : Line) (o : TryOutcome) :
    Carried s (waitForTry l o m) := by
  unfold waitForTry
  split
  · exact carried_same h rfl
  all_goals exact carried_afterGap h l

theorem carried_markUnverified (h : Carried s m) (l : Line) : Carried s (markUnverified l m) := by
  unfold markUnverified
  repeat' split
  all_goals first | exact h | exact carried_same h rfl

theorem carried_noteLostCommit (h : Carried s m) (l : Line) (o : TryOutcome) :
    Carried s (noteLostCommit l o m) := by
  unfold noteLostCommit
  split
  · exact carried_markUnverified h l
  · exact carried_markUnverified h l
  all_goals exact h

theorem carried_endTry (h : Carried s m) (l : Line) (o : TryOutcome) :
    Carried s (endTry l o m) := by
  unfold endTry
  dsimp only
  split
  · exact h
  · next st _ =>
    have past := carried_noteLostCommit
      (carried_setEngine h l ((m.engine l).afterTry (st.afterTry o) o)) l o
    split
    · exact carried_cutHolder past l _
    · split
      · exact carried_endStep past l _ _
      · exact carried_waitForTry past l _

/-! ## Listen windows and reflexes -/

theorem carried_endWindow (h : Carried s m) (l : Line) (out : WindowOutcome) :
    Carried s (endWindow l out m) := by
  have past := carried_setEngine h l { m.engine l with
    state := .idle, frameStarted := false, quiet := (m.engine l).quiet && out == .empty }
  unfold endWindow
  dsimp only
  split
  · exact carried_cutHolder past l _
  · exact carried_grantEnded (carried_windowEnd past l out) l

theorem carried_placeFiring (h : Carried s m) (k : ReflexId) (e : ReflexEntry) :
    Carried s (placeFiring k e m) := by
  unfold placeFiring
  dsimp only
  split
  · exact carried_createNotice h _ _
  · split
    · exact carried_createNotice h _ _
    · next room =>
      have queued : Carried s (m.setQueue e.actionLine (m.queue e.actionLine ++ [e.queuedCall])) :=
        carried_setQueue h (.inl (by simp only [List.length_append, List.length_singleton]; omega))
      split
      · exact carried_createNotice queued _ _
      · exact queued

/-! ## Entry to DOWN, cuts and aborts -/

theorem carried_holderDown (h : Carried s m) (l : Line) (e : LineEngine) (c : Bool) :
    Carried s (holderDown l e c m) := by
  unfold holderDown
  split
  · exact h
  · exact h
  · split
    · exact carried_stepMove h (stepMove_slotCut ..)
    · exact carried_slotMove h (slotMove_slotDown ..)
  · split
    · exact carried_clearQueue h l
    · exact carried_queueAfterDown h l

theorem slotMove_otherDown (l : Line) (e : LineEngine) (s : State) (i : SlotId) :
    SlotMove i s (otherDown l e s i) := by
  unfold otherDown
  split
  · exact .stays
  · split
    · exact .stays
    · split
      · split
        · exact slotMove_callDown ..
        · split
          · exact slotMove_discoverDown ..
          · exact slotMove_discoverDown ..
          all_goals exact .stays
        all_goals exact .stays
      · exact .stays

theorem carried_enterDown (h : Carried s m) (l : Line) : Carried s (enterDown l m) := by
  have marked : Carried s (noteDownCommit l
      (createNotice (some l) (.lineDown (m.engine l).state) m)) := by
    unfold noteDownCommit
    split
    · exact carried_markUnverified (carried_createNotice h _ _) l
    · exact carried_markUnverified (carried_createNotice h _ _) l
    all_goals exact carried_createNotice h _ _
  have down : Carried s (hearDown l (m.engine l) (goDown l m)) :=
    carried_foldl (fun _ i k => carried_slotMove k (slotMove_otherDown ..))
      (carried_holderDown (carried_setEngine marked _ _) l _ _) _
  unfold enterDown
  dsimp only
  refine carried_judgeRings ?_
  split
  · exact down
  · exact carried_grantEnded down l

theorem slotMove_cutSlot (l : Line) (s : State) (i : SlotId) : SlotMove i s (cutSlot l s i) := by
  unfold cutSlot
  split
  · exact .stays
  · split
    · split
      case h_4 => exact .stays
      case h_5 => exact .stays
      all_goals exact slotMove_endSlot ..
    · exact .stays

theorem carried_cutWaiting (h : Carried s m) (l : Line) : Carried s (cutWaiting l m) := by
  have slots : Carried s (allSlots.foldl (cutSlot l) m) :=
    carried_foldl (fun _ i k => carried_slotMove k (slotMove_cutSlot ..)) h _
  have queue : Carried s (cutQueue l (allSlots.foldl (cutSlot l) m)) := by
    unfold cutQueue
    split
    · exact slots
    all_goals exact carried_clearQueue slots l
  unfold cutWaiting cutSeries
  split
  · exact queue
  all_goals
    split
    · exact carried_endSeries queue l
    · exact queue

theorem carried_applyCut (h : Carried s m) (l : Line) (disable forget : Bool) :
    Carried s (applyCut l disable forget m) := by
  have cut := carried_cutWaiting h l
  unfold applyCut
  dsimp only
  split
  · exact carried_finishCut cut _ _ _
  all_goals
    split
    case h_1 => exact carried_cutHolder cut l _
    all_goals exact cut

theorem carried_abortWhere (h : Carried s m) (p : Slot → Bool) : Carried s (abortWhere p m) := by
  refine carried_foldl (fun m i k => ?_) h _
  split
  · exact k
  · split
    · exact carried_slotMove k (slotMove_abortSlot ..)
    · exact k

theorem carried_settleLine (h : Carried s m) (l : Line) : Carried s (settleLine l m) :=
  carried_lineKept h (settleLine_lineKept l m)

end Sys2Proof.Invariants

/-! The five laws of one state under the updates of the state: `LawsKept` holds of every command. -/

namespace Sys2Proof.Invariants

open Sys2Proof Sys2Proof.Machine Sys2Proof.Safety Sys2Proof.Laws

/-- Between two states each of the five laws is kept, whether or not the others hold. -/
structure LawsKept (s t : State) : Prop where
  buffer : BufferLaw s → BufferLaw t
  work : WorkCountLaw s → WorkCountLaw t
  out : OutCountLaw s → OutCountLaw t
  credit : CreditLaw s → CreditLaw t
  identity : IdentityLaw s → IdentityLaw t

theorem lawsKept_refl (s : State) : LawsKept s s := ⟨id, id, id, id, id⟩

theorem LawsKept.trans {s m t : State} (h : LawsKept s m) (k : LawsKept m t) : LawsKept s t :=
  ⟨k.buffer ∘ h.buffer, k.work ∘ h.work, k.out ∘ h.out, k.credit ∘ h.credit,
    k.identity ∘ h.identity⟩

/-! ## What the laws of the rings rest on -/

theorem workCountLaw_congr {s t : State}
    (same : (t.work, t.workFetch, t.adminFetch, t.device) =
      (s.work, s.workFetch, s.adminFetch, s.device)) (h : WorkCountLaw s) : WorkCountLaw t := by
  simp only [Prod.mk.injEq] at same
  obtain ⟨work, fetch, admin, device⟩ := same
  have ring : ∀ r, t.workRing r = s.workRing r := fun r => by rw [State.workRing, work]; rfl
  refine ⟨fun r => ?_, fun f hf => ?_, fun ha => ?_, fun hd => ?_⟩
  · rw [ring]; exact h.ahead r
  · rw [ring]; exact h.fetch f (fetch ▸ hf)
  · rw [ring]; exact h.admin (admin ▸ ha)
  · rw [fetch, admin]; exact h.idle (device ▸ hd)

theorem outRing_congr {s t : State} (same : (t.results, t.notice) = (s.results, s.notice))
    (n : RingName) : t.outRing n = s.outRing n := by
  simp only [Prod.mk.injEq] at same
  cases n with
  | result q => simp only [State.outRing, State.resultRing, same.1]
  | notice => exact same.2

theorem outCountLaw_congr {s t : State} (same : (t.results, t.notice) = (s.results, s.notice))
    (h : OutCountLaw s) : OutCountLaw t := fun n => by
  rw [outRing_congr same]
  exact h n

/-- A ring holds a slot of the table. -/
def holdsSlot (s : State) (r : WorkRingId) (i : SlotId) : Bool :=
  ((s.slot i).map fun x => x.ring == r).getD false

/-- The slot table's fetch in flight is of a ring. -/
def fetchesFor (s : State) (r : WorkRingId) : Bool :=
  match s.workFetch with
  | none => false
  | some f => f.ring == r

theorem ringSlots_eq (s : State) (r : WorkRingId) :
    s.ringSlots r = (allSlots.filter (holdsSlot s r)).length + (fetchesFor s r).toNat := by
  unfold State.ringSlots fetchesFor
  cases s.workFetch with
  | none => rfl
  | some f =>
    by_cases h : f.ring = r
    · simp only [h, if_true, beq_self_eq_true]; rfl
    · simp only [h, if_false, beq_eq_false_iff_ne.mpr h]; rfl

/-- A state in which no ring has gained a slot or a fetch holds no more slots of a ring. -/
theorem ringSlots_le {s t : State} {r : WorkRingId}
    (slots : ∀ i, holdsSlot t r i = true → holdsSlot s r i = true)
    (fetch : fetchesFor t r = true → fetchesFor s r = true) : t.ringSlots r ≤ s.ringSlots r := by
  rw [ringSlots_eq, ringSlots_eq]
  refine Nat.add_le_add (List.monotone_filter_right allSlots slots).length_le ?_
  exact Bool.toNat_le_toNat fetch

theorem holdsSlot_of_some {s : State} {r : WorkRingId} {i : SlotId} :
    holdsSlot s r i = true ↔ ∃ x, s.slot i = some x ∧ x.ring = r := by
  unfold holdsSlot
  cases s.slot i <;> simp

/-- The credit law passes to a state whose rings hold no more slots, whose open rings stay open and
keep their credit. -/
theorem creditLaw_of_le {s t : State} (slots : ∀ r, t.ringSlots r ≤ s.ringSlots r)
    (rings : ∀ r, r ≠ 0 → (s.workRing r).state ≠ .closed →
      (t.workRing r).state ≠ .closed ∧ (t.workRing r).credit = (s.workRing r).credit)
    (h : CreditLaw s) : CreditLaw t := by
  intro r hr
  have le := slots r
  by_cases closed : (s.workRing r).state = .closed
  · have none := (h r hr).1 closed
    exact ⟨fun _ => by omega, fun _ => by omega⟩
  · have few := (h r hr).2 closed
    obtain ⟨opened, credit⟩ := rings r hr closed
    exact ⟨fun x => absurd x opened, fun _ => by omega⟩

theorem creditLaw_congr {s t : State}
    (same : (t.work, t.slots, t.workFetch) = (s.work, s.slots, s.workFetch)) (h : CreditLaw s) :
    CreditLaw t := by
  simp only [Prod.mk.injEq] at same
  obtain ⟨work, slots, fetch⟩ := same
  refine creditLaw_of_le (fun r => ?_) (fun r _ hr => ?_) h
  · refine ringSlots_le (fun i hi => ?_) (fun hf => ?_)
    · rwa [holdsSlot, State.slot, slots] at hi
    · rwa [fetchesFor, fetch] at hf
  · have ring : t.workRing r = s.workRing r := by rw [State.workRing, work]; rfl
    rw [ring]
    exact ⟨hr, rfl⟩

/-- Nothing that a law speaks of has changed. -/
theorem lawsKept_congr {s t : State}
    (same : (t.buffer, t.lost, t.queues, t.nodes, t.work, t.slots, t.workFetch, t.adminFetch,
        t.device, t.results, t.notice) =
      (s.buffer, s.lost, s.queues, s.nodes, s.work, s.slots, s.workFetch, s.adminFetch,
        s.device, s.results, s.notice)) : LawsKept s t := by
  simp only [Prod.mk.injEq] at same
  obtain ⟨buffer, lost, queues, nodes, work, slots, fetch, admin, device, results, notice⟩ := same
  exact ⟨bufferLaw_congr (by rw [buffer, lost, queues]),
    workCountLaw_congr (by rw [work, fetch, admin, device]),
    outCountLaw_congr (by rw [results, notice]),
    creditLaw_congr (by rw [work, slots, fetch]), identityLaw_congr nodes⟩

/-! ## The work of a line -/

theorem workKept_counts {x y : WorkRing} (h : WorkKept x y) :
    y.ahead = x.ahead ∧ y.size = x.size ∧ y.credit = x.credit :=
  ⟨by unfold WorkRing.ahead; rw [← h.fields], by rw [← h.fields], by rw [← h.fields]⟩

theorem worked_outRing {s t : State} (h : Worked s t) (n : RingName) :
    t.outRing n = s.outRing n := by
  cases n with
  | result q => exact h.out q
  | notice => exact h.notice

theorem worked_holdsSlot {s t : State} (h : Worked s t) {r : WorkRingId} {i : SlotId}
    (hi : holdsSlot t r i = true) : holdsSlot s r i = true := by
  obtain ⟨y, hy, hr⟩ := holdsSlot_of_some.mp hi
  obtain ⟨x, hx, same⟩ := h.slot i y hy
  exact holdsSlot_of_some.mpr ⟨x, hx, same.ring.symm.trans hr⟩

/-- The work of a line keeps the laws. -/
theorem lawsKept_of_worked {s t : State} (h : Worked s t) (k : Carried s t) : LawsKept s t where
  buffer := k.buffer
  identity := k.identity
  work law := by
    refine ⟨fun r => ?_, fun f hf => ?_, fun ha => ?_, fun hd => ?_⟩
    · rw [(workKept_counts (h.work r)).1, (workKept_counts (h.work r)).2.1]
      exact law.ahead r
    · obtain ⟨ne, opened, pos⟩ := law.fetch f (h.workFetch ▸ hf)
      rw [(workKept_counts (h.work f.ring)).1]
      exact ⟨ne, k.opened _ opened, pos⟩
    · rw [(workKept_counts (h.work 0)).1]
      exact law.admin (h.adminFetch ▸ ha)
    · rw [h.workFetch, h.adminFetch]
      exact law.idle (h.device ▸ hd)
  out law n := by
    rw [worked_outRing h]
    exact law n
  credit := by
    refine creditLaw_of_le (fun r => ringSlots_le (fun i => worked_holdsSlot h) fun hf => ?_)
      fun r _ hr => ⟨k.opened r hr, (workKept_counts (h.work r)).2.2⟩
    rwa [fetchesFor, h.workFetch] at hf

theorem lawsKept_createNotice (l : Option Line) (b : NoticeBody) (s : State) :
    LawsKept s (createNotice l b s) :=
  lawsKept_of_worked (worked_createNotice (worked_refl s) l b)
    (carried_createNotice (carried_refl s) l b)

theorem lawsKept_judgeRings (s : State) : LawsKept s (judgeRings s) :=
  lawsKept_of_worked (worked_judgeRings (worked_refl s)) (carried_judgeRings (carried_refl s))

theorem lawsKept_adminAnswer (st : Status) (d : List Byte) (s : State) :
    LawsKept s (adminAnswer st d s) :=
  lawsKept_of_worked (worked_adminAnswer (worked_refl s) st d)
    (carried_adminAnswer (carried_refl s) st d)

theorem lawsKept_settleLine (l : Line) (s : State) : LawsKept s (settleLine l s) :=
  lawsKept_of_worked (worked_settleLine (worked_refl s) l) (carried_settleLine (carried_refl s) l)

theorem lawsKept_settleBoth (s : State) : LawsKept s (settleBoth s) :=
  (lawsKept_settleLine .a s).trans (lawsKept_settleLine .b _)

theorem lawsKept_abortWhere (p : Slot → Bool) (s : State) : LawsKept s (abortWhere p s) :=
  lawsKept_of_worked (worked_abortWhere (worked_refl s) p) (carried_abortWhere (carried_refl s) p)

theorem lawsKept_endSlot (i : SlotId) (st : Status) (narrow : Bool) (s : State) :
    LawsKept s (endSlot i st narrow s) :=
  lawsKept_of_worked (worked_endSlot (worked_refl s) i st narrow)
    (carried_slotMove (carried_refl s) (slotMove_endSlot i st narrow s))

theorem lawsKept_abortSlot (i : SlotId) (s : State) : LawsKept s (abortSlot i s) :=
  lawsKept_of_worked (worked_abortSlot (worked_refl s) i)
    (carried_slotMove (carried_refl s) (slotMove_abortSlot i s))

theorem lawsKept_tellSender (who : Sender) (s : State) : LawsKept s (tellSender who s) := by
  cases who with
  | slot i =>
    exact lawsKept_of_worked (worked_freeSlot (worked_refl s) i) (carried_same (carried_refl s) rfl)
  | admin => exact lawsKept_congr rfl

/-! ## The written rings -/

/-- The counts stand, and no new record is on its way. -/
theorem ringLaw_of_same {o p : OutputRing}
    (same : (p.size, p.written, p.consumed) = (o.size, o.written, o.consumed))
    (access : ∀ w, p.access = .record w false → o.access = .record w false)
    (h : outCountLaw o) : outCountLaw p := by
  simp only [Prod.mk.injEq] at same
  obtain ⟨size, written, consumed⟩ := same
  have counts : p.unconsumed = o.unconsumed := by simp only [OutputRing.unconsumed, written, consumed]
  obtain ⟨small, fits, room⟩ := h
  rw [outCountLaw, counts, size]
  exact ⟨small, fits, fun w hw => room w (access w hw)⟩

theorem lawsKept_setResultRing {s : State} {q : ResultRingId} {r : ResultRing}
    (h : outCountLaw (s.resultRing q).out → outCountLaw r.out) :
    LawsKept s (s.setResultRing q r) := by
  refine ⟨bufferLaw_congr rfl, workCountLaw_congr rfl, fun law n => ?_, creditLaw_congr rfl,
    identityLaw_congr rfl⟩
  cases n with
  | notice => exact law .notice
  | result p =>
    rcases eq_or_ne p q with rfl | hp
    · rw [State.outRing, resultRing_setResultRing_self]
      exact h (law (.result p))
    · rw [State.outRing, resultRing_setResultRing_ne _ _ hp]
      exact law (.result p)

theorem lawsKept_notice {s : State} {o : OutputRing} (h : outCountLaw s.notice → outCountLaw o) :
    LawsKept s { s with notice := o } := by
  refine ⟨bufferLaw_congr rfl, workCountLaw_congr rfl, fun law n => ?_, creditLaw_congr rfl,
    identityLaw_congr rfl⟩
  cases n with
  | notice => exact h (law .notice)
  | result p => exact law (.result p)

theorem lawsKept_setOutRing {s : State} {n : RingName} {o : OutputRing}
    (h : outCountLaw (s.outRing n) → outCountLaw o) : LawsKept s (s.setOutRing n o) := by
  cases n with
  | notice => exact lawsKept_notice h
  | result q => exact lawsKept_setResultRing h

theorem lawsKept_loseResult (q : ResultRingId) (s : State) (r : ResultRecord) :
    LawsKept s (loseResult q s r) := by
  refine LawsKept.trans ?_ (lawsKept_tellSender _ _)
  exact lawsKept_setResultRing id

theorem lawsKept_foldl {α : Type} {f : State → α → State} (hf : ∀ m x, LawsKept m (f m x))
    (s : State) (xs : List α) : LawsKept s (xs.foldl f s) := by
  induction xs generalizing s with
  | nil => exact lawsKept_refl s
  | cons x xs ih => exact (hf s x).trans (ih _)

theorem lawsKept_halted (s : State) : LawsKept s { s with device := .halted } :=
  ⟨bufferLaw_congr rfl, fun law => ⟨law.ahead, law.fetch, law.admin, by simp⟩,
    outCountLaw_congr rfl, creditLaw_congr rfl, identityLaw_congr rfl⟩

theorem lawsKept_haltDevice (reason : HaltReason) (s : State) :
    LawsKept s (haltDevice reason s) := by
  unfold haltDevice
  dsimp only
  have timers := lawsKept_foldl (f := fun (s : State) q => s.setResultRing q
      { s.resultRing q with out := { (s.resultRing q).out with timer := none } })
    (fun m q => lawsKept_setResultRing (ringLaw_of_same rfl fun _ => id)) s allResultRings
  generalize List.foldl _ s allResultRings = m at timers
  have noticeTimer : LawsKept m { m with notice := { m.notice with timer := none } } :=
    lawsKept_notice (ringLaw_of_same rfl fun _ => id)
  exact (timers.trans noticeTimer).trans ((lawsKept_halted _).trans (lawsKept_congr rfl))

theorem lawsKept_faultResultRing (q : ResultRingId) (reason : FaultReason) (s : State) :
    LawsKept s (faultResultRing q reason s) := by
  unfold faultResultRing
  dsimp only
  have kept : LawsKept s (s.setResultRing q
      { s.resultRing q with pending := (s.resultRing q).keptAtFault q }) :=
    lawsKept_setResultRing id
  have lost := lawsKept_foldl (lawsKept_loseResult q) (s.setResultRing q
      { s.resultRing q with pending := (s.resultRing q).keptAtFault q })
    ((s.resultRing q).pending.drop ((s.resultRing q).keptAtFault q).length)
  generalize List.foldl _ _ _ = m at lost
  have stopped : LawsKept m (m.setResultRing q
      { m.resultRing q with out := { (m.resultRing q).out with state := .faulted, timer := none } }) :=
    lawsKept_setResultRing (ringLaw_of_same rfl fun _ => id)
  refine ((kept.trans lost).trans stopped).trans (LawsKept.trans (lawsKept_createNotice none
    (.ringFault (.result q) reason (m.resultRing q).lost) _) ?_)
  split
  · exact lawsKept_haltDevice _ _
  · exact lawsKept_judgeRings _

theorem lawsKept_faultRing (n : RingName) (reason : FaultReason) (s : State) :
    LawsKept s (faultRing n reason s) := by
  cases n with
  | result q => exact lawsKept_faultResultRing q reason s
  | notice =>
    have stopped : LawsKept s
        { s with notice := { s.notice with state := .faulted, timer := none } } :=
      lawsKept_notice (ringLaw_of_same rfl fun _ => id)
    exact stopped.trans (lawsKept_createNotice _ _ _)

/-- R184: a good TAKE moves consumed no further than written. -/
theorem ringLaw_taken {o : OutputRing} {count : Half} (good : o.goodTake count = true)
    (h : outCountLaw o) : outCountLaw (o.taken count) := by
  obtain ⟨small, fits, room⟩ := h
  have good' : (count - o.consumed).toNat ≤ (o.written - o.consumed).toNat := by
    exact of_decide_eq_true good
  have fewer : (o.taken count).unconsumed ≤ o.unconsumed := by
    show (o.written - count).toNat ≤ (o.written - o.consumed).toNat
    bv_omega
  exact ⟨small, fewer.trans fits, fun w hw => lt_of_le_of_lt fewer (room w hw)⟩

theorem lawsKept_takeRing (n : RingName) (count : Half) (s : State) :
    LawsKept s (takeRing n count s) := by
  unfold takeRing
  dsimp only
  split
  · exact lawsKept_refl s
  · exact lawsKept_refl s
  · split
    · next good => exact lawsKept_setOutRing (ringLaw_taken good)
    · exact lawsKept_faultRing n _ s

theorem signalWrite_same (now : Word) (o : OutputRing) :
    (o.signalWrite now).size = o.size ∧ (o.signalWrite now).written = o.written ∧
      (o.signalWrite now).consumed = o.consumed := by
  unfold OutputRing.signalWrite
  split <;> exact ⟨rfl, rfl, rfl⟩

/-- R182, R183: the record on its way has had room. -/
theorem written_fits {o : OutputRing} {w : HostWrite} (h : outCountLaw o)
    (access : o.access = .record w false) : (o.written + 1 - o.consumed).toNat ≤ o.size := by
  obtain ⟨small, -, room⟩ := h
  have room : (o.written - o.consumed).toNat < o.size := room w access
  bv_omega

theorem ringLaw_recordWritten {o : OutputRing} {w : HostWrite} (now : Word)
    (access : o.access = .record w false) (h : outCountLaw o) :
    outCountLaw (o.recordWritten now) := by
  obtain ⟨size, written, consumed⟩ := signalWrite_same now { o with written := o.written + 1 }
  refine ⟨?_, ?_, fun w hw => by cases hw⟩
  · exact le_of_eq_of_le size h.1
  · have fits := written_fits h access
    unfold OutputRing.unconsumed OutputRing.recordWritten OutputRing.beginProgress
    rw [written, consumed, size]
    exact fits

theorem ringLaw_recordWrittenHalted {o : OutputRing} {w : HostWrite}
    (access : o.access = .record w false) (h : outCountLaw o) :
    outCountLaw o.recordWrittenHalted :=
  ⟨h.1, written_fits h access, fun w hw => by cases hw⟩

theorem ringLaw_idle {o : OutputRing} (h : outCountLaw o) : outCountLaw o.idle := by
  refine ringLaw_of_same (o := o) rfl (fun w hw => ?_) h
  cases hw

/-- R183: a write begins only on a ring that is not full. -/
theorem ringLaw_begun {o : OutputRing} (next : Option (List Byte)) (h : outCountLaw o) :
    outCountLaw (o.begun next) := by
  unfold OutputRing.begun
  split
  · exact h
  · split
    · next writable =>
      have room : o.unconsumed < o.size := by
        have := writable
        simp only [OutputRing.writable, OutputRing.full, Bool.and_eq_true, Bool.not_eq_true',
          decide_eq_false_iff_not] at this
        omega
      exact ⟨h.1, h.2.1, fun _ _ => room⟩
    · exact h

theorem ringLaw_acknowledge {o : OutputRing} (now : Word) (live : Bool) (h : outCountLaw o) :
    outCountLaw (o.acknowledge now live) := by
  unfold OutputRing.acknowledge
  split
  · exact ringLaw_of_same rfl (fun _ => id) h
  · exact h

theorem lawsKept_writeSignal (value : Word) (s : State) : LawsKept s (writeSignal value s) := by
  have ack : ∀ n place m, LawsKept m (acknowledgeRing value n place m) := by
    intro n place m
    unfold acknowledgeRing
    split
    · exact lawsKept_setOutRing (ringLaw_acknowledge _ _)
    · exact lawsKept_refl m
  have rings := ((((ack (.result 0) 0 s).trans (ack (.result 1) 1 _)).trans
    (ack (.result 2) 2 _)).trans (ack (.result 3) 3 _)).trans (ack .notice 4 _)
  unfold writeSignal
  dsimp only
  split
  · exact rings.trans (lawsKept_congr rfl)
  · exact rings

theorem lawsKept_holdoffExpiry (n : RingName) (s : State) : LawsKept s (holdoffExpiry n s) := by
  unfold holdoffExpiry
  split
  · exact lawsKept_setOutRing (ringLaw_of_same rfl fun _ => id)
  · exact lawsKept_refl s

/-! ## The work rings -/

/-- A work ring is replaced: its posts stay within its size, a record that was posted stays posted on
an open ring and on ring 0, and an open ring stays open with its credit. -/
theorem lawsKept_setWorkRing {s : State} {r : WorkRingId} {w : WorkRing}
    (count : (s.workRing r).ahead ≤ (s.workRing r).size → w.ahead ≤ w.size)
    (posted : (s.workRing r).state ≠ .closed ∨ r = 0 → 0 < (s.workRing r).ahead → 0 < w.ahead)
    (kept : r ≠ 0 → (s.workRing r).state ≠ .closed →
      w.state ≠ .closed ∧ w.credit = (s.workRing r).credit) :
    LawsKept s (s.setWorkRing r w) := by
  refine ⟨bufferLaw_congr rfl, fun law => ⟨fun n => ?_, fun f hf => ?_, fun ha => ?_, law.idle⟩,
    outCountLaw_congr rfl, creditLaw_of_le (fun n => le_rfl) fun n hn opened => ?_,
    identityLaw_congr rfl⟩
  · rcases eq_or_ne n r with rfl | hn
    · rw [workRing_setWorkRing_self]
      exact count (law.ahead n)
    · rw [workRing_setWorkRing_ne _ _ hn]
      exact law.ahead n
  · obtain ⟨ne, opened, pos⟩ := law.fetch f hf
    rcases eq_or_ne f.ring r with rfl | hn
    · rw [workRing_setWorkRing_self]
      exact ⟨ne, (kept ne opened).1, posted (.inl opened) pos⟩
    · rw [workRing_setWorkRing_ne _ _ hn]
      exact ⟨ne, opened, pos⟩
  · have pos := law.admin ha
    rcases eq_or_ne 0 r with rfl | hn
    · rw [workRing_setWorkRing_self]
      exact posted (.inr rfl) pos
    · rwa [workRing_setWorkRing_ne _ _ hn]
  · rcases eq_or_ne n r with rfl | hn'
    · rw [workRing_setWorkRing_self]
      exact kept hn opened
    · rw [workRing_setWorkRing_ne _ _ hn']
      exact ⟨opened, rfl⟩

theorem lawsKept_faultWorkRing (r : WorkRingId) (reason : FaultReason) (s : State) :
    LawsKept s (faultWorkRing r reason s) := by
  have faulted : LawsKept s (s.setWorkRing r { s.workRing r with state := .faulted }) :=
    lawsKept_setWorkRing id (fun _ => id) fun _ _ => ⟨by simp, rfl⟩
  unfold faultWorkRing
  dsimp only
  split
  · exact (faulted.trans (lawsKept_createNotice _ _ _)).trans (lawsKept_haltDevice _ _)
  · exact faulted.trans (lawsKept_createNotice _ _ _)

/-- R177: a good POST names at most a ring's size, and no fewer records than before. -/
theorem lawsKept_postRing (r : WorkRingId) (number : Byte) (count : Half) (s : State) :
    LawsKept s (postRing r number count s) := by
  have posted : (s.workRing r).goodPost count = true →
      LawsKept s (s.setWorkRing r { s.workRing r with posted := count }) := by
    intro good
    simp only [WorkRing.goodPost, Bool.and_eq_true, decide_eq_true_eq] at good
    exact lawsKept_setWorkRing (fun _ => good.1) (fun _ pos => lt_of_lt_of_le pos good.2)
      fun _ opened => ⟨opened, rfl⟩
  have judged : LawsKept s (if (s.workRing r).goodPost count then
      s.setWorkRing r { s.workRing r with posted := count } else faultWorkRing r .badPost s) := by
    split
    · next good => exact posted good
    · exact lawsKept_faultWorkRing _ _ _
  unfold postRing
  dsimp only
  split
  · exact lawsKept_createNotice _ _ _
  · exact lawsKept_createNotice _ _ _
  · exact lawsKept_refl s
  · exact judged
  · exact judged

/-! ## What the ring unit does of itself -/

/-- R180, R186, R188: a work ring closes only without slots and without a fetch. -/
theorem lawsKept_shutRings (s : State) : LawsKept s (shutRings s) := by
  have fields : ∀ r, ((shutRings s).workRing r).ahead = (s.workRing r).ahead ∧
      ((shutRings s).workRing r).size = (s.workRing r).size ∧
      ((shutRings s).workRing r).credit = (s.workRing r).credit := by
    intro r
    rw [shutRings_workRing]
    split <;> exact ⟨rfl, rfl, rfl⟩
  have closes : ∀ r, (s.workRing r).state ≠ .closed → ((shutRings s).workRing r).state = .closed →
      s.ringSlots r = 0 := by
    intro r opened closed
    rw [shutRings_workRing] at closed
    split at closed
    · next h => simp_all [State.workCloses]
    · exact absurd closed opened
  refine ⟨bufferLaw_congr rfl, fun law => ⟨fun r => ?_, fun f hf => ?_, fun ha => ?_, law.idle⟩,
    fun law n => ?_, fun law r hr => ?_, identityLaw_congr rfl⟩
  · rw [(fields r).1, (fields r).2.1]
    exact law.ahead r
  · obtain ⟨ne, opened, pos⟩ := law.fetch f hf
    rw [(fields f.ring).1]
    refine ⟨ne, fun closed => ?_, pos⟩
    have none := closes f.ring opened closed
    have one : fetchesFor s f.ring = true := by
      have : s.workFetch = some f := hf
      simp [fetchesFor, this]
    rw [ringSlots_eq, one] at none
    simp at none
  · rw [(fields 0).1]
    exact law.admin ha
  · cases n with
    | notice =>
      show outCountLaw (if s.noticeCloses then s.notice.closed else s.notice)
      split
      · exact ringLaw_of_same rfl (fun _ => id) (law .notice)
      · exact law .notice
    | result q =>
      rw [State.outRing, shutRings_out]
      split
      · exact ringLaw_of_same rfl (fun _ => id) (law (.result q))
      · exact law (.result q)
  · by_cases opened : (s.workRing r).state = .closed
    · have none : (shutRings s).ringSlots r = 0 := (law r hr).1 opened
      exact ⟨fun _ => none, fun _ => by omega⟩
    · refine ⟨closes r opened, fun _ => ?_⟩
      rw [(fields r).2.2]
      exact (law r hr).2 opened

theorem lawsKept_closeRings (s : State) : LawsKept s (closeRings s) := by
  have shut := lawsKept_shutRings s
  unfold closeRings
  refine LawsKept.trans ?_ (lawsKept_judgeRings _)
  split
  · exact shut
  · exact shut.trans (lawsKept_adminAnswer _ _ _)

theorem lawsKept_startWrites (s : State) : LawsKept s (startWrites s) := by
  refine ⟨bufferLaw_congr rfl, workCountLaw_congr rfl, fun law n => ?_, creditLaw_congr rfl,
    identityLaw_congr rfl⟩
  cases n with
  | notice => exact ringLaw_begun _ (law .notice)
  | result q =>
    rw [State.outRing, startWrites_resultRing]
    exact ringLaw_begun _ (law (.result q))

theorem ringsAfter_ne_zero {last r : WorkRingId} (h : r ∈ ringsAfter last) : r ≠ 0 := by
  simp only [ringsAfter, List.mem_map] at h
  obtain ⟨i, -, rfl⟩ := h
  simp [Fin.ext_iff]

theorem nextRing_eligible {s : State} {c : RingClass} {last r : WorkRingId}
    (h : nextRing s c last = some r) : r ≠ 0 ∧ eligible s r = true := by
  have found := List.find?_some h
  simp only [Bool.and_eq_true] at found
  exact ⟨ringsAfter_ne_zero (List.mem_of_find?_eq_some h), found.2⟩

theorem chooseRing_eligible {s : State} {r : WorkRingId} {v : Served}
    (h : chooseRing s = some (r, v)) : r ≠ 0 ∧ eligible s r = true := by
  unfold chooseRing at h
  split at h
  · next hr => cases h; exact nextRing_eligible hr
  · split at h
    · next hr => cases h; exact nextRing_eligible hr
    · split at h
      · simp only [Option.map_eq_some_iff, Prod.mk.injEq] at h
        obtain ⟨r', hr, rfl, -⟩ := h
        exact nextRing_eligible hr
      · cases h

/-- R65: a fetch begins for an ACTIVE ring below its credit with a record posted. -/
theorem lawsKept_beginFetch {s : State} {f : WorkFetch} (v : Served)
    (running : s.device = .running) (idle : s.workFetch = none) (ne : f.ring ≠ 0)
    (fits : eligible s f.ring = true) :
    LawsKept s { s with workFetch := some f, served := v } := by
  simp only [eligible, Bool.and_eq_true, beq_iff_eq, decide_eq_true_eq] at fits
  obtain ⟨⟨active, pos⟩, credit⟩ := fits
  have opened : (s.workRing f.ring).state ≠ .closed := by rw [active]; decide
  have before : ∀ n, s.ringSlots n = (allSlots.filter (holdsSlot s n)).length := fun n => by
    rw [ringSlots_eq, fetchesFor, idle]; rfl
  have slots : ∀ n, ({ s with workFetch := some f, served := v } : State).ringSlots n =
      s.ringSlots n + (f.ring == n).toNat := fun n => by rw [before, ringSlots_eq]; rfl
  refine ⟨bufferLaw_congr rfl, fun law => ⟨law.ahead, fun g hg => ?_, law.admin, ?_⟩,
    outCountLaw_congr rfl, fun law n hn => ?_, identityLaw_congr rfl⟩
  · cases hg
    exact ⟨ne, opened, pos⟩
  · rw [running]
    simp
  · rw [slots]
    rcases eq_or_ne f.ring n with rfl | hr
    · refine ⟨fun closed => absurd closed opened, fun _ => ?_⟩
      rw [beq_self_eq_true]
      exact credit
    · rw [beq_eq_false_iff_ne.mpr hr]
      exact law n hn

theorem lawsKept_allocate (s : State) : LawsKept s (allocate s) := by
  unfold allocate
  split
  · next ready =>
    obtain ⟨running, idle⟩ := ready
    split
    · next chosen =>
      obtain ⟨ne, fits⟩ := chooseRing_eligible chosen
      exact lawsKept_beginFetch _ running (Option.isNone_iff_eq_none.mp idle) ne fits
    · exact lawsKept_refl s
  · exact lawsKept_refl s

theorem lawsKept_fetchAdmin (s : State) : LawsKept s (fetchAdmin s) := by
  unfold fetchAdmin
  dsimp only
  split
  · next ready =>
    obtain ⟨running, -, pos, -⟩ := ready
    refine ⟨bufferLaw_congr rfl, fun law => ⟨law.ahead, law.fetch, fun _ => pos, ?_⟩,
      outCountLaw_congr rfl, creditLaw_congr rfl, identityLaw_congr rfl⟩
    rw [running]
    simp
  · exact lawsKept_refl s

/-- The device has gone from one state in which the part fetches to another. -/
theorem lawsKept_device {s : State} {d : DeviceState}
    (h : d = .reset ∨ d = .starting → s.device = .reset ∨ s.device = .starting) :
    LawsKept s { s with device := d } :=
  ⟨bufferLaw_congr rfl, fun law => ⟨law.ahead, law.fetch, law.admin, fun hd => law.idle (h hd)⟩,
    outCountLaw_congr rfl, creditLaw_congr rfl, identityLaw_congr rfl⟩

theorem lawsKept_serviceRings (s : State) : LawsKept s (serviceRings s) := by
  have stopped : ∀ m, LawsKept m (enterStopped m) := by
    intro m
    unfold enterStopped
    split
    · exact lawsKept_device (by simp)
    · exact lawsKept_refl m
  unfold serviceRings
  split
  · exact (lawsKept_closeRings s).trans ((lawsKept_startWrites _).trans
      ((lawsKept_allocate _).trans ((lawsKept_fetchAdmin _).trans (stopped _))))
  · exact lawsKept_refl s

end Sys2Proof.Invariants

/-! Every command keeps the five laws, and the laws hold after reset. -/

namespace Sys2Proof.Invariants

open Sys2Proof Sys2Proof.Machine Sys2Proof.Safety Sys2Proof.Laws

/-! ## The ends of writes -/

theorem lawsKept_loseHead (q : ResultRingId) (s : State) : LawsKept s (loseHead q s) := by
  unfold loseHead
  dsimp only
  split
  · exact lawsKept_refl s
  · refine LawsKept.trans ?_ (lawsKept_loseResult q _ _)
    exact lawsKept_setResultRing id

theorem lawsKept_faultIfActive (n : RingName) (stale : Bool) (s : State) :
    LawsKept s (faultIfActive n stale s) := by
  unfold faultIfActive
  split
  · exact lawsKept_faultRing n _ s
  · exact lawsKept_refl s

theorem lawsKept_resultFault (q : ResultRingId) (s : State) : LawsKept s (resultFault q s) := by
  have idle : LawsKept s (s.setResultRing q
      { s.resultRing q with out := (s.resultRing q).out.idle }) :=
    lawsKept_setResultRing ringLaw_idle
  unfold resultFault
  dsimp only
  split
  · split
    · exact lawsKept_refl s
    · exact ((idle.trans (lawsKept_loseHead q _)).trans (lawsKept_faultIfActive _ _ _)).trans
        (lawsKept_serviceRings _)
    · exact (idle.trans (lawsKept_faultIfActive _ _ _)).trans (lawsKept_serviceRings _)
  · exact idle

theorem lawsKept_noticeFault (s : State) : LawsKept s (noticeFault s) := by
  have idle : LawsKept s { s with notice := s.notice.idle } := lawsKept_notice ringLaw_idle
  unfold noticeFault
  dsimp only
  split
  · split
    · exact lawsKept_refl s
    all_goals exact (idle.trans (lawsKept_faultIfActive _ _ _)).trans (lawsKept_serviceRings _)
  · exact idle

/-- The ring after the end of a record write, of its own opening or of an earlier one. -/
theorem ringLaw_recordEnds {o p : OutputRing} {w : HostWrite} {stale : Bool}
    (access : o.access = .record w stale)
    (written : stale = false → o.access = .record w false → outCountLaw o → outCountLaw p)
    (h : outCountLaw o) : outCountLaw (if stale then o.idle else p) := by
  cases stale with
  | true => exact ringLaw_idle h
  | false => exact written rfl access h

theorem lawsKept_tellHead (pending : List ResultRecord) (s : State) :
    LawsKept s (tellHead pending s) := by
  cases pending with
  | nil => exact lawsKept_refl s
  | cons r _ => exact lawsKept_tellSender r.sender s

theorem lawsKept_resultWritten (q : ResultRingId) (s : State) : LawsKept s (resultWritten q s) := by
  unfold resultWritten
  dsimp only
  split
  · exact lawsKept_refl s
  · exact lawsKept_refl s
  · next w stale access =>
    split
    · refine LawsKept.trans (LawsKept.trans ?_ (lawsKept_tellHead _ _)) (lawsKept_serviceRings _)
      exact lawsKept_setResultRing
        (ringLaw_recordEnds access fun _ a => ringLaw_recordWritten s.ms a)
    · exact lawsKept_setResultRing
        (ringLaw_recordEnds access fun _ a => ringLaw_recordWrittenHalted a)

theorem lawsKept_progressWritten (n : RingName) (s : State) :
    LawsKept s (progressWritten n s) := by
  unfold progressWritten
  split
  · exact lawsKept_refl s
  · exact lawsKept_refl s
  · exact LawsKept.trans (lawsKept_setOutRing ringLaw_idle) (lawsKept_serviceRings _)

theorem lawsKept_dropHead (s : State) : LawsKept s { s with buffer := s.buffer.tail } :=
  ⟨fun law => ⟨(by simp : s.buffer.tail.length ≤ s.buffer.length).trans law.buffer, law.lost,
      law.queue⟩,
    workCountLaw_congr rfl, outCountLaw_congr rfl, creditLaw_congr rfl, identityLaw_congr rfl⟩

theorem lawsKept_noticeWritten (s : State) : LawsKept s (noticeWritten s) := by
  unfold noticeWritten
  split
  · exact lawsKept_refl s
  · exact lawsKept_refl s
  · next w stale access =>
    split
    · exact LawsKept.trans (LawsKept.trans (lawsKept_dropHead s) (lawsKept_notice
        (ringLaw_recordEnds access fun _ a => ringLaw_recordWritten s.ms a)))
        (lawsKept_serviceRings _)
    · exact (lawsKept_dropHead s).trans (lawsKept_notice
        (ringLaw_recordEnds access fun _ a => ringLaw_recordWrittenHalted a))

/-! ## Fetches and fills -/

/-- A fetch that is over is no longer one. -/
theorem lawsKept_dropFetch (s : State) : LawsKept s { s with workFetch := none } := by
  refine ⟨bufferLaw_congr rfl, fun law => ⟨law.ahead, ?_, law.admin, fun hd => ⟨rfl, ?_⟩⟩,
    outCountLaw_congr rfl,
    creditLaw_of_le (fun r => ringSlots_le (fun _ => id) ?_) fun r _ hr => ⟨hr, rfl⟩,
    identityLaw_congr rfl⟩
  · intro f hf
    cases hf
  · exact (law.idle hd).2
  · intro hf
    cases hf

theorem lawsKept_dropAdminFetch (s : State) : LawsKept s { s with adminFetch := none } := by
  refine ⟨bufferLaw_congr rfl, fun law => ⟨law.ahead, law.fetch, ?_, fun hd => ⟨?_, rfl⟩⟩,
    outCountLaw_congr rfl, creditLaw_congr rfl, identityLaw_congr rfl⟩
  · intro ha
    cases ha
  · exact (law.idle hd).1

theorem lawsKept_stopFetch (s : State) :
    LawsKept s { s with workFetch := s.workFetch.map fun f => { f with stopped := true } } := by
  refine ⟨bufferLaw_congr rfl, fun law => ⟨law.ahead, ?_, law.admin, fun hd => ⟨?_, ?_⟩⟩,
    outCountLaw_congr rfl,
    creditLaw_of_le (fun r => ringSlots_le (fun _ => id) ?_) fun r _ hr => ⟨hr, rfl⟩,
    identityLaw_congr rfl⟩
  · intro f hf
    simp only [Option.map_eq_some_iff] at hf
    obtain ⟨g, hg, rfl⟩ := hf
    exact law.fetch g hg
  · simp [(law.idle hd).1]
  · exact (law.idle hd).2
  · intro hf
    unfold fetchesFor at hf ⊢
    cases h : s.workFetch <;> simp_all

/-- The ring of a fetch with its record counted. -/
theorem fetched_ahead {w : WorkRing} (pos : 0 < w.ahead) :
    ({ w with fetched := w.fetched + 1 } : WorkRing).ahead + 1 = w.ahead := by
  unfold WorkRing.ahead at *
  dsimp only
  bv_omega

/-- Counting a fetched record changes of the rings only that one's count. -/
theorem countFetched_workRing (s : State) (r n : WorkRingId) :
    ((s.setWorkRing r { s.workRing r with fetched := (s.workRing r).fetched + 1 }).workRing n).size
        = (s.workRing n).size ∧
      ((s.setWorkRing r { s.workRing r with fetched := (s.workRing r).fetched + 1 }).workRing n).state
        = (s.workRing n).state ∧
      ((s.setWorkRing r { s.workRing r with fetched := (s.workRing r).fetched + 1 }).workRing n).credit
        = (s.workRing n).credit := by
  rcases eq_or_ne n r with rfl | hn
  · rw [workRing_setWorkRing_self]
    exact ⟨rfl, rfl, rfl⟩
  · rw [workRing_setWorkRing_ne _ _ hn]
    exact ⟨rfl, rfl, rfl⟩

/-- The posted records of a ring once the record of a fetch has been counted. -/
theorem countFetched_ahead {s : State} {r : WorkRingId} (pos : 0 < (s.workRing r).ahead)
    (n : WorkRingId) :
    ((s.setWorkRing r { s.workRing r with fetched := (s.workRing r).fetched + 1 }).workRing n).ahead
      ≤ (s.workRing n).ahead ∧
    (n ≠ r →
      ((s.setWorkRing r { s.workRing r with fetched := (s.workRing r).fetched + 1 }).workRing n).ahead
        = (s.workRing n).ahead) := by
  rcases eq_or_ne n r with rfl | hn
  · rw [workRing_setWorkRing_self]
    exact ⟨(Nat.le_succ _).trans_eq (fetched_ahead pos), fun h => absurd rfl h⟩
  · rw [workRing_setWorkRing_ne _ _ hn]
    exact ⟨le_rfl, fun _ => rfl⟩

/-- The reserved slot holds the record of its fetch (R66). -/
def filled (f : WorkFetch) (x : Slot) (s : State) : State :=
  { (({ s with workFetch := none }).setWorkRing f.ring
      { s.workRing f.ring with fetched := (s.workRing f.ring).fetched + 1 }).setSlot f.slot (some x)
    with fetchSeq := s.fetchSeq + 1 }

theorem filled_workRing (f : WorkFetch) (x : Slot) (s : State) (r : WorkRingId) :
    (filled f x s).workRing r = (s.setWorkRing f.ring
      { s.workRing f.ring with fetched := (s.workRing f.ring).fetched + 1 }).workRing r := rfl

theorem filled_slot (f : WorkFetch) (x : Slot) (s : State) :
    (filled f x s).slot f.slot = some x := slot_setSlot_self _ _ _

theorem filled_slot_ne {f : WorkFetch} (x : Slot) (s : State) {i : SlotId} (h : i ≠ f.slot) :
    (filled f x s).slot i = s.slot i := slot_setSlot_ne _ _ h

/-- R65, R66: the reservation counted for the ring before the slot does. -/
theorem filled_ringSlots {s : State} {f : WorkFetch} {x : Slot} (fetch : s.workFetch = some f)
    (ring : x.ring = f.ring) (r : WorkRingId) : (filled f x s).ringSlots r ≤ s.ringSlots r := by
  have past : fetchesFor (filled f x s) r = false := rfl
  have slots : ∀ i, holdsSlot (filled f x s) r i = true →
      i = f.slot ∧ f.ring = r ∨ holdsSlot s r i = true := by
    intro i hi
    rcases eq_or_ne i f.slot with rfl | ne
    · obtain ⟨y, hy, hr⟩ := holdsSlot_of_some.mp hi
      rw [filled_slot] at hy
      cases hy
      exact .inl ⟨rfl, ring.symm.trans hr⟩
    · rw [holdsSlot, filled_slot_ne x s ne] at hi
      exact .inr hi
  rw [ringSlots_eq, ringSlots_eq, past]
  rcases eq_or_ne f.ring r with hr | hr
  · have one : fetchesFor s r = true := by simp [fetchesFor, fetch, hr]
    have nodup : (allSlots.filter (holdsSlot (filled f x s) r)).Nodup :=
      (List.nodup_finRange 24).filter _
    have sub : allSlots.filter (holdsSlot (filled f x s) r) ⊆
        f.slot :: allSlots.filter (holdsSlot s r) := by
      intro i hi
      simp only [List.mem_filter, List.mem_cons] at hi ⊢
      rcases slots i hi.2 with ⟨rfl, -⟩ | held
      · exact .inl rfl
      · exact .inr ⟨hi.1, held⟩
    have few := (nodup.subperm sub).length_le
    rw [one]
    simpa using few
  · refine Nat.add_le_add (List.monotone_filter_right allSlots fun i hi => ?_).length_le
      (Nat.zero_le _)
    rcases slots i hi with ⟨-, h⟩ | held
    · exact absurd h hr
    · exact held

theorem lawsKept_filled {s : State} {f : WorkFetch} {x : Slot} (fetch : s.workFetch = some f)
    (ring : x.ring = f.ring) : LawsKept s (filled f x s) := by
  refine ⟨bufferLaw_congr rfl, fun law => ?_, outCountLaw_congr rfl,
    creditLaw_of_le (filled_ringSlots fetch ring) fun r _ hr => ?_, identityLaw_congr rfl⟩
  · obtain ⟨ne, opened, pos⟩ := law.fetch f fetch
    refine ⟨fun r => ?_, fun g hg => (Option.some_ne_none g hg.symm).elim, fun ha => ?_,
      fun hd => ⟨rfl, (law.idle hd).2⟩⟩
    · rw [filled_workRing, (countFetched_workRing s f.ring r).1]
      exact (countFetched_ahead pos r).1.trans (law.ahead r)
    · rw [filled_workRing, (countFetched_ahead pos 0).2 ne.symm]
      exact law.admin ha
  · obtain ⟨-, state, credit⟩ := countFetched_workRing s f.ring r
    rw [filled_workRing, state, credit]
    exact ⟨hr, rfl⟩

theorem lawsKept_takeWork (k : WorkKind) (r : Record) (s : State) :
    LawsKept s (takeWork k r s) := by
  unfold takeWork
  split
  · exact lawsKept_refl s
  · next f fetch =>
    dsimp only
    split
    · unfold fillSlot
      dsimp only
      refine LawsKept.trans (LawsKept.trans (lawsKept_filled fetch (x := filledSlot
        (({ s with workFetch := none } : State).setWorkRing f.ring
          { s.workRing f.ring with fetched := (s.workRing f.ring).fetched + 1 }) f.ring r
        (decodeWork k r)) rfl) ?_)
        ((lawsKept_settleLine _ _).trans (lawsKept_serviceRings _))
      split
      · exact lawsKept_endSlot _ _ _ _
      · split
        · exact lawsKept_abortSlot _ _
        · exact lawsKept_refl _
    · exact lawsKept_dropFetch s

theorem lawsKept_workFetchFault (s : State) : LawsKept s (workFetchFault s) := by
  have drop := lawsKept_dropFetch s
  unfold workFetchFault
  split
  · exact lawsKept_refl s
  · dsimp only
    split
    · refine (drop.trans ?_).trans (lawsKept_serviceRings _)
      split
      · exact lawsKept_faultWorkRing _ _ _
      · exact lawsKept_faultWorkRing _ _ _
      all_goals exact lawsKept_refl _
    · exact drop

theorem lawsKept_adminFetchFault (s : State) : LawsKept s (adminFetchFault s) := by
  have drop := lawsKept_dropAdminFetch s
  unfold adminFetchFault
  split
  · exact lawsKept_refl s
  · dsimp only
    split
    · refine drop.trans ?_
      split
      · exact lawsKept_faultWorkRing _ _ _
      · exact lawsKept_faultWorkRing _ _ _
      all_goals exact lawsKept_refl _
    · exact drop

/-! ## The device -/

theorem lawsKept_enterRunning {s : State} {w : WorkRing} {o : OutputRing}
    (starting : s.device = .starting) (counts : w.posted = w.fetched) (law : outCountLaw o) :
    LawsKept s (enterRunning w o s) := by
  refine LawsKept.trans ?_ (lawsKept_serviceRings _)
  have zero : w.ahead = 0 := by simp [WorkRing.ahead, counts]
  refine ⟨bufferLaw_congr rfl, fun h => ?_, fun h n => ?_, ?_, identityLaw_congr rfl⟩
  · obtain ⟨noFetch, noAdmin⟩ := h.idle (.inr starting)
    refine ⟨fun r => ?_, fun f hf => ?_, fun ha => ?_, fun hd => by simp at hd⟩
    · rcases eq_or_ne r 0 with rfl | hr
      · show ((s.setWorkRing 0 w).workRing 0).ahead ≤ _
        rw [workRing_setWorkRing_self, zero]
        exact Nat.zero_le _
      · show ((s.setWorkRing 0 w).workRing r).ahead ≤ ((s.setWorkRing 0 w).workRing r).size
        rw [workRing_setWorkRing_ne _ _ hr]
        exact h.ahead r
    · cases noFetch.symm.trans hf
    · have : s.adminFetch.isSome = true := ha
      rw [noAdmin] at this
      cases this
  · cases n with
    | notice => exact h .notice
    | result q =>
      show outCountLaw ((s.setResultRing 0 { out := o, lost := 0, pending := [] }).resultRing q).out
      rcases eq_or_ne q 0 with rfl | hq
      · rw [resultRing_setResultRing_self]
        exact law
      · rw [resultRing_setResultRing_ne _ _ hq]
        exact h (.result q)
  · refine creditLaw_of_le (fun r => le_rfl) fun r hr opened => ?_
    show ((s.setWorkRing 0 w).workRing r).state ≠ .closed ∧ ((s.setWorkRing 0 w).workRing r).credit = _
    rw [workRing_setWorkRing_ne _ _ hr]
    exact ⟨opened, rfl⟩

theorem sizeOf?_le {n m : Nat} (h : sizeOf? n = some m) : m ≤ 1024 := by
  unfold sizeOf? at h
  split at h
  · next mem =>
    cases h
    simp only [List.mem_cons, List.not_mem_nil, or_false] at mem
    omega
  · cases h

/-- A ring opened with counts 0 and nothing of its own in flight. -/
theorem ringLaw_opened {o : OutputRing} (small : o.size ≤ 1024) (counts : o.written = o.consumed)
    (access : ∀ w, o.access ≠ .record w false) : outCountLaw o := by
  refine ⟨small, ?_, fun w hw => absurd hw (access w)⟩
  simp [OutputRing.unconsumed, counts]

theorem decodeBoot_counts {b : Record} {w : WorkRing} {o : OutputRing}
    (h : decodeBoot b = some (w, o)) : w.posted = w.fetched ∧ outCountLaw o := by
  simp only [decodeBoot, Option.bind_eq_bind, Option.bind_eq_some_iff, Option.some.injEq,
    Prod.mk.injEq] at h
  obtain ⟨_, -, _, -, _, -, size, hsize, _, -, _, -, rfl, rfl⟩ := h
  exact ⟨rfl, ringLaw_opened (sizeOf?_le hsize) rfl fun _ => by simp⟩

theorem lawsKept_bootRead (b : Record) (s : State) : LawsKept s (bootRead b s) := by
  unfold bootRead
  split
  · next ready =>
    split
    · next fields =>
      obtain ⟨counts, law⟩ := decodeBoot_counts fields
      exact lawsKept_enterRunning ready.1 counts law
    · exact lawsKept_haltDevice _ _
  · exact lawsKept_refl s

theorem lawsKept_bootFails (s : State) : LawsKept s (bootFails s) := by
  unfold bootFails
  split
  · exact lawsKept_haltDevice _ _
  · exact lawsKept_refl s

theorem lawsKept_startLine (l : Line) (s : State) : LawsKept s (startLine l s) := by
  have cleared : LawsKept s (s.setQueue l []) :=
    lawsKept_of_worked (worked_setQueue (worked_refl s) l []) (carried_clearQueue (carried_refl s) l)
  unfold startLine
  dsimp only
  split
  · exact cleared.trans (lawsKept_congr rfl)
  · exact cleared
  · exact cleared

theorem lawsKept_startDevice (s : State) : LawsKept s (startDevice s) := by
  unfold startDevice
  split
  · next reset =>
    have starting : LawsKept s { s with device := .starting } :=
      lawsKept_device fun _ => .inl reset
    dsimp only
    split
    · exact starting.trans (lawsKept_congr rfl)
    · exact starting.trans (lawsKept_haltDevice _ _)
  · have running : LawsKept s { s with device := .running } := lawsKept_device (by simp)
    exact running.trans (((lawsKept_startLine .a _).trans (lawsKept_startLine .b _)).trans
      ((lawsKept_settleBoth _).trans (lawsKept_serviceRings _)))
  all_goals exact lawsKept_refl s

theorem lawsKept_stopLine (l : Line) (s : State) : LawsKept s (stopLine l s) := by
  have series : LawsKept s (stopSeries l s) := by
    unfold stopSeries
    dsimp only
    split
    · exact lawsKept_refl s
    · split
      · exact lawsKept_congr rfl
      · exact lawsKept_congr rfl
  have queue : ∀ m, LawsKept m (stopQueue l m) := by
    intro m
    have cleared : Worked m (m.setQueue l []) := worked_setQueue (worked_refl m) l []
    have carried := carried_clearQueue (carried_refl m) l
    unfold stopQueue
    dsimp only
    split
    · split
      · exact lawsKept_of_worked (worked_grantEnded cleared l) (carried_grantEnded carried l)
      · exact lawsKept_congr rfl
    · exact lawsKept_of_worked cleared carried
  exact series.trans (queue _)

theorem lawsKept_stopDevice (s : State) : LawsKept s (stopDevice s) := by
  unfold stopDevice
  split
  · have stopping := (lawsKept_stopFetch s).trans (lawsKept_device (d := .stopping) (by simp))
    exact (stopping.trans (lawsKept_abortWhere _ _)).trans
      (((lawsKept_stopLine .a _).trans (lawsKept_stopLine .b _)).trans
        ((lawsKept_settleBoth _).trans (lawsKept_serviceRings _)))
  · exact lawsKept_refl s

/-! ## After reset -/

theorem reset_workRing (r : WorkRingId) : State.reset.workRing r = WorkRing.reset := by
  simp [State.reset, State.workRing]

theorem reset_outRing (n : RingName) : State.reset.outRing n = OutputRing.reset := by
  cases n with
  | result q => simp [State.reset, State.outRing, State.resultRing, ResultRing.reset]
  | notice => rfl

theorem reset_slot (i : SlotId) : State.reset.slot i = none := by
  simp [State.reset, State.slot]

theorem reset_entry (l : Line) (a : Addr) : State.reset.entry l a = NodeEntry.initial := by
  cases l <;> simp [State.reset, State.entry, State.table, Pair.get]

theorem bufferLaw_reset : BufferLaw State.reset :=
  ⟨by decide, by decide, fun l => by cases l <;> decide⟩

theorem workCountLaw_reset : WorkCountLaw State.reset := by
  refine ⟨fun r => ?_, fun f hf => ?_, fun h => ?_, fun _ => ⟨rfl, rfl⟩⟩
  · rw [reset_workRing]; decide
  · cases hf
  · cases h

theorem outCountLaw_reset : OutCountLaw State.reset := fun n => by
  rw [reset_outRing]
  exact ringLaw_opened (by decide) rfl fun _ h => by cases h

theorem creditLaw_reset : CreditLaw State.reset := by
  intro r _
  have none : State.reset.ringSlots r = 0 := by
    have free : allSlots.filter (holdsSlot State.reset r) = [] := by
      refine List.filter_eq_nil_iff.mpr fun i _ held => ?_
      obtain ⟨x, hx, -⟩ := holdsSlot_of_some.mp held
      rw [reset_slot] at hx
      cases hx
    rw [ringSlots_eq, free]
    rfl
  exact ⟨fun _ => none, fun _ => by omega⟩

theorem identityLaw_reset : IdentityLaw State.reset := fun l a b u ha _ => by
  rw [reset_entry] at ha
  cases ha

theorem lawsKept_resetPart (s : State) : LawsKept s (resetPart s) :=
  ⟨fun _ => bufferLaw_congr (s := State.reset) rfl bufferLaw_reset,
    fun _ => workCountLaw_congr (s := State.reset) rfl workCountLaw_reset,
    fun _ => outCountLaw_congr (s := State.reset) rfl outCountLaw_reset,
    fun _ => creditLaw_congr (s := State.reset) rfl creditLaw_reset,
    fun _ => identityLaw_congr (s := State.reset) rfl identityLaw_reset⟩

/-! ## The admin unit -/

theorem lawsKept_takeAdmin {run : State → State} (r : Record) (hrun : ∀ m, LawsKept m (run m))
    (s : State) : LawsKept s (takeAdmin r run s) := by
  unfold takeAdmin
  split
  · exact lawsKept_refl s
  · next a fetch =>
    dsimp only
    split
    · refine LawsKept.trans ?_ ((hrun _).trans (lawsKept_serviceRings _))
      refine ⟨bufferLaw_congr rfl, fun law => ?_, outCountLaw_congr rfl,
        creditLaw_of_le (fun _ => le_rfl) fun n _ hn => ?_, identityLaw_congr rfl⟩
      · have pos : 0 < (s.workRing 0).ahead := law.admin (by rw [fetch]; rfl)
        refine ⟨fun n => ?_, fun f hf => ?_, fun ha => ?_, fun hd => ⟨(law.idle hd).1, rfl⟩⟩
        · exact le_of_le_of_eq ((countFetched_ahead pos n).1.trans (law.ahead n))
            (countFetched_workRing s 0 n).1.symm
        · obtain ⟨ne, opened, more⟩ := law.fetch f hf
          exact ⟨ne, fun closed => opened ((countFetched_workRing s 0 f.ring).2.1.symm.trans closed),
            lt_of_lt_of_eq more ((countFetched_ahead pos f.ring).2 ne).symm⟩
        · cases ha
      · obtain ⟨-, state, credit⟩ := countFetched_workRing s 0 n
        exact ⟨fun closed => hn (state.symm.trans closed), credit⟩
    · exact lawsKept_dropAdminFetch s

theorem lawsKept_checked {α : Type} {fields : Option α} {run : α → State → State}
    (hrun : ∀ x, fields = some x → ∀ m, LawsKept m (run x m)) (s : State) :
    LawsKept s (checked fields run s) := by
  cases fields with
  | none => exact lawsKept_adminAnswer _ _ _
  | some x => exact hrun x rfl s

theorem lawsKept_setPhase (p : AdminPhase) (s : State) : LawsKept s (s.setPhase p) :=
  lawsKept_congr rfl

theorem lineRingOf_ne_zero {b : Byte} {r : WorkRingId} (h : lineRingOf b = some r) : r ≠ 0 := by
  unfold lineRingOf at h
  split at h
  · next range =>
    cases h
    simp only [ne_eq, Fin.ext_iff]
    show ¬b.toNat = 0
    omega
  · cases h

theorem decodeOpenWork_counts {r : Record} {p : WorkRingId × WorkRing}
    (h : decodeOpenWork r = some p) : p.1 ≠ 0 ∧ p.2.posted = p.2.fetched := by
  simp only [decodeOpenWork, Option.bind_eq_bind, Option.bind_eq_some_iff, Option.some.injEq] at h
  obtain ⟨ring, hring, _, -, _, -, _, -, _, -, _, -, _, -, rfl⟩ := h
  exact ⟨lineRingOf_ne_zero hring, rfl⟩

theorem decodeOpenOut_counts {r : Record} {o : OutputRing} (h : decodeOpenOut r = some o) :
    o.size ≤ 1024 ∧ o.written = o.consumed := by
  simp only [decodeOpenOut, Option.bind_eq_bind, Option.bind_eq_some_iff, Option.some.injEq] at h
  obtain ⟨_, -, size, hsize, _, -, _, -, rfl⟩ := h
  exact ⟨sizeOf?_le hsize, rfl⟩

theorem lawsKept_openWork {r : Record} {p : WorkRingId × WorkRing} (h : decodeOpenWork r = some p)
    (s : State) : LawsKept s (openWork p.1 p.2 s) := by
  obtain ⟨ne, counts⟩ := decodeOpenWork_counts h
  unfold openWork
  split
  · next closed =>
    refine LawsKept.trans ?_ (lawsKept_adminAnswer _ _ _)
    refine lawsKept_setWorkRing (fun _ => ?_) (fun opened => ?_) fun _ opened => ?_
    · simp [WorkRing.ahead, counts]
    · rcases opened with opened | zero
      · exact absurd closed.1 opened
      · exact absurd zero ne
    · exact absurd closed.1 opened
  · exact lawsKept_adminAnswer _ _ _

theorem lawsKept_drainWork (ring : WorkRingId) (s : State) : LawsKept s (drainWork ring s) := by
  have draining : LawsKept s (settleLine (s.workRing ring).line (abortWhere (Slot.unstartedOf ring)
      ((s.setWorkRing ring { s.workRing ring with state := .draining }).setPhase
        (.closingWork ring)))) := by
    refine LawsKept.trans ?_ ((lawsKept_setPhase _ _).trans
      ((lawsKept_abortWhere _ _).trans (lawsKept_settleLine _ _)))
    exact lawsKept_setWorkRing id (fun _ => id) fun _ _ => ⟨by simp, rfl⟩
  unfold drainWork
  dsimp only
  split
  · exact lawsKept_adminAnswer _ _ _
  · exact lawsKept_adminAnswer _ _ _
  all_goals exact draining

theorem madeStale_ne_record (a : RingAccess) (w : HostWrite) : a.madeStale ≠ .record w false := by
  cases a <;> simp [RingAccess.madeStale]

theorem lawsKept_openResult {r : Record} {o : OutputRing} (h : decodeOpenOut r = some o)
    (q : ResultRingId) (s : State) : LawsKept s (openResult q o s) := by
  obtain ⟨small, counts⟩ := decodeOpenOut_counts h
  unfold openResult
  dsimp only
  split
  · refine LawsKept.trans ?_ (lawsKept_adminAnswer _ _ _)
    exact lawsKept_setResultRing fun _ => ringLaw_opened small counts (madeStale_ne_record _)
  · exact lawsKept_adminAnswer _ _ _

theorem lawsKept_drainResult (q : ResultRingId) (s : State) : LawsKept s (drainResult q s) := by
  unfold drainResult
  split
  · exact lawsKept_adminAnswer _ _ _
  · exact lawsKept_setPhase _ _
  · split
    · exact lawsKept_adminAnswer _ _ _
    · exact lawsKept_setPhase _ _

theorem lawsKept_openNotice {r : Record} {o : OutputRing} (h : decodeOpenOut r = some o)
    (s : State) : LawsKept s (openNotice o s) := by
  obtain ⟨small, counts⟩ := decodeOpenOut_counts h
  unfold openNotice
  split
  · refine LawsKept.trans ?_ (lawsKept_adminAnswer _ _ _)
    exact lawsKept_notice fun _ => ringLaw_opened small counts (madeStale_ne_record _)
  · exact lawsKept_adminAnswer _ _ _

theorem lawsKept_drainNotice (s : State) : LawsKept s (drainNotice s) := by
  unfold drainNotice
  split
  · exact lawsKept_adminAnswer _ _ _
  · exact lawsKept_setPhase _ _
  · refine LawsKept.trans ?_ (lawsKept_setPhase _ _)
    exact lawsKept_notice (ringLaw_of_same rfl fun _ => id)

theorem lawsKept_setLine (l : Line) (c : LineConfig) (s : State) : LawsKept s (setLine l c s) := by
  unfold setLine
  dsimp only
  split
  · exact lawsKept_adminAnswer _ _ _
  · split
    · exact LawsKept.trans (lawsKept_of_worked (worked_applyLineSet (worked_refl s) l c)
        (carried_applyLineSet (carried_refl s) l c)) (lawsKept_settleLine _ _)
    · exact lawsKept_setPhase _ _

theorem lawsKept_enableLine (l : Line) (s : State) : LawsKept s (enableLine l s) := by
  unfold enableLine
  dsimp only
  split
  · refine LawsKept.trans ?_ ((lawsKept_judgeRings _).trans
      ((lawsKept_adminAnswer _ _ _).trans (lawsKept_settleLine _ _)))
    exact lawsKept_congr rfl
  · exact lawsKept_adminAnswer _ _ _

theorem lawsKept_cutLine (l : Line) (disable forget : Bool) (s : State) :
    LawsKept s (cutLine l disable forget s) :=
  ((lawsKept_setPhase _ s).trans (lawsKept_of_worked (worked_applyCut (worked_refl _) l disable forget)
    (carried_applyCut (carried_refl _) l disable forget))).trans (lawsKept_settleLine _ _)

theorem lawsKept_clearNode (l : Line) (a : Addr) (s : State) : LawsKept s (clearNode l a s) := by
  unfold clearNode
  split
  · exact lawsKept_adminAnswer _ _ _
  · refine LawsKept.trans ?_ ((lawsKept_adminAnswer _ _ _).trans (lawsKept_settleLine _ _))
    exact lawsKept_of_worked (worked_setEntry (worked_refl s) _ _ _)
      (carried_setEntry (carried_refl s) fun u hu => by cases hu)

theorem lawsKept_abortNamed (ring : WorkRingId) (tag : Word) (s : State) :
    LawsKept s (abortNamed ring tag s) := by
  unfold abortNamed
  dsimp only
  split
  · exact lawsKept_adminAnswer _ _ _
  · exact (lawsKept_abortWhere _ _).trans
      ((lawsKept_adminAnswer _ _ _).trans (lawsKept_settleBoth _))

theorem lawsKept_answerThen {s m : State} (h : LawsKept s m) (st : Status) (d : List Byte) :
    LawsKept s (serviceRings (adminAnswer st d m)) :=
  h.trans ((lawsKept_adminAnswer _ _ _).trans (lawsKept_serviceRings _))

theorem lawsKept_nodeImageWritten (s : State) : LawsKept s (nodeImageWritten s) := by
  unfold nodeImageWritten
  split
  · dsimp only
    split
    · split
      · exact lawsKept_congr rfl
      · refine lawsKept_answerThen ?_ _ _
        exact lawsKept_congr rfl
    · exact lawsKept_congr rfl
  · exact lawsKept_refl s

theorem lawsKept_nodeImageFault (s : State) : LawsKept s (nodeImageFault s) := by
  unfold nodeImageFault
  split
  · dsimp only
    split
    · refine lawsKept_answerThen ?_ _ _
      exact lawsKept_congr rfl
    · exact lawsKept_congr rfl
  · exact lawsKept_refl s

theorem lawsKept_reflexImageEnds (st : Status) (s : State) :
    LawsKept s (reflexImageEnds st s) := by
  unfold reflexImageEnds
  split
  · dsimp only
    split
    · refine lawsKept_answerThen ?_ _ _
      exact lawsKept_congr rfl
    · exact lawsKept_congr rfl
  · exact lawsKept_refl s

/-! ## Register writes -/

theorem lawsKept_writePost (value : Word) (s : State) : LawsKept s (writePost value s) := by
  unfold writePost
  split
  · split
    · exact (lawsKept_postRing _ _ _ _).trans (lawsKept_serviceRings _)
    · exact (lawsKept_createNotice _ _ _).trans (lawsKept_serviceRings _)
  · exact lawsKept_refl s

theorem lawsKept_writeTake (value : Word) (s : State) : LawsKept s (writeTake value s) := by
  unfold writeTake
  split
  · split
    · exact (lawsKept_takeRing _ _ _).trans (lawsKept_serviceRings _)
    · exact lawsKept_refl s
  · exact lawsKept_refl s

theorem lawsKept_setEnable (s : State) (b : Bool) : LawsKept s (s.setEnable b) := lawsKept_congr rfl

theorem lawsKept_writeCtrl (value : Word) (s : State) : LawsKept s (writeCtrl value s) := by
  have enabled := lawsKept_setEnable s (value.getLsbD 8)
  unfold writeCtrl
  dsimp only
  split
  · exact lawsKept_resetPart s
  · split
    · exact enabled
    · split
      · exact enabled.trans (lawsKept_startDevice _)
      · split
        · exact enabled.trans (lawsKept_stopDevice _)
        · exact enabled

theorem lawsKept_writeRegister (offset value : Word) (s : State) :
    LawsKept s (writeRegister offset value s) := by
  unfold writeRegister
  split
  · exact lawsKept_writeCtrl _ _
  · split
    · exact lawsKept_congr rfl
    · split
      · exact lawsKept_writePost _ _
      · split
        · exact lawsKept_writeTake _ _
        · split
          · exact lawsKept_writeSignal _ _
          · exact lawsKept_refl s

theorem lawsKept_registerTaken {write : State → State} (h : ∀ m, LawsKept m (write m)) (s : State) :
    LawsKept s (registerTaken write s) := by
  unfold registerTaken
  split
  · exact lawsKept_refl s
  · exact h s

/-! ## Events of a line -/

theorem lawsKept_afterLine {s m : State} (h : LawsKept s m) (l : Line) :
    LawsKept s (afterLine l m) :=
  (h.trans (lawsKept_settleLine l m)).trans (lawsKept_serviceRings _)

theorem lawsKept_afterBoth {s m : State} (h : LawsKept s m) : LawsKept s (afterBoth m) :=
  (h.trans (lawsKept_settleBoth m)).trans (lawsKept_serviceRings _)

theorem lawsKept_endTry (l : Line) (o : TryOutcome) (s : State) : LawsKept s (endTry l o s) :=
  lawsKept_of_worked (worked_endTry (worked_refl s) l o) (carried_endTry (carried_refl s) l o)

theorem lawsKept_endWindow (l : Line) (o : WindowOutcome) (s : State) :
    LawsKept s (endWindow l o s) :=
  lawsKept_of_worked (worked_endWindow (worked_refl s) l o) (carried_endWindow (carried_refl s) l o)

theorem lawsKept_beginTry (l : Line) (s : State) : LawsKept s (beginTry l s) :=
  lawsKept_of_worked (worked_beginTry (worked_refl s) l) (carried_beginTry (carried_refl s) l)

theorem lawsKept_lowTimerExpires (l : Line) (s : State) : LawsKept s (lowTimerExpires l s) := by
  unfold lowTimerExpires
  dsimp only
  split
  · exact lawsKept_afterLine (lawsKept_of_worked (worked_enterDown (worked_refl s) l)
      (carried_enterDown (carried_refl s) l)) l
  · exact lawsKept_refl s

theorem lawsKept_senseRises (l : Line) (s : State) : LawsKept s (senseRises l s) := by
  unfold senseRises
  dsimp only
  split
  · refine lawsKept_afterLine (LawsKept.trans ?_ (lawsKept_judgeRings _)) l
    exact lawsKept_congr rfl
  · exact lawsKept_congr rfl

theorem lawsKept_senseFalls (l : Line) (s : State) : LawsKept s (senseFalls l s) := by
  unfold senseFalls
  dsimp only
  split <;> exact lawsKept_congr rfl

theorem lawsKept_debounceExpires (l : Line) (s : State) : LawsKept s (debounceExpires l s) := by
  unfold debounceExpires
  dsimp only
  split
  · refine lawsKept_afterLine (LawsKept.trans ?_
      ((lawsKept_createNotice _ _ _).trans (lawsKept_judgeRings _))) l
    exact lawsKept_congr rfl
  · exact lawsKept_refl s

theorem lawsKept_settleExpires (l : Line) (s : State) : LawsKept s (settleExpires l s) := by
  unfold settleExpires
  dsimp only
  split
  · refine lawsKept_afterLine ?_ l
    exact lawsKept_congr rfl
  · exact lawsKept_refl s

theorem lawsKept_listenExpires (l : Line) (s : State) : LawsKept s (listenExpires l s) := by
  unfold listenExpires
  dsimp only
  split
  · refine lawsKept_afterLine ?_ l
    exact lawsKept_congr rfl
  · exact lawsKept_refl s

theorem lawsKept_gapPasses (l : Line) (s : State) : LawsKept s (gapPasses l s) := by
  have quiet : LawsKept s (s.setEngine l { s.engine l with quiet := true }) := lawsKept_congr rfl
  unfold gapPasses
  dsimp only
  split
  · split
    · split
      · exact lawsKept_afterLine quiet l
      · exact quiet.trans (lawsKept_beginTry l _)
      · exact quiet
      · exact quiet
    · split
      · exact lawsKept_refl s
      · exact quiet
    · split
      · exact lawsKept_refl s
      · exact quiet
    all_goals exact lawsKept_refl s
  · exact lawsKept_refl s

theorem lawsKept_backoffPasses (l : Line) (s : State) : LawsKept s (backoffPasses l s) := by
  unfold backoffPasses
  dsimp only
  split
  · split
    · exact lawsKept_beginTry l s
    · exact lawsKept_refl s
  · exact lawsKept_refl s

theorem lawsKept_rxGoesLow (l : Line) (s : State) : LawsKept s (rxGoesLow l s) := by
  unfold rxGoesLow
  dsimp only
  split
  · exact lawsKept_congr rfl
  · exact lawsKept_refl s

theorem lawsKept_frameEnds (l : Line) (s : State) : LawsKept s (frameEnds l s) := by
  unfold frameEnds frameIsSent
  dsimp only
  split
  · split
    · split
      · exact lawsKept_congr rfl
      · split
        · exact lawsKept_congr rfl
        · exact lawsKept_afterLine (lawsKept_endTry l _ s) l
    · exact lawsKept_refl s
  · exact lawsKept_congr rfl

theorem lawsKept_frameCollides (l : Line) (s : State) : LawsKept s (frameCollides l s) := by
  unfold frameCollides
  dsimp only
  split
  · split
    · exact lawsKept_afterLine (lawsKept_endTry l _ s) l
    all_goals exact lawsKept_refl s
  · exact lawsKept_congr rfl

theorem lawsKept_frameStarts (l : Line) (s : State) : LawsKept s (frameStarts l s) := by
  unfold frameStarts
  dsimp only
  split
  · split
    · exact lawsKept_congr rfl
    · exact lawsKept_congr rfl
    all_goals exact lawsKept_refl s
  · exact lawsKept_refl s

theorem lawsKept_replyEnds (l : Line) (frame : List Byte) (s : State) :
    LawsKept s (replyEnds l frame s) := by
  unfold replyEnds
  dsimp only
  split
  · split
    · exact lawsKept_afterLine (lawsKept_endTry l _ s) l
    · exact lawsKept_refl s
  · exact lawsKept_refl s

theorem lawsKept_replyTimesOut (l : Line) (s : State) : LawsKept s (replyTimesOut l s) := by
  unfold replyTimesOut
  dsimp only
  split
  · split
    · exact lawsKept_afterLine (lawsKept_endTry l _ s) l
    all_goals exact lawsKept_refl s
  · exact lawsKept_refl s

theorem lawsKept_receptionGarbles (l : Line) (s : State) : LawsKept s (receptionGarbles l s) := by
  unfold receptionGarbles
  dsimp only
  split
  · split
    · exact lawsKept_afterLine (lawsKept_endTry l _ s) l
    · split
      · exact lawsKept_afterLine (lawsKept_endWindow l _ s) l
      · exact lawsKept_refl s
    all_goals exact lawsKept_refl s
  · exact lawsKept_refl s

theorem lawsKept_hearNotice (l : Line) (n : NodeNotice) (s : State) :
    LawsKept s (hearNotice l n s) := by
  have heard : LawsKept s (hear l n.source s) :=
    lawsKept_of_worked (worked_hear (worked_refl s) l _) (carried_hear (carried_refl s) l _)
  have placed : ∀ k e m, LawsKept m (placeFiring k e m) := by
    intro k e m
    refine lawsKept_of_worked ?_ (carried_placeFiring (carried_refl m) k e)
    unfold placeFiring
    dsimp only
    split
    · exact worked_createNotice (worked_refl m) _ _
    · split
      · exact worked_createNotice (worked_refl m) _ _
      · split
        · exact worked_createNotice (worked_setQueue (worked_refl m) _ _) _ _
        · exact worked_setQueue (worked_refl m) _ _
  have matched : ∀ m, LawsKept m (matchReflexes l n m) := by
    intro m
    unfold matchReflexes
    split
    · refine lawsKept_foldl (fun m k => ?_) m _
      unfold matchReflex
      dsimp only
      split
      · refine LawsKept.trans ?_ (placed _ _ _)
        exact lawsKept_congr rfl
      · exact lawsKept_refl m
    · exact lawsKept_refl m
  unfold hearNotice noticeVerdict
  dsimp only
  split
  next same =>
    split at same
    · cases same; exact heard
    · cases same
  next fresh =>
    split at fresh
    · cases fresh
    · cases fresh
      refine (heard.trans ?_).trans ((lawsKept_createNotice _ _ _).trans (matched _))
      exact lawsKept_of_worked (worked_setEntry (worked_refl _) _ _ _)
        (carried_setEntry (carried_refl _) fun _ => id)

theorem lawsKept_endWindowValid (l : Line) (n : NodeNotice) (s : State) :
    LawsKept s (endWindowValid l n s) := by
  have past : LawsKept s (s.setEngine l
      { s.engine l with state := .idle, frameStarted := false, quiet := false }) :=
    lawsKept_congr rfl
  have heard := past.trans (lawsKept_hearNotice l n _)
  unfold endWindowValid
  dsimp only
  split
  · exact heard.trans (lawsKept_of_worked (worked_cutHolder (worked_refl _) l none)
      (carried_cutHolder (carried_refl _) l none))
  · refine heard.trans (lawsKept_of_worked
      (worked_afterGap (worked_setEngine (worked_setEngine (worked_refl _) _ _) _ _) l)
      (carried_afterGap (carried_setEngine (carried_setEngine (carried_refl _) _ _) _ _) l))

theorem lawsKept_noticeEnds (l : Line) (frame : List Byte) (s : State) :
    LawsKept s (noticeEnds l frame s) := by
  unfold noticeEnds
  dsimp only
  split
  · split
    · exact lawsKept_afterBoth (lawsKept_endWindowValid l _ s)
    · exact lawsKept_afterLine (lawsKept_endWindow l _ s) l
  · exact lawsKept_refl s

theorem lawsKept_windowEmpties (l : Line) (s : State) : LawsKept s (windowEmpties l s) := by
  unfold windowEmpties
  dsimp only
  split
  · exact lawsKept_afterLine (lawsKept_endWindow l _ s) l
  · exact lawsKept_refl s

/-! ## Deadlines -/

theorem slotDue_some {s : State} {d : Slot → Option Word} {i : SlotId} {x : Slot}
    (h : slotDue s d i = some x) : s.slot i = some x := by
  unfold slotDue at h
  split at h
  · cases h
  · next y hy =>
    split at h
    · cases h
      exact hy
    · cases h

/-- A slot in use takes new fields. -/
theorem lawsKept_putSlot {s : State} {i : SlotId} {x y : Slot} (hx : s.slot i = some x)
    (same : SlotSame x y) : LawsKept s (s.setSlot i (some y)) :=
  lawsKept_of_worked (worked_setSlot (worked_refl s) hx same)
    (carried_slotMove (carried_refl s) (.put y))

theorem lawsKept_deferExpires (i : SlotId) (s : State) : LawsKept s (deferExpires i s) := by
  unfold deferExpires
  split
  · exact lawsKept_refl s
  · next due =>
    refine lawsKept_afterLine (lawsKept_putSlot (slotDue_some due) ?_) _
    exact ⟨rfl, rfl, rfl, rfl, rfl, rfl, rfl, rfl, rfl⟩

theorem lawsKept_expireExpires (i : SlotId) (s : State) : LawsKept s (expireExpires i s) := by
  unfold expireExpires
  split
  · exact lawsKept_refl s
  · split
    · exact lawsKept_refl s
    · exact lawsKept_afterLine (lawsKept_endSlot i _ _ s) _

theorem lawsKept_pollExpires (i : SlotId) (s : State) : LawsKept s (pollExpires i s) := by
  unfold pollExpires
  split
  · exact lawsKept_refl s
  · next due =>
    split
    · refine lawsKept_afterLine (lawsKept_putSlot (slotDue_some due) ?_) _
      exact ⟨rfl, rfl, rfl, rfl, rfl, rfl, rfl, rfl, rfl⟩
    · exact lawsKept_refl s

theorem lawsKept_budgetEnds (i : SlotId) (s : State) : LawsKept s (budgetEnds i s) := by
  unfold budgetEnds
  split
  · exact lawsKept_refl s
  · next x due =>
    split
    · next w _ =>
      exact lawsKept_afterLine (lawsKept_of_worked
        (worked_budgetExpires (worked_refl s) ⟨x, slotDue_some due, slotSame_refl x⟩ w)
        (carried_slotMove (carried_refl s) (slotMove_budgetExpires i x w s))) _
    all_goals exact lawsKept_refl s

theorem lawsKept_quietExpires (k : ReflexId) (s : State) : LawsKept s (quietExpires k s) := by
  unfold quietExpires
  split
  · exact lawsKept_congr rfl
  · exact lawsKept_refl s

/-! ## Every command -/

theorem lawsKept_writeReflex (k : ReflexId) (e : ReflexEntry) (s : State) :
    LawsKept s (adminAnswer .ok [] (s.setReflex k e)) :=
  LawsKept.trans (m := s.setReflex k e) (lawsKept_congr rfl) (lawsKept_adminAnswer _ _ _)

theorem lawsKept_readReflex (k : ReflexId) (a : Word) (s : State) :
    LawsKept s (readReflex k a s) := lawsKept_congr rfl

theorem lawsKept_readNode (l : Line) (first : Addr) (count done : Nat) (buffer : Word) (s : State) :
    LawsKept s (readNode l first count done buffer s) := lawsKept_congr rfl

theorem lawsKept_next {s m t : State} (k : LawsKept s m)
    (h : (Host.Outcome.next m : Host.Outcome State Fault Refusal) = .next t) : LawsKept s t :=
  Host.Outcome.next.inj h ▸ k

/-- A request whose record is checked keeps the laws if what it then runs does. -/
theorem lawsKept_request {α : Type} {fields : Option α} {run : α → State → State} {r : Record}
    {s t : State} (hrun : ∀ x, fields = some x → ∀ m, LawsKept m (run x m))
    (h : (Host.Outcome.next (takeAdmin r (checked fields run) s) :
      Host.Outcome State Fault Refusal) = .next t) : LawsKept s t :=
  lawsKept_next (lawsKept_takeAdmin r (lawsKept_checked hrun) s) h

theorem lawsKept_exec {c : Instr} {s t : State} (h : exec c s = .next t) : LawsKept s t := by
  cases c with
  | powerOnReset => exact lawsKept_next (lawsKept_resetPart s) h
  | hostReset => exact lawsKept_next (lawsKept_registerTaken lawsKept_resetPart s) h
  | start enable =>
    exact lawsKept_next (lawsKept_registerTaken
      (fun m => (lawsKept_setEnable m enable).trans (lawsKept_startDevice _)) s) h
  | stop enable =>
    exact lawsKept_next (lawsKept_registerTaken
      (fun m => (lawsKept_setEnable m enable).trans (lawsKept_stopDevice _)) s) h
  | interruptEnable _ enable =>
    exact lawsKept_next (lawsKept_registerTaken (lawsKept_setEnable · enable) s) h
  | registerWrite o v => exact lawsKept_next (lawsKept_registerTaken (lawsKept_writeRegister o v) s) h
  | post v => exact lawsKept_next (lawsKept_registerTaken (lawsKept_writePost v) s) h
  | take v => exact lawsKept_next (lawsKept_registerTaken (lawsKept_writeTake v) s) h
  | signal v => exact lawsKept_next (lawsKept_registerTaken (lawsKept_writeSignal v) s) h
  | bootBlockRead b => exact lawsKept_next (lawsKept_bootRead b s) h
  | bootFault => exact lawsKept_next (lawsKept_bootFails s) h
  | call r => exact lawsKept_next (lawsKept_takeWork .call r s) h
  | sweep r => exact lawsKept_next (lawsKept_takeWork .sweep r s) h
  | paramWrite r => exact lawsKept_next (lawsKept_takeWork .param r s) h
  | discover r => exact lawsKept_next (lawsKept_takeWork .discover r s) h
  | unknownWorkKind r => exact lawsKept_next (lawsKept_takeWork .unknown r s) h
  | fetchFault f =>
    cases f with
    | slotTable => exact lawsKept_next (lawsKept_workFetchFault s) h
    | adminUnit => exact lawsKept_next (lawsKept_adminFetchFault s) h
  | openWorkRing r => exact lawsKept_request (fun _ fields => lawsKept_openWork fields) h
  | closeWorkRing r => exact lawsKept_request (fun n _ => lawsKept_drainWork n) h
  | openResultRing r =>
    exact lawsKept_request
      (fun q _ => lawsKept_checked fun _ fields => lawsKept_openResult fields q) h
  | closeResultRing r => exact lawsKept_request (fun q _ => lawsKept_drainResult q) h
  | openNoticeRing r => exact lawsKept_request (fun _ fields => lawsKept_openNotice fields) h
  | closeNoticeRing r => exact lawsKept_next (lawsKept_takeAdmin r lawsKept_drainNotice s) h
  | lineSet r => exact lawsKept_request (fun p _ => lawsKept_setLine p.1 p.2) h
  | lineEnable r => exact lawsKept_request (fun l _ => lawsKept_enableLine l) h
  | lineDisable r => exact lawsKept_request (fun l _ => lawsKept_cutLine l true false) h
  | lineReset r => exact lawsKept_request (fun l _ => lawsKept_cutLine l false _) h
  | reflexPut r => exact lawsKept_request (fun p _ => lawsKept_writeReflex p.1 p.2) h
  | reflexDrop r => exact lawsKept_request (fun k _ => lawsKept_writeReflex k _) h
  | reflexRead r => exact lawsKept_request (fun p _ => lawsKept_readReflex p.1 p.2) h
  | nodeRead r =>
    exact lawsKept_request (fun p _ => lawsKept_readNode p.1 p.2.1 p.2.2.1 0 p.2.2.2) h
  | nodeClear r =>
    exact lawsKept_request (fields := decodeNodeClear r) (run := fun p => clearNode p.1 p.2)
      (fun p _ => lawsKept_clearNode p.1 p.2) h
  | abort r => exact lawsKept_request (fun p _ => lawsKept_abortNamed p.1 p.2) h
  | unknownAdminRequest r => exact lawsKept_next (lawsKept_takeAdmin r (lawsKept_adminAnswer _ _) s) h
  | lowTimerExpiry l => exact lawsKept_next (lawsKept_lowTimerExpires l s) h
  | senseRise l => exact lawsKept_next (lawsKept_senseRises l s) h
  | senseFall l => exact lawsKept_next (lawsKept_senseFalls l s) h
  | debounceExpiry l => exact lawsKept_next (lawsKept_debounceExpires l s) h
  | settleExpiry l => exact lawsKept_next (lawsKept_settleExpires l s) h
  | listenIntervalExpiry l => exact lawsKept_next (lawsKept_listenExpires l s) h
  | gapComplete l => exact lawsKept_next (lawsKept_gapPasses l s) h
  | backoffExpiry l => exact lawsKept_next (lawsKept_backoffPasses l s) h
  | frameSent l => exact lawsKept_next (lawsKept_frameEnds l s) h
  | collisionDetected l => exact lawsKept_next (lawsKept_frameCollides l s) h
  | replyFrameEnd l frame => exact lawsKept_next (lawsKept_replyEnds l frame s) h
  | replyWindowTimeout l => exact lawsKept_next (lawsKept_replyTimesOut l s) h
  | garbledReception l => exact lawsKept_next (lawsKept_receptionGarbles l s) h
  | noticeFrameEnd l frame => exact lawsKept_next (lawsKept_noticeEnds l frame s) h
  | listenWindowEmpty l => exact lawsKept_next (lawsKept_windowEmpties l s) h
  | deferExpiry i => exact lawsKept_next (lawsKept_deferExpires i s) h
  | expireDeadlineExpiry i => exact lawsKept_next (lawsKept_expireExpires i s) h
  | pollDeadlineExpiry i => exact lawsKept_next (lawsKept_pollExpires i s) h
  | budgetExpiry i => exact lawsKept_next (lawsKept_budgetEnds i s) h
  | quietUntilExpiry k => exact lawsKept_next (lawsKept_quietExpires k s) h
  | holdoffTimerExpiry n => exact lawsKept_next (lawsKept_holdoffExpiry n s) h
  | resultRecordWritten q => exact lawsKept_next (lawsKept_resultWritten q s) h
  | progressWordWritten n => exact lawsKept_next (lawsKept_progressWritten n s) h
  | writeFault q => exact lawsKept_next (lawsKept_resultFault q s) h
  | noticeRecordWritten => exact lawsKept_next (lawsKept_noticeWritten s) h
  | noticeWriteFault => exact lawsKept_next (lawsKept_noticeFault s) h
  | nodeReadImageWritten => exact lawsKept_next (lawsKept_nodeImageWritten s) h
  | nodeReadWriteFault => exact lawsKept_next (lawsKept_nodeImageFault s) h
  | reflexReadImageWritten => exact lawsKept_next (lawsKept_reflexImageEnds .ok s) h
  | reflexReadWriteFault => exact lawsKept_next (lawsKept_reflexImageEnds .hostFault s) h
  | frameStart l => exact lawsKept_next (lawsKept_frameStarts l s) h
  | rxLow l => exact lawsKept_next (lawsKept_rxGoesLow l s) h

theorem lawsKept_tick (s : State) : LawsKept s (tick s) := by
  unfold tick
  split
  · exact lawsKept_congr rfl
  · exact lawsKept_refl s

/-- A step keeps each law: it is a command on the queue's rest, or a millisecond. -/
theorem lawsKept_step {s t : State} (h : step s = .next t) : LawsKept s t := by
  unfold step at h
  split at h
  · next rest _ =>
    exact LawsKept.trans (m := { s with pending := rest }) (lawsKept_congr rfl) (lawsKept_exec h)
  · cases h
    exact lawsKept_tick s

/-- Settles O55. -/
theorem everyStepKeepsTheBufferLaw : Obligations.EveryStepKeepsTheBufferLaw :=
  fun _ _ law run => (lawsKept_step run).buffer law

/-- Settles O56. -/
theorem everyStepKeepsTheWorkCountLaw : Obligations.EveryStepKeepsTheWorkCountLaw :=
  fun _ _ law run => (lawsKept_step run).work law

/-- Settles O57. -/
theorem everyStepKeepsTheOutCountLaw : Obligations.EveryStepKeepsTheOutCountLaw :=
  fun _ _ law run => (lawsKept_step run).out law

/-- Settles O58. -/
theorem everyStepKeepsTheCreditLaw : Obligations.EveryStepKeepsTheCreditLaw :=
  fun _ _ law run => (lawsKept_step run).credit law

/-- Settles O59. -/
theorem everyStepKeepsTheIdentityLaw : Obligations.EveryStepKeepsTheIdentityLaw :=
  fun _ _ law run => (lawsKept_step run).identity law

/-- Settles O60: reset meets each of the laws. -/
theorem resetMeetsTheLaws : Obligations.ResetMeetsTheLaws :=
  ⟨bufferLaw_reset, workCountLaw_reset, outCountLaw_reset, creditLaw_reset, identityLaw_reset⟩

end Sys2Proof.Invariants

/-! The register writes and the device states: CTRL, POST, TAKE and SIGNAL, reset, START in RESET and
in STOPPED, and the entry to HALTED. -/

namespace Sys2Proof.Registers

open Sys2Proof Sys2Proof.Machine Sys2Proof.Safety Sys2Proof.Laws Sys2Proof.Invariants

/-! ## The machine -/

/-- Settles O1. -/
theorem stepRunsTheFrontCommand : Obligations.StepRunsTheFrontCommand := fun _ _ _ => rfl

theorem lowCounted_eq (released : Bool) (e : LineEngine) :
    e.lowCounted released = { e with
      lowTimer := if e.sense = true ∨ e.state = .off ∨ (e.state = .calling ∧ released = false)
        then e.lowTimer else min 50 (e.lowTimer + 1) } := by
  obtain ⟨state, _, _, _, _, _, _, sense, _, _, _, _, _, _, _, _, _⟩ := e
  cases state <;> cases sense <;> cases released <;> rfl

theorem tick_counting {s : State} (hr : s.device ≠ .reset) (hh : s.device ≠ .halted) :
    tick s = { s with
      ms := s.ms + 1, draws := s.draws + 1
      lines := ⟨(s.engine .a).lowCounted (Config.released s.draws .a),
        (s.engine .b).lowCounted (Config.released s.draws .b)⟩ } := by
  refine if_pos ?_
  unfold State.counting
  cases hd : s.device <;> simp_all

theorem tick_still {s : State} (h : s.device = .reset ∨ s.device = .halted) : tick s = s := by
  refine if_neg ?_
  unfold State.counting
  rcases h with h | h <;> simp [h]

/-- Settles O2: a tick, in a device state that counts and in one that does not. -/
theorem idleStepIsAMillisecond : Obligations.IdleStepIsAMillisecond := by
  intro s idle
  have run : step s = .next (tick s) := by simp [step, idle]
  refine ⟨tick s, run, ?_, tick_still, fun hr hh => ?_⟩
  · by_cases h : s.device = .reset ∨ s.device = .halted
    · rw [tick_still h]
    · rw [not_or] at h
      rw [tick_counting h.1 h.2]
  · rw [tick_counting hr hh]
    refine ⟨rfl, rfl, fun l => ?_⟩
    cases l <;> exact lowCounted_eq _ _

/-- Settles O3: the reset values field by field, and the two commands that give them. -/
theorem resetsGiveTheInitialValues : Obligations.ResetsGiveTheInitialValues := by
  refine ⟨⟨rfl, rfl, rfl, rfl, rfl, rfl, rfl, rfl, rfl, rfl, rfl, rfl, rfl, rfl, rfl, rfl,
    reset_workRing, reset_outRing, fun q => ?_, reset_slot, fun l => ?_, reset_entry, fun k => ?_,
    fun l => ?_⟩, fun start stop enable s => ?_⟩
  · have : State.reset.resultRing q = ResultRing.reset := by simp [State.reset, State.resultRing]
    rw [this]
    exact ⟨rfl, rfl⟩
  · cases l <;> exact ⟨rfl, rfl, rfl, rfl, rfl, rfl, rfl, rfl, rfl, rfl, rfl⟩
  · have : State.reset.reflex k = ReflexEntry.empty := by simp [State.reset, State.reflex]
    exact this
  · cases l <;> rfl
  · exact ⟨_, rfl, fun high => congrArg Host.Outcome.next (if_neg (by simp [high])), rfl⟩

/-! ## HALTED -/

/-- A result ring with its holdoff timer stopped. -/
def timerStopped (r : ResultRing) : ResultRing := { r with out := { r.out with timer := none } }

/-- The timers of the result rings of a list are stopped. -/
def stopTimers (qs : List ResultRingId) (s : State) : State :=
  qs.foldl (fun s q => s.setResultRing q (timerStopped (s.resultRing q))) s

theorem stopTimers_resultRing (qs : List ResultRingId) (s : State) (q : ResultRingId) :
    (stopTimers qs s).resultRing q =
      if q ∈ qs then timerStopped (s.resultRing q) else s.resultRing q := by
  induction qs generalizing s with
  | nil => rfl
  | cons p qs ih =>
    refine (ih (s.setResultRing p (timerStopped (s.resultRing p)))).trans ?_
    rcases eq_or_ne q p with rfl | hq
    · rw [resultRing_setResultRing_self]
      split <;> simp [timerStopped]
    · rw [resultRing_setResultRing_ne _ _ hq]
      simp [hq]

theorem stopTimers_rest (qs : List ResultRingId) (s : State) :
    { stopTimers qs s with results := s.results } = s := by
  induction qs generalizing s with
  | nil => rfl
  | cons p qs ih =>
    exact congrArg (fun m : State => { m with results := s.results })
      (ih (s.setResultRing p (timerStopped (s.resultRing p))))

theorem haltDevice_resultRing (reason : HaltReason) (s : State) (q : ResultRingId) :
    (haltDevice reason s).resultRing q = timerStopped (s.resultRing q) :=
  (stopTimers_resultRing allResultRings s q).trans
    (if_pos (Signalling.mem_allResultRings q))

/-- R201: what the entry to HALTED does. -/
theorem haltDevice_haltedBy (reason : HaltReason) (s : State) :
    HaltedBy reason s (haltDevice reason s) where
  device := rfl
  halt := rfl
  deviceEvent := rfl
  bootRead := rfl
  timers n := by
    cases n with
    | result q => exact congrArg ResultRing.out (haltDevice_resultRing reason s q)
    | notice =>
      have same := congrArg State.notice (stopTimers_rest allResultRings s)
      exact congrArg (fun o : OutputRing => { o with timer := none }) same
  results q := (congrArg ResultRing.pending (haltDevice_resultRing reason s q) :)
  lost q := (congrArg ResultRing.lost (haltDevice_resultRing reason s q) :)
  rest := congrArg (fun m : State => { m with
    device := s.device, halt := s.halt, deviceEvent := s.deviceEvent, bootRead := s.bootRead,
    notice := s.notice }) (stopTimers_rest allResultRings s)

theorem serviceRings_halted {s : State} (h : s.device = .halted) : serviceRings s = s :=
  (serviceRings_serviced s).halted h

/-! ## CTRL -/

theorem registerTaken_high {s : State} (high : s.resetPinLow = false) (write : State → State) :
    registerTaken write s = write s := if_neg (by simp [high])

theorem live_of_ne {s : State} (h : s.device ≠ .halted) : s.live = true := by
  simp [State.live, h]

theorem not_live {s : State} (h : s.device = .halted) : s.live = false := by
  simp [State.live, h]

theorem exec_start {s : State} (high : s.resetPinLow = false) (e : Bool) :
    exec (.start e) s = .next (startDevice (s.setEnable e)) :=
  congrArg Host.Outcome.next (registerTaken_high high _)

theorem exec_stop {s : State} (high : s.resetPinLow = false) (e : Bool) :
    exec (.stop e) s = .next (stopDevice (s.setEnable e)) :=
  congrArg Host.Outcome.next (registerTaken_high high _)

theorem startDevice_ignored {s : State} (hr : s.device ≠ .reset) (hs : s.device ≠ .stopped) :
    startDevice s = s := by
  unfold startDevice
  cases hd : s.device <;> simp_all

theorem startDevice_reset {s : State} (h : s.device = .reset) :
    startDevice s = if s.boot.toNat % 32 = 0 then
      { s with device := .starting, bootRead := some s.boot }
      else haltDevice .bootInvalid { s with device := .starting } := by
  unfold startDevice
  rw [h]

/-- Entry to HALTED looks at no device state. -/
theorem haltedBy_of_device {reason : HaltReason} {s t : State} {d : DeviceState}
    (h : HaltedBy reason { s with device := d } t) : HaltedBy reason s t :=
  { h with
    rest := congrArg (fun m : State => { m with device := s.device }) h.rest
    timers := h.timers, results := h.results, lost := h.lost }

/-- Settles O4: what each command of CTRL does in the states that ignore it, and START in RESET. -/
theorem controlWritesStartOrAreIgnored : Obligations.ControlWritesStartOrAreIgnored := by
  refine ⟨fun both e s high => ⟨congrArg Host.Outcome.next (registerTaken_high high _),
    fun hr hs => ?_, fun hs => ?_⟩, fun e s high reset => ⟨fun aligned => ?_, fun odd => ?_⟩⟩
  · rw [exec_start high]
    exact congrArg Host.Outcome.next (startDevice_ignored hr hs)
  · rw [exec_stop high]
    exact congrArg Host.Outcome.next (if_neg hs)
  · rw [exec_start high, startDevice_reset (s := s.setEnable e) reset]
    exact congrArg Host.Outcome.next (if_pos aligned)
  · refine ⟨_, exec_start high e, ?_⟩
    rw [startDevice_reset (s := s.setEnable e) reset]
    have halted := haltDevice_haltedBy .bootInvalid { s.setEnable e with device := .starting }
    rw [if_neg (show ¬(s.setEnable e).boot.toNat % 32 = 0 from odd)]
    exact haltedBy_of_device halted

theorem startLine_eq (l : Line) (s : State) :
    startLine l s = (s.setQueue l []).setEngine l { s.engine l with
      headEnd := if (s.engine l).headEnd = .emptyQueue then .leaveQueue
        else (s.engine l).headEnd } := by
  have same : (s.setQueue l []).setEngine l (s.engine l) = s.setQueue l [] := by
    cases l <;> rfl
  unfold startLine
  dsimp only
  split
  · next h => rw [if_pos h]
  · next h =>
    rw [if_neg (by simp [h])]
    exact same.symm
  · next h =>
    rw [if_neg (by simp [h])]
    exact same.symm

/-- Settles O5: START in STOPPED empties both queues and is an event of both lines. -/
theorem startInStoppedReturnsToRunning : Obligations.StartInStoppedReturnsToRunning := by
  intro e s high stopped
  have start : startDevice (s.setEnable e) = serviceRings (settleBoth
      (startLine .b (startLine .a { s.setEnable e with device := .running }))) := by
    unfold startDevice
    rw [show (s.setEnable e).device = .stopped from stopped]
  refine ⟨_, (exec_start high e).trans (congrArg Host.Outcome.next start), ?_, ?_⟩
  · have serviced := serviceRings_serviced (settleBoth
      (startLine .b (startLine .a { s.setEnable e with device := .running })))
    have running : (settleBoth
        (startLine .b (startLine .a { s.setEnable e with device := .running }))).device = .running := by
      rw [settleBoth, (settleLine_lineKept _ _).device, (settleLine_lineKept _ _).device,
        startLine_eq, startLine_eq]
      rfl
    rw [serviced.device, if_neg (by simp [running]), running]
  · have both : startLine .b (startLine .a { s.setEnable e with device := .running }) = { s with
        intEnable := e, device := .running, queues := ⟨[], []⟩
        lines :=
          ⟨{ s.engine .a with headEnd := if (s.engine .a).headEnd = .emptyQueue then .leaveQueue
              else (s.engine .a).headEnd },
            { s.engine .b with headEnd := if (s.engine .b).headEnd = .emptyQueue then .leaveQueue
              else (s.engine .b).headEnd }⟩ } := by
      rw [startLine_eq, startLine_eq]
      rfl
    rw [both]
    exact afterBoth_after _

/-- Settles O7. -/
theorem plainWritesReachBootAlone : Obligations.PlainWritesReachBootAlone := by
  refine ⟨fun o v s high plain => ?_, fun c s b1 b2 b3 o v low mem => ⟨?_, ?_⟩⟩
  · simp only [Instr.wellFormed, behavedOffset, Bool.not_eq_true', Bool.or_eq_false_iff,
      beq_eq_false_iff_ne] at plain
    obtain ⟨⟨⟨ctrl, post⟩, take⟩, signal⟩ := plain
    refine congrArg Host.Outcome.next ((registerTaken_high high _).trans ?_)
    simp only [writeRegister, if_neg ctrl, if_neg post, if_neg take, if_neg signal]
  · have refused : ∀ write, registerTaken write s = s := fun _ => if_pos low
    simp only [List.mem_cons, List.not_mem_nil, or_false] at mem
    rcases mem with rfl | rfl | rfl | rfl | rfl | rfl | rfl | rfl <;>
      exact congrArg Host.Outcome.next (refused _)
  · simp [State.readRegister, low]

/-! ## POST -/

theorem workRingOf_eq {b : Byte} {r : WorkRingId} (h : b.toNat = r.val) : workRingOf b = some r := by
  have range : b.toNat ≤ 7 := by omega
  unfold workRingOf
  rw [dif_pos range]
  exact congrArg some (Fin.ext h)

theorem exec_post {s : State} (high : s.resetPinLow = false) (live : s.device ≠ .halted) (v : Word)
    {r : WorkRingId} (h : (ringField v).toNat = r.val) :
    exec (.post v) s = .next (serviceRings (postRing r (ringField v) (countField v) s)) := by
  refine congrArg Host.Outcome.next ((registerTaken_high high _).trans ?_)
  unfold writePost
  rw [if_pos (live_of_ne live), workRingOf_eq h]

theorem postRing_open {s : State} {r : WorkRingId} (number : Byte) (count : Half)
    (h : (s.workRing r).state = .active ∨ (s.workRing r).state = .held) :
    postRing r number count s = if (s.workRing r).goodPost count then
      s.setWorkRing r { s.workRing r with posted := count } else faultWorkRing r .badPost s := by
  unfold postRing
  dsimp only
  rcases h with h | h <;> rw [h]

theorem goodPost_iff (w : WorkRing) (count : Half) :
    w.goodPost count = true ↔ (count - w.fetched).toNat ≤ w.size ∧
      (w.posted - w.fetched).toNat ≤ (count - w.fetched).toNat := by
  unfold WorkRing.goodPost WorkRing.ahead
  rw [Bool.and_eq_true, decide_eq_true_iff, decide_eq_true_iff]

/-- Settles O9: a POST by the state of the ring it names. -/
theorem postsAreJudgedByTheirRing : Obligations.PostsAreJudgedByTheirRing := by
  refine ⟨fun v s r high live ring opened => ?_, fun v s high =>
    ⟨fun halted => ?_, fun live none => ?_, fun r live ring closed => ?_,
      fun r live ring faulted => ?_⟩⟩
  · have run := exec_post high live v ring
    rw [postRing_open _ _ opened] at run
    split
    · next good =>
      rw [if_pos ((goodPost_iff _ _).mpr good)] at run
      exact ⟨_, run, serviceRings_serviced _⟩
    · next bad =>
      rw [if_neg fun good => bad ((goodPost_iff _ _).mp good)] at run
      unfold faultWorkRing at run
      split
      · next zero =>
        dsimp only at run
        rw [if_pos zero, serviceRings_halted (haltDevice_haltedBy _ _).device] at run
        exact ⟨_, run, haltDevice_haltedBy _ _⟩
      · next other =>
        dsimp only at run
        rw [if_neg other] at run
        exact ⟨_, run, serviceRings_serviced _⟩
  · refine congrArg Host.Outcome.next ((registerTaken_high high _).trans ?_)
    exact if_neg (by simp [not_live halted])
  · have noRing : workRingOf (ringField v) = .none := dif_neg (by omega)
    have run : exec (.post v) s = .next (serviceRings
        (createNotice .none (.postIgnored (ringField v) .noSuchRing (countField v)) s)) := by
      refine congrArg Host.Outcome.next ((registerTaken_high high _).trans ?_)
      unfold writePost
      rw [if_pos (live_of_ne live), noRing]
    exact ⟨_, run, serviceRings_serviced _⟩
  · have ignored : postRing r (ringField v) (countField v) s =
        createNotice .none (.postIgnored (ringField v) .ringClosed (countField v)) s := by
      unfold postRing
      dsimp only
      rcases closed with h | h <;> rw [h]
    exact ⟨_, (exec_post high live v ring).trans (by rw [ignored]), serviceRings_serviced _⟩
  · have ignored : postRing r (ringField v) (countField v) s = s := by
      unfold postRing
      dsimp only
      rw [faulted]
    exact ⟨_, (exec_post high live v ring).trans (by rw [ignored]), serviceRings_serviced _⟩

/-! ## TAKE and SIGNAL -/

/-- The number by which TAKE names a ring (R213). -/
def takeNumber : RingName → Nat
  | .result q => q.val
  | .notice => 8

theorem ringNameOf_eq {b : Byte} {n : RingName} (h : b.toNat = takeNumber n) :
    ringNameOf b = some n := by
  unfold ringNameOf
  cases n with
  | notice => exact if_pos (BitVec.eq_of_toNat_eq h)
  | result q =>
    have number : b.toNat = q.val := h
    have other : b ≠ 8 := fun x => by
      rw [x] at number
      have := q.isLt
      simp at number
      omega
    have range : b.toNat ≤ 3 := by omega
    rw [if_neg other]
    unfold resultRingOf
    rw [dif_pos range]
    exact congrArg (fun q => some (RingName.result q)) (Fin.ext number)

theorem exec_take {s : State} (high : s.resetPinLow = false) (live : s.device ≠ .halted) (v : Word)
    {n : RingName} (h : (ringField v).toNat = takeNumber n) :
    exec (.take v) s = .next (serviceRings (takeRing n (countField v) s)) := by
  refine congrArg Host.Outcome.next ((registerTaken_high high _).trans ?_)
  unfold writeTake
  rw [if_pos (live_of_ne live), ringNameOf_eq h]

theorem takeRing_active {s : State} {n : RingName} (count : Half)
    (h : (s.outRing n).state = .active) :
    takeRing n count s = if (s.outRing n).goodTake count then
      s.setOutRing n ((s.outRing n).taken count) else faultRing n .badTake s := by
  unfold takeRing
  dsimp only
  rw [h]

theorem takeRing_ignored {s : State} {n : RingName} (count : Half)
    (h : (s.outRing n).state ≠ .active) : takeRing n count s = s := by
  unfold takeRing
  dsimp only
  cases hs : (s.outRing n).state with
  | active => exact absurd hs h
  | closed => rfl
  | faulted => rfl

theorem goodTake_iff (o : OutputRing) (count : Half) :
    o.goodTake count = true ↔ (count - o.consumed).toNat ≤ (o.written - o.consumed).toNat :=
  decide_eq_true_iff

/-- Settles O10. -/
theorem goodTakeMovesConsumed : Obligations.GoodTakeMovesConsumed := by
  intro v s high
  refine ⟨fun halted => ?_, fun none other => ?_, fun n live ring => ⟨fun idle => ?_,
    fun active good => ?_⟩⟩
  · refine congrArg Host.Outcome.next ((registerTaken_high high _).trans ?_)
    exact if_neg (by simp [not_live halted])
  · have noRing : ringNameOf (ringField v) = .none := by
      have notNotice : ringField v ≠ 8 := fun h => other (by rw [h]; rfl)
      unfold ringNameOf resultRingOf
      rw [if_neg notNotice, dif_neg (by omega)]
      rfl
    refine congrArg Host.Outcome.next ((registerTaken_high high _).trans ?_)
    unfold writeTake
    rw [noRing]
    split <;> rfl
  · have named : (ringField v).toNat = takeNumber n := by cases n <;> exact ring
    exact ⟨_, (exec_take high live v named).trans (by rw [takeRing_ignored _ idle]),
      serviceRings_serviced _⟩
  · have named : (ringField v).toNat = takeNumber n := by cases n <;> exact ring
    have run := exec_take high live v named
    rw [takeRing_active _ active, if_pos ((goodTake_iff _ _).mpr good)] at run
    exact ⟨_, run, serviceRings_serviced _⟩

/-- The bit of SIGNAL of a written ring (R213). -/
def signalPlace : RingName → Nat
  | .result q => q.val
  | .notice => 4

theorem outRing_setOutRing_self (s : State) (n : RingName) (o : OutputRing) :
    (s.setOutRing n o).outRing n = o := by
  cases n with
  | notice => rfl
  | result q => exact congrArg ResultRing.out (resultRing_setResultRing_self _ _ _)

theorem outRing_setOutRing_ne (s : State) {n k : RingName} (o : OutputRing) (h : k ≠ n) :
    (s.setOutRing n o).outRing k = s.outRing k := by
  cases n with
  | notice =>
    cases k with
    | notice => exact absurd rfl h
    | result p => rfl
  | result q =>
    cases k with
    | notice => rfl
    | result p =>
      exact congrArg ResultRing.out
        (resultRing_setResultRing_ne _ _ fun x => h (congrArg RingName.result x))

theorem setOutRing_lists (s : State) (n : RingName) (o : OutputRing) (q : ResultRingId) :
    ((s.setOutRing n o).resultRing q).pending = (s.resultRing q).pending ∧
      ((s.setOutRing n o).resultRing q).lost = (s.resultRing q).lost := by
  cases n with
  | notice => exact ⟨rfl, rfl⟩
  | result p =>
    rcases eq_or_ne q p with rfl | hq
    · simp [State.setOutRing]
    · simp [State.setOutRing, resultRing_setResultRing_ne _ _ hq]

theorem setOutRing_rest (s : State) (n : RingName) (o : OutputRing) :
    { s.setOutRing n o with results := s.results, notice := s.notice } = s := by
  cases n <;> rfl

/-- Between two states the conditions that a value names of the written rings of a list have been
acknowledged, and nothing else has changed. -/
structure Acknowledged (v : Word) (ns : List RingName) (s t : State) : Prop where
  out : ∀ n, t.outRing n = if n ∈ ns ∧ v.getLsbD (signalPlace n) = true
    then (s.outRing n).acknowledge s.ms s.live else s.outRing n
  lists : ∀ q, (t.resultRing q).pending = (s.resultRing q).pending ∧
    (t.resultRing q).lost = (s.resultRing q).lost
  rest : { t with results := s.results, notice := s.notice } = s

theorem acknowledgeRing_acknowledged (v : Word) (n : RingName) (s : State) :
    Acknowledged v [n] s (acknowledgeRing v n (signalPlace n) s) := by
  unfold acknowledgeRing
  split
  · next named =>
    refine ⟨fun k => ?_, setOutRing_lists s n _, setOutRing_rest s n _⟩
    rcases eq_or_ne k n with rfl | hk
    · rw [outRing_setOutRing_self, if_pos ⟨List.mem_singleton_self _, named⟩]
    · rw [outRing_setOutRing_ne _ _ hk, if_neg fun h => hk (List.mem_singleton.mp h.1)]
  · next unnamed =>
    refine ⟨fun k => (if_neg fun h => ?_).symm, fun _ => ⟨rfl, rfl⟩, rfl⟩
    obtain ⟨mem, bit⟩ := h
    rw [List.mem_singleton] at mem
    exact unnamed (mem ▸ bit)

theorem Acknowledged.cons {v : Word} {n : RingName} {ns : List RingName} {s m t : State}
    (h : Acknowledged v [n] s m) (k : Acknowledged v ns m t) (new : n ∉ ns) :
    Acknowledged v (n :: ns) s t := by
  have ms : m.ms = s.ms := (congrArg State.ms h.rest :)
  have live : m.live = s.live := (congrArg State.live h.rest :)
  refine ⟨fun p => ?_, fun q => ⟨(k.lists q).1.trans (h.lists q).1, (k.lists q).2.trans (h.lists q).2⟩,
    (congrArg (fun x : State => { x with results := s.results, notice := s.notice }) k.rest).trans
      h.rest⟩
  rw [k.out p, h.out p, ms, live]
  rcases eq_or_ne p n with rfl | hp
  · simp [new]
  · simp [hp]

theorem acknowledgeRings_acknowledged (v : Word) (ns : List RingName) (distinct : ns.Nodup)
    (s : State) :
    Acknowledged v ns s (ns.foldl (fun s n => acknowledgeRing v n (signalPlace n) s) s) := by
  induction ns generalizing s with
  | nil => exact ⟨fun n => (if_neg fun h => List.not_mem_nil h.1).symm, fun _ => ⟨rfl, rfl⟩, rfl⟩
  | cons n ns ih =>
    rw [List.nodup_cons] at distinct
    exact (acknowledgeRing_acknowledged v n s).cons (ih distinct.2 _) distinct.1

/-- The written rings in the order in which SIGNAL acknowledges them. -/
def signalRings : List RingName := [.result 0, .result 1, .result 2, .result 3, .notice]

theorem mem_signalRings (n : RingName) : n ∈ signalRings := by
  cases n with
  | notice => decide
  | result q => revert q; decide

theorem writeSignal_eq (v : Word) (s : State) :
    writeSignal v s =
      { signalRings.foldl (fun s n => acknowledgeRing v n (signalPlace n) s) s with
        deviceEvent := (signalRings.foldl (fun s n => acknowledgeRing v n (signalPlace n) s)
          s).deviceEvent && !v.getLsbD 5 } := by
  unfold writeSignal signalRings
  simp only [List.foldl, signalPlace]
  cases v.getLsbD 5 with
  | true => simp
  | false => simp

theorem writeSignal_outRing (v : Word) (s : State) (n : RingName) :
    (writeSignal v s).outRing n =
      if v.getLsbD (signalPlace n) = true ∧ (s.outRing n).signalled = true then
        { s.outRing n with
          signalled := false
          timer := if s.device ≠ .halted ∧ (s.outRing n).state = .active ∧
              0 < ((s.outRing n).written - (s.outRing n).consumed).toNat then
            some (s.ms + BitVec.ofNat 32 (s.outRing n).holdoff) else (s.outRing n).timer }
      else s.outRing n := by
  rw [writeSignal_eq]
  refine ((acknowledgeRings_acknowledged v signalRings (by decide) s).out n).trans ?_
  unfold OutputRing.acknowledge OutputRing.unconsumed State.live
  by_cases bit : v.getLsbD (signalPlace n) = true
  · simp only [bit, mem_signalRings, true_and, if_true, bne_iff_ne, ne_eq]
  · rw [if_neg fun h => bit h.2, if_neg fun h => bit h.1]

/-- Settles O12. -/
theorem signalAcknowledgesTheConditions : Obligations.SignalAcknowledgesTheConditions := by
  intro v s high
  have done := acknowledgeRings_acknowledged v signalRings (by decide) s
  refine ⟨writeSignal v s, congrArg Host.Outcome.next (registerTaken_high high _), fun n => ?_,
    fun q => ?_, ?_, ?_⟩
  · cases n with
    | notice => exact writeSignal_outRing v s .notice
    | result q => exact writeSignal_outRing v s (.result q)
  · rw [writeSignal_eq]
    exact done.lists q
  · rw [writeSignal_eq]
    exact congrArg (· && !v.getLsbD 5) (congrArg State.deviceEvent done.rest :)
  · rw [writeSignal_eq]
    exact (congrArg (fun m : State => { m with deviceEvent := s.deviceEvent }) done.rest :)

end Sys2Proof.Registers

/-! The checks of the records: what each reader of a field accepts, and from that when the records of
the work, of the administrative requests and of the boot block pass, and the fields they give. -/

namespace Sys2Proof.Decoding

open Sys2Proof Sys2Proof.Machine Sys2Proof.Safety Sys2Proof.Laws Sys2Proof.NodeTable

/-! ## Readers of one field -/

theorem aligned_eq_some {n : Nat} {a b : Word} : aligned n a = some b ↔ a.toNat % n = 0 ∧ a = b := by
  unfold aligned
  split <;> simp [*]

theorem within_eq_some {lo hi n m : Nat} : within lo hi n = some m ↔ (lo ≤ n ∧ n ≤ hi) ∧ n = m := by
  unfold within
  split <;> simp [*]

theorem check_eq_some {b : Bool} {u : Unit} : check b = some u ↔ b = true := by
  cases b <;> simp [check]

theorem sizeOf?_eq_some {n m : Nat} :
    sizeOf? n = some m ↔ n ∈ [8, 16, 32, 64, 128, 256, 512, 1024] ∧ n = m := by
  unfold sizeOf?
  split <;> simp [*]

theorem lineOf_eq_some {b : Byte} {l : Line} : lineOf b = some l ↔ b = lineByte l := by
  unfold lineOf
  split_ifs <;> cases l <;> simp_all [lineByte]

theorem exists_lineOf {b : Byte} : (∃ l, lineOf b = some l) ↔ b.toNat ≤ 1 := by
  simp only [lineOf_eq_some]
  constructor
  · rintro ⟨l, rfl⟩
    cases l <;> decide
  · intro h
    have : b = 0 ∨ b = 1 := by bv_omega
    rcases this with rfl | rfl
    · exact ⟨.a, rfl⟩
    · exact ⟨.b, rfl⟩

theorem addrOf_eq_some_iff {b : Byte} {a : Addr} : addrOf b = some a ↔ b.toNat = a.val + 1 := by
  unfold addrOf
  split
  · simp only [Option.some.injEq, Fin.ext_iff]
    omega
  · have := a.isLt
    simp only [reduceCtorEq, false_iff]
    omega

theorem exists_addrOf {b : Byte} : (∃ a, addrOf b = some a) ↔ 1 ≤ b.toNat ∧ b.toNat ≤ 80 := by
  unfold addrOf
  split <;> simp_all

theorem zoneOf_eq_some_iff {b : Byte} {z : Zone} : zoneOf b = some z ↔ b.toNat = z.val + 1 := by
  unfold zoneOf
  split
  · simp only [Option.some.injEq, Fin.ext_iff]
    omega
  · have := z.isLt
    simp only [reduceCtorEq, false_iff]
    omega

theorem exists_zoneOf {b : Byte} : (∃ z, zoneOf b = some z) ↔ 1 ≤ b.toNat ∧ b.toNat ≤ 12 := by
  unfold zoneOf
  split <;> simp_all

theorem lineRingOf_eq_some {b : Byte} {k : WorkRingId} :
    lineRingOf b = some k ↔ b.toNat = k.val ∧ k ≠ 0 := by
  unfold lineRingOf
  split
  · simp only [Option.some.injEq, Fin.ext_iff, ne_eq, Fin.val_zero]
    omega
  · have := k.isLt
    simp only [reduceCtorEq, false_iff, ne_eq, Fin.ext_iff, Fin.val_zero]
    omega

theorem exists_lineRingOf {b : Byte} : (∃ k, lineRingOf b = some k) ↔ 1 ≤ b.toNat ∧ b.toNat ≤ 7 := by
  unfold lineRingOf
  split <;> simp_all

theorem resultRingOf_eq_some {b : Byte} {q : ResultRingId} :
    resultRingOf b = some q ↔ b.toNat = q.val := by
  unfold resultRingOf
  split
  · simp only [Option.some.injEq, Fin.ext_iff]
  · have := q.isLt
    simp only [reduceCtorEq, false_iff]
    omega

theorem exists_resultRingOf {b : Byte} : (∃ q, resultRingOf b = some q) ↔ b.toNat ≤ 3 := by
  unfold resultRingOf
  split <;> simp_all

theorem openResultRingOf_eq_some {b : Byte} {q : ResultRingId} :
    openResultRingOf b = some q ↔ b.toNat = q.val ∧ q ≠ 0 := by
  unfold openResultRingOf
  split
  · next zero =>
    subst zero
    simp only [reduceCtorEq, false_iff, not_and, not_not]
    exact fun h => Fin.ext h.symm
  · next other =>
    rw [resultRingOf_eq_some, iff_self_and]
    rintro h rfl
    exact other (BitVec.eq_of_toNat_eq h)

theorem reflexIdOf_eq_some {b : Byte} {k : ReflexId} : reflexIdOf b = some k ↔ b.toNat = k.val := by
  unfold reflexIdOf
  split
  · simp only [Option.some.injEq, Fin.ext_iff]
  · have := k.isLt
    simp only [reduceCtorEq, false_iff]
    omega

theorem exists_reflexIdOf {b : Byte} : (∃ k, reflexIdOf b = some k) ↔ b.toNat ≤ 31 := by
  unfold reflexIdOf
  split <;> simp_all

theorem exists_classOf {b : Byte} : (∃ c, classOf b = some c) ↔ b.toNat ≤ 2 := by
  unfold classOf
  split_ifs
  all_goals simp_all
  bv_omega

theorem exists_rateOf {b : Byte} : (∃ c, rateOf b = some c) ↔ b.toNat ≤ 2 := by
  unfold rateOf
  split_ifs
  all_goals simp_all
  bv_omega

theorem classOf_eq_some {b : Byte} {c : RingClass} (h : classOf b = some c) :
    (c = .urgent ↔ b = 0) ∧ (c = .bulk ↔ b = 2) := by
  unfold classOf at h
  split_ifs at h <;> cases h <;> simp_all

theorem rateOf_eq_some {b : Byte} {c : BitRate} (h : rateOf b = some c) :
    c = if b = 0 then .r2400 else if b = 1 then .r4800 else .r9600 := by
  unfold rateOf at h
  split_ifs at h <;> cases h <;> simp_all

/-! ## The records that open rings, LINE_SET, and the reads of the tables -/

theorem isSome_bind_iff {α β : Type} {o : Option α} {f : α → Option β} :
    (o.bind f).isSome = true ↔ ∃ a, o = some a ∧ (f a).isSome = true := by
  cases o <;> simp

theorem decodeOpenWork_isSome (r : Record) : (decodeOpenWork r).isSome = true ↔
    1 ≤ r[12].toNat ∧ r[12].toNat ≤ 7 ∧ r[13].toNat ≤ 1 ∧ r[14].toNat ≤ 2 ∧ r[15].toNat ≤ 3 ∧
    1 ≤ r[16].toNat ∧ r[16].toNat ≤ 24 ∧
    (join16 r[19] r[18]).toNat ∈ [8, 16, 32, 64, 128, 256, 512, 1024] ∧
    (join32 r[23] r[22] r[21] r[20]).toNat % 32 = 0 := by
  simp only [decodeOpenWork, Option.bind_eq_bind, isSome_bind_iff, aligned_eq_some, within_eq_some,
    sizeOf?_eq_some, Option.isSome_some, and_true, and_assoc, exists_and_left, exists_eq',
    exists_eq_left', exists_and_right, exists_lineOf, exists_lineRingOf, exists_classOf,
    exists_resultRingOf]
  tauto

theorem decodeOpenOut_isSome (r : Record) : (decodeOpenOut r).isSome = true ↔
    1 ≤ r[13].toNat ∧ r[13].toNat ≤ 64 ∧
    (join16 r[19] r[18]).toNat ∈ [8, 16, 32, 64, 128, 256, 512, 1024] ∧
    (join32 r[23] r[22] r[21] r[20]).toNat % 32 = 0 ∧
    (join32 r[27] r[26] r[25] r[24]).toNat % 4 = 0 := by
  simp only [decodeOpenOut, Option.bind_eq_bind, isSome_bind_iff, aligned_eq_some, within_eq_some,
    sizeOf?_eq_some, Option.isSome_some, and_true, and_assoc, exists_and_left, exists_eq',
    exists_eq_left']
  tauto

theorem decodeLineSet_isSome (r : Record) : (decodeLineSet r).isSome = true ↔
    r[12].toNat ≤ 1 ∧ r[13].toNat ≤ 2 ∧ r[14].toNat ≤ 7 ∧ 1 ≤ r[15].toNat ∧
    r[15].toNat ≤ 15 ∧ 20 ≤ (join16 r[17] r[16]).toNat ∧ (join16 r[17] r[16]).toNat ≤ 2000 ∧
    2 ≤ r[18].toNat ∧ r[18].toNat ≤ 30 ∧ 10 ≤ (join16 r[21] r[20]).toNat ∧
    (join16 r[21] r[20]).toNat ≤ 250 ∧ (join16 r[23] r[22]).toNat ≤ 1000 := by
  simp only [decodeLineSet, Option.bind_eq_bind, isSome_bind_iff, within_eq_some, Nat.zero_le,
    true_and, Option.isSome_some, and_true, and_assoc, exists_and_left, exists_eq', exists_eq_left',
    exists_and_right, exists_lineOf, exists_rateOf]

theorem decodeOpenWork_fields {r : Record} {k : WorkRingId} {w : WorkRing}
    (h : decodeOpenWork r = some (k, w)) :
    lineRingOf r[12] = some k ∧ lineOf r[13] = some w.line ∧ classOf r[14] = some w.cls ∧
      resultRingOf r[15] = some w.bound ∧ w.base = join32 r[23] r[22] r[21] r[20] ∧
      w.size = (join16 r[19] r[18]).toNat ∧ w.credit = r[16].toNat ∧ w.posted = 0 ∧
      w.fetched = 0 := by
  simp only [decodeOpenWork, Option.bind_eq_bind, Option.bind_eq_some_iff, aligned_eq_some,
    within_eq_some, sizeOf?_eq_some, Option.some.injEq, Prod.mk.injEq] at h
  obtain ⟨_, ring, _, ⟨_, rfl⟩, _, ⟨_, rfl⟩, _, line, _, cls, _, bound, _, ⟨_, rfl⟩, rfl, rfl⟩ := h
  exact ⟨ring, line, cls, bound, rfl, rfl, rfl, rfl, rfl⟩

theorem decodeOpenOut_fields {r : Record} {o : OutputRing} (h : decodeOpenOut r = some o) :
    o = { state := .active, base := join32 r[23] r[22] r[21] r[20],
          size := (join16 r[19] r[18]).toNat, progress := join32 r[27] r[26] r[25] r[24],
          threshold := r[13].toNat, holdoff := r[14].toNat, written := 0, consumed := 0,
          signalled := false, timer := none, access := .idle } := by
  simp only [decodeOpenOut, Option.bind_eq_bind, Option.bind_eq_some_iff, aligned_eq_some,
    within_eq_some, sizeOf?_eq_some, Option.some.injEq] at h
  obtain ⟨_, ⟨_, rfl⟩, _, ⟨_, rfl⟩, _, ⟨_, rfl⟩, _, ⟨_, rfl⟩, rfl⟩ := h
  rfl

theorem decodeLineSet_fields {r : Record} {l : Line} {c : LineConfig}
    (h : decodeLineSet r = some (l, c)) :
    lineOf r[12] = some l ∧
      c = { rate := if r[13] = 0 then .r2400 else if r[13] = 1 then .r4800 else .r9600,
            retryLimit := r[14].toNat, silence := r[15].toNat,
            listenInterval := (join16 r[17] r[16]).toNat, pollInterval := r[18].toNat,
            budget := (join16 r[21] r[20]).toNat, settle := (join16 r[23] r[22]).toNat } := by
  simp only [decodeLineSet, Option.bind_eq_bind, Option.bind_eq_some_iff, within_eq_some,
    Option.some.injEq, Prod.mk.injEq] at h
  obtain ⟨_, line, _, rate, _, ⟨_, rfl⟩, _, ⟨_, rfl⟩, _, ⟨_, rfl⟩, _, ⟨_, rfl⟩, _, ⟨_, rfl⟩, _,
    ⟨_, rfl⟩, rfl, rfl⟩ := h
  exact ⟨line, by rw [rateOf_eq_some rate]⟩

theorem line_eq_a_iff {b : Byte} {l : Line} (h : lineOf b = some l) : l = .a ↔ b = 0 := by
  rw [lineOf_eq_some] at h
  subst h
  cases l <;> decide

/-- Settles O19, from what each record's readers accept. -/
theorem openAndLineRecordsAreChecked : Obligations.OpenAndLineRecordsAreChecked := by
  refine fun r => ⟨decodeOpenWork_isSome r, decodeOpenOut_isSome r, decodeLineSet_isSome r,
    fun k w h => ?_, fun l c h => ?_, fun o h => decodeOpenOut_fields h⟩
  · obtain ⟨ring, line, cls, bound, base, size, credit, posted, fetched⟩ := decodeOpenWork_fields h
    exact ⟨(lineRingOf_eq_some.mp ring).1.symm, base, size, (resultRingOf_eq_some.mp bound).symm,
      credit, posted, fetched, line_eq_a_iff line, classOf_eq_some cls⟩
  · obtain ⟨line, settings⟩ := decodeLineSet_fields h
    exact ⟨line_eq_a_iff line, settings⟩

theorem decodeReflexRead_isSome (r : Record) : (decodeReflexRead r).isSome = true ↔
    r[12].toNat ≤ 31 ∧ (join32 r[23] r[22] r[21] r[20]).toNat % 32 = 0 := by
  simp only [decodeReflexRead, Option.bind_eq_bind, isSome_bind_iff, aligned_eq_some,
    Option.isSome_some, and_true, exists_and_left, exists_eq', exists_and_right, exists_reflexIdOf]

theorem decodeNodeClear_isSome (r : Record) : (decodeNodeClear r).isSome = true ↔
    r[12].toNat ≤ 1 ∧ 1 ≤ r[13].toNat ∧ r[13].toNat ≤ 80 := by
  simp only [decodeNodeClear, Option.bind_eq_bind, isSome_bind_iff, Option.isSome_some, and_true,
    exists_and_right, exists_lineOf, exists_addrOf]

theorem decodeNodeRead_isSome (r : Record) : (decodeNodeRead r).isSome = true ↔
    r[12].toNat ≤ 1 ∧ 1 ≤ r[13].toNat ∧ r[13].toNat ≤ 80 ∧ 1 ≤ r[14].toNat ∧
    r[14].toNat ≤ 80 ∧ r[13].toNat + r[14].toNat ≤ 81 ∧
    (join32 r[23] r[22] r[21] r[20]).toNat % 32 = 0 := by
  simp only [decodeNodeRead, Option.bind_eq_bind, isSome_bind_iff, aligned_eq_some, within_eq_some,
    check_eq_some, Option.isSome_some, and_true, and_assoc, exists_and_left, exists_eq',
    exists_eq_left', exists_and_right, exists_lineOf, decide_eq_true_eq, exists_const,
    addrOf_eq_some_iff]
  refine and_congr_right fun _ => ⟨?_, ?_⟩
  · rintro ⟨a, number, low, high, fits, base⟩
    have := a.isLt
    omega
  · rintro ⟨low, high, one, eighty, fits, base⟩
    exact ⟨⟨r[13].toNat - 1, by omega⟩, by dsimp only; omega, one, eighty, by dsimp only; omega, base⟩

theorem decodeAbort_isSome (r : Record) :
    (decodeAbort r).isSome = true ↔ 1 ≤ r[12].toNat ∧ r[12].toNat ≤ 7 := by
  simp only [decodeAbort, Option.bind_eq_bind, isSome_bind_iff, Option.isSome_some, and_true,
    exists_lineRingOf]

theorem decodeReflexRead_fields {r : Record} {k : ReflexId} {a : Word}
    (h : decodeReflexRead r = some (k, a)) :
    k.val = r[12].toNat ∧ a = join32 r[23] r[22] r[21] r[20] := by
  simp only [decodeReflexRead, Option.bind_eq_bind, Option.bind_eq_some_iff, aligned_eq_some,
    reflexIdOf_eq_some, Option.some.injEq, Prod.mk.injEq] at h
  obtain ⟨_, index, _, ⟨_, rfl⟩, rfl, rfl⟩ := h
  exact ⟨index.symm, rfl⟩

theorem decodeNodeClear_fields {r : Record} {l : Line} {a : Addr}
    (h : decodeNodeClear r = some (l, a)) : (l = .a ↔ r[12] = 0) ∧ a.val + 1 = r[13].toNat := by
  simp only [decodeNodeClear, Option.bind_eq_bind, Option.bind_eq_some_iff, addrOf_eq_some_iff,
    Option.some.injEq, Prod.mk.injEq] at h
  obtain ⟨_, line, _, number, rfl, rfl⟩ := h
  exact ⟨line_eq_a_iff line, number.symm⟩

theorem decodeNodeRead_fields {r : Record} {l : Line} {a : Addr} {n : Nat} {b : Word}
    (h : decodeNodeRead r = some (l, a, n, b)) :
    (l = .a ↔ r[12] = 0) ∧ a.val + 1 = r[13].toNat ∧ n = r[14].toNat ∧ 1 ≤ n ∧ a.val + n ≤ 80 ∧
      b = join32 r[23] r[22] r[21] r[20] := by
  simp only [decodeNodeRead, Option.bind_eq_bind, Option.bind_eq_some_iff, addrOf_eq_some_iff,
    within_eq_some, check_eq_some, aligned_eq_some, decide_eq_true_eq, Option.some.injEq,
    Prod.mk.injEq] at h
  obtain ⟨_, line, _, number, _, ⟨⟨one, _⟩, rfl⟩, _, fits, _, ⟨_, rfl⟩, rfl, rfl, rfl, rfl⟩ := h
  exact ⟨line_eq_a_iff line, number.symm, rfl, one, fits, rfl⟩

theorem decodeAbort_fields {r : Record} {k : WorkRingId} {tag : Word}
    (h : decodeAbort r = some (k, tag)) :
    k.val = r[12].toNat ∧ k ≠ 0 ∧ tag = join32 r[19] r[18] r[17] r[16] := by
  simp only [decodeAbort, Option.bind_eq_bind, Option.bind_eq_some_iff, lineRingOf_eq_some,
    Option.some.injEq, Prod.mk.injEq] at h
  obtain ⟨_, ⟨ring, other⟩, rfl, rfl⟩ := h
  exact ⟨ring.symm, other, rfl⟩

/-! ## Targets and verbs, and REFLEX_PUT -/

theorem targetOf_eq_some {kind number : Byte} {t : Target} (h : targetOf kind number = some t) :
    (kind = 0 → ∃ a : Addr, t = .node a ∧ number.toNat = a.val + 1) ∧
      (kind = 1 → ∃ z : Zone, t = .zone z ∧ number.toNat = z.val + 1) ∧
      (kind = 2 → t = .all) := by
  unfold targetOf at h
  split_ifs at h with h0 h1 h2
  · obtain ⟨a, number, rfl⟩ := Option.map_eq_some_iff.mp h
    simp [h0, addrOf_eq_some_iff.mp number]
  · obtain ⟨z, number, rfl⟩ := Option.map_eq_some_iff.mp h
    simp [h1, zoneOf_eq_some_iff.mp number]
  · cases h
    simp [h2]

theorem exists_targetOf {kind number : Byte} : (∃ t, targetOf kind number = some t) ↔
    (kind = 0 ∧ 1 ≤ number.toNat ∧ number.toNat ≤ 80) ∨
      (kind = 1 ∧ 1 ≤ number.toNat ∧ number.toNat ≤ 12) ∨ kind = 2 := by
  unfold targetOf
  split_ifs with h0 h1 h2
  · subst h0
    simp [Option.map_eq_some_iff, exists_addrOf]
  · subst h1
    simp [Option.map_eq_some_iff, exists_zoneOf]
  · simp [h2]
  · simp only [h0, h1, h2, false_and, or_self, exists_false]

theorem appVerbOf_eq_some {b : Byte} {v : BitVec 6} (h : appVerbOf b = some v) :
    v.toNat = b.toNat := by
  unfold appVerbOf at h
  split at h
  · cases h
    bv_omega
  · cases h

theorem exists_appVerbOf {b : Byte} : (∃ v, appVerbOf b = some v) ↔
    16 ≤ b.toNat ∧ b.toNat ≤ 63 := by
  unfold appVerbOf
  split <;> simp_all

theorem sourceOf_eq_some {b : Byte} {o : Option Addr} (h : sourceOf b = some o) :
    (o = none ↔ b = 0) ∧ ∀ a, o = some a → b.toNat = a.val + 1 := by
  unfold sourceOf at h
  split at h
  · next zero =>
    cases h
    simp [zero]
  · next other =>
    obtain ⟨a, number, rfl⟩ := Option.map_eq_some_iff.mp h
    refine ⟨by simp only [reduceCtorEq, other], fun b same => ?_⟩
    cases same
    exact addrOf_eq_some_iff.mp number

theorem exists_sourceOf {b : Byte} : (∃ o, sourceOf b = some o) ↔ b.toNat ≤ 80 := by
  unfold sourceOf
  split
  · next zero => simp [zero]
  · next other =>
    have : 1 ≤ b.toNat := by bv_omega
    simp [Option.map_eq_some_iff, exists_addrOf, this]

theorem decodeReflexPut_isSome (r : Record) : (decodeReflexPut r).isSome = true ↔
    r[12].toNat ≤ 31 ∧ r[13].toNat ≤ 1 ∧ r[14].toNat ≤ 80 ∧ r[15].toNat ≤ 31 ∧ r[18].toNat ≤ 1 ∧
    ((r[19] = 0 ∧ 1 ≤ r[20].toNat ∧ r[20].toNat ≤ 80) ∨
      (r[19] = 1 ∧ 1 ≤ r[20].toNat ∧ r[20].toNat ≤ 12) ∨ r[19] = 2) ∧
    16 ≤ r[21].toNat ∧ r[21].toNat ≤ 63 ∧ r[22].toNat ≤ 6 ∧
    (join16 r[30] r[29]).toNat ≤ 60000 := by
  simp only [decodeReflexPut, Option.bind_eq_bind, isSome_bind_iff, within_eq_some, Nat.zero_le,
    true_and, Option.isSome_some, and_true, and_assoc, exists_and_left, exists_eq', exists_eq_left',
    exists_and_right, exists_lineOf, exists_reflexIdOf, exists_sourceOf, exists_targetOf,
    exists_appVerbOf]

/-- The entry that a REFLEX_PUT record gives (R169, R212). -/
structure ReflexRead (r : Record) (k : ReflexId) (e : ReflexEntry) : Prop where
  index : r[12].toNat = k.val
  matchLine : lineOf r[13] = some e.matchLine
  matchSource : sourceOf r[14] = some e.matchSource
  matchKind : e.matchKind.toNat = r[15].toNat
  matchArg : e.matchArg = if r[16].getLsbD 0 = true then some r[17] else none
  actionLine : lineOf r[18] = some e.actionLine
  target : targetOf r[19] r[20] = some e.target
  verb : appVerbOf r[21] = some e.verb
  args : e.args = [r[23], r[24], r[25], r[26], r[27], r[28]].take r[22].toNat
  holdoff : e.holdoff = (join16 r[30] r[29]).toNat
  report : e.report = r[16].getLsbD 1
  armed : e.armed = true
  fireCount : e.fireCount = 0
  quietUntil : e.quietUntil = none

theorem decodeReflexPut_fields {r : Record} {k : ReflexId} {e : ReflexEntry}
    (h : decodeReflexPut r = some (k, e)) : ReflexRead r k e := by
  simp only [decodeReflexPut, Option.bind_eq_bind, Option.bind_eq_some_iff, within_eq_some,
    reflexIdOf_eq_some, Option.some.injEq, Prod.mk.injEq] at h
  obtain ⟨_, index, _, matchLine, _, source, _, ⟨⟨_, kind⟩, rfl⟩, _, actionLine, _, target, _, verb, _,
    ⟨_, rfl⟩, _, ⟨_, rfl⟩, rfl, rfl⟩ := h
  exact ⟨index, matchLine, source, Nat.mod_eq_of_lt (by omega), rfl, actionLine, target, verb, rfl,
    rfl, rfl, rfl, rfl, rfl⟩

/-! ## The boot block -/

/-- Every field of the boot block is in its range (R197). -/
def BootInRange (b : Record) : Prop :=
  (join32 b[3] b[2] b[1] b[0]).toNat % 32 = 0 ∧
    (join16 b[5] b[4]).toNat ∈ [8, 16, 32, 64, 128, 256, 512, 1024] ∧
    (join32 b[11] b[10] b[9] b[8]).toNat % 32 = 0 ∧
    (join16 b[13] b[12]).toNat ∈ [8, 16, 32, 64, 128, 256, 512, 1024] ∧
    (join32 b[19] b[18] b[17] b[16]).toNat % 4 = 0 ∧
    1 ≤ b[14].toNat ∧ b[14].toNat ≤ 64

theorem decodeBoot_isSome (b : Record) : (decodeBoot b).isSome = true ↔ BootInRange b := by
  simp only [decodeBoot, BootInRange, Option.bind_eq_bind, isSome_bind_iff, aligned_eq_some,
    within_eq_some, sizeOf?_eq_some, Option.isSome_some, and_true, and_assoc, exists_and_left,
    exists_eq', exists_eq_left']

theorem decodeBoot_fields {b : Record} {w : WorkRing} {o : OutputRing}
    (h : decodeBoot b = some (w, o)) :
    w = { state := .active, base := join32 b[3] b[2] b[1] b[0],
          size := (join16 b[5] b[4]).toNat, line := .a, cls := .normal, bound := 0,
          credit := 1, posted := 0, fetched := 0 } ∧
      o = { state := .active, base := join32 b[11] b[10] b[9] b[8],
            size := (join16 b[13] b[12]).toNat,
            progress := join32 b[19] b[18] b[17] b[16], threshold := b[14].toNat,
            holdoff := b[15].toNat, written := 0, consumed := 0, signalled := false,
            timer := none, access := .idle } := by
  simp only [decodeBoot, Option.bind_eq_bind, Option.bind_eq_some_iff, aligned_eq_some,
    within_eq_some, sizeOf?_eq_some, Option.some.injEq, Prod.mk.injEq] at h
  obtain ⟨_, ⟨_, rfl⟩, _, ⟨_, rfl⟩, _, ⟨_, rfl⟩, _, ⟨_, rfl⟩, _, ⟨_, rfl⟩, _, ⟨_, rfl⟩, rfl, rfl⟩ := h
  exact ⟨rfl, rfl⟩

/-! ## Work records -/

/-- The times of a work record agree (R67). -/
def Timed (r : Record) : Prop :=
  (join16 r[11] r[10]).toNat = 0 ∨ (join16 r[9] r[8]).toNat < (join16 r[11] r[10]).toNat

/-- The retry override of a work record is in its range (R67). -/
def Retried (r : Record) : Prop := r[2] = 0xFF ∨ r[2].toNat ≤ 7

theorem exists_retryOf {b : Byte} : (∃ o, retryOf b = some o) ↔ b = 0xFF ∨ b.toNat ≤ 7 := by
  unfold retryOf
  split
  · next whole => simp [whole]
  · next other =>
    simp only [Option.map_eq_some_iff, within_eq_some, other, false_or]
    simp

theorem retryOf_eq_some {b : Byte} {o : Option Nat} (h : retryOf b = some o) :
    o = if b = 0xFF then none else some b.toNat := by
  unfold retryOf at h
  split at h
  · next whole => rw [if_pos whole, Option.some.inj h]
  · next other =>
    obtain ⟨n, range, rfl⟩ := Option.map_eq_some_iff.mp h
    rw [if_neg other, (within_eq_some.mp range).2]

theorem decodeWork_isSome {k : WorkKind} (hk : k ≠ .unknown) (r : Record) :
    (decodeWork k r).isSome = true ↔
      Timed r ∧ (k ≠ .discover → Retried r) ∧ (decodeKind k r).isSome = true := by
  have retry : (∃ o, decodeRetry k r = some o) ↔ (k ≠ .discover → Retried r) := by
    cases k <;> simp [decodeRetry, exists_retryOf, Retried]
  simp only [decodeWork, Option.bind_eq_bind, isSome_bind_iff, check_eq_some, Option.isSome_some,
    and_true, exists_and_left, exists_and_right, exists_const, decide_eq_true_eq, retry]
  rw [Option.isSome_iff_exists]
  unfold Timed recordExpire recordDefer
  tauto

theorem decodeWork_fields {k : WorkKind} {r : Record} {retry : Option Nat} {work : Work}
    (h : decodeWork k r = some (retry, work)) :
    decodeRetry k r = some retry ∧ decodeKind k r = some work := by
  simp only [decodeWork, Option.bind_eq_bind, Option.bind_eq_some_iff, Option.some.injEq,
    Prod.mk.injEq] at h
  obtain ⟨_, _, _, override, _, _, _, kind, rfl, rfl⟩ := h
  exact ⟨override, kind⟩

theorem targetOf_isNode {kind number : Byte} {t : Target} (h : targetOf kind number = some t) :
    (t.isNode = true ↔ kind = 0) ∧ (t = .all ↔ kind = 2) := by
  unfold targetOf at h
  split_ifs at h with h0 h1 h2
  · obtain ⟨a, number, rfl⟩ := Option.map_eq_some_iff.mp h
    simp [h0, Target.isNode]
  · obtain ⟨z, number, rfl⟩ := Option.map_eq_some_iff.mp h
    simp [h1, Target.isNode]
  · cases h
    simp [h2, Target.isNode]

/-- The reply mode of a CALL record (R68). -/
def modeOf (r : Record) (t : Target) : Option Bool :=
  if t.isNode then (if r[15] = 0 then some false else if r[15] = 1 then some true else none)
  else some false

/-- The verb of a CALL record (R68). -/
def verbOf (r : Record) (t : Target) (mode : Bool) (count : Nat) : Option (BitVec 6) :=
  if r[14] = 0 then (if t.isNode ∧ mode ∧ count = 0 then some verbPing else none)
  else if r[14] = 2 then
    (if (t.isNode ∧ mode ∨ t = .all) ∧ count = 0 then some verbUnassign else none)
  else appVerbOf r[14]

theorem decodeCall_eq (r : Record) : decodeCall r =
    (targetOf r[12] r[13]).bind fun target => (modeOf r target).bind fun mode =>
      (within 0 6 r[16].toNat).bind fun count => (verbOf r target mode count).bind fun verb =>
        some (.call
          { target := target, verb := verb, reply := mode,
            args := [r[17], r[18], r[19], r[20], r[21], r[22]].take count, busyLimit := 0,
            busyRounds := 0, lastReply := none, allGarbled := false, noticePending := false,
            data := [] }) := by
  refine congrArg (Option.bind _) (funext fun t => ?_)
  unfold modeOf verbOf
  dsimp only
  split_ifs <;> simp_all

theorem modeOf_eq_some {r : Record} {t : Target} {m : Bool} : modeOf r t = some m ↔
    (t.isNode = true → r[15].toNat ≤ 1) ∧ (m = true ↔ t.isNode = true ∧ r[15] = 1) := by
  unfold modeOf
  split_ifs with node zero one
  · rw [zero]
    cases m <;> simp [node]
  · rw [one]
    cases m <;> simp [node]
  · have : ¬r[15].toNat ≤ 1 := by bv_omega
    simp [node, this]
  · cases m <;> simp [node]

theorem verbOf_eq_some {r : Record} {t : Target} {m : Bool} {count : Nat} {v : BitVec 6}
    (h : verbOf r t m count = some v) : v.toNat = r[14].toNat := by
  unfold verbOf at h
  split_ifs at h with zero _ two _
  · cases h
    rw [zero]
    rfl
  · cases h
    rw [two]
    rfl
  · exact appVerbOf_eq_some h

theorem exists_verbOf {r : Record} {t : Target} {m : Bool} {count : Nat} :
    (∃ v, verbOf r t m count = some v) ↔
      (16 ≤ r[14].toNat ∧ r[14].toNat ≤ 63) ∨
      (r[14] = 0 ∧ count = 0 ∧ t.isNode = true ∧ m = true) ∨
      (r[14] = 2 ∧ count = 0 ∧ (t.isNode = true ∧ m = true ∨ t = .all)) := by
  unfold verbOf
  split_ifs with zero ping two unassign
  · simp [zero, ping]
  · simp only [zero, exists_false, false_iff]
    rintro (range | named | two)
    · exact absurd range.1 (by decide)
    · tauto
    · exact absurd two.1 (by decide)
  · simp [two, unassign.1, unassign.2]
  · simp only [two, exists_false, false_iff]
    rintro (range | named | two)
    · exact absurd range.1 (by decide)
    · exact absurd named.1 (by decide)
    · tauto
  · simp only [exists_appVerbOf, zero, two, false_and, or_false]

theorem decodeCall_isSome (r : Record) : (decodeCall r).isSome = true ↔ r[16].toNat ≤ 6 ∧
    ((r[12] = 0 ∧ 1 ≤ r[13].toNat ∧ r[13].toNat ≤ 80 ∧ r[15].toNat ≤ 1) ∨
      (r[12] = 1 ∧ 1 ≤ r[13].toNat ∧ r[13].toNat ≤ 12) ∨ r[12] = 2) ∧
    ((16 ≤ r[14].toNat ∧ r[14].toNat ≤ 63) ∨
      (r[14] = 0 ∧ r[16] = 0 ∧ r[12] = 0 ∧ r[15] = 1) ∨
      (r[14] = 2 ∧ r[16] = 0 ∧ ((r[12] = 0 ∧ r[15] = 1) ∨ r[12] = 2))) := by
  have none : r[16].toNat = 0 ↔ r[16] = 0 :=
    ⟨fun h => BitVec.eq_of_toNat_eq h, fun h => by rw [h]; rfl⟩
  simp only [decodeCall_eq, isSome_bind_iff, within_eq_some, Nat.zero_le, true_and,
    Option.isSome_some, and_true, and_assoc, exists_and_left, exists_eq_left', exists_verbOf, none,
    modeOf_eq_some]
  constructor
  · rintro ⟨t, target, reply, m, mode, count, verb⟩
    obtain ⟨node, all⟩ := targetOf_isNode target
    have range := exists_targetOf.mp ⟨t, target⟩
    simp only [node, all, mode, and_self_left] at reply verb
    exact ⟨count, range.imp_left fun h => ⟨h.1, h.2.1, h.2.2, reply h.1⟩, verb⟩
  · rintro ⟨count, range, verb⟩
    have exists_target := exists_targetOf.mpr (range.imp (fun h => ⟨h.1, h.2.1, h.2.2.1⟩) id)
    obtain ⟨t, target⟩ := exists_target
    obtain ⟨node, all⟩ := targetOf_isNode target
    refine ⟨t, target, fun isNode => ?_, decide (r[12] = 0 ∧ r[15] = 1), ?_, count, ?_⟩
    · have zero := node.mp isNode
      rcases range with h | h | h
      · exact h.2.2.2
      · exact absurd (zero.symm.trans h.1) (by decide)
      · exact absurd (zero.symm.trans h) (by decide)
    · rw [decide_eq_true_iff, node]
    · simpa only [node, all, decide_eq_true_eq, and_self_left] using verb

theorem decodeCall_fields {r : Record} {work : Work} (h : decodeCall r = some work) :
    ∃ w, work = .call w ∧ w.verb.toNat = r[14].toNat ∧
      (w.reply = true ↔ r[12] = 0 ∧ r[15] = 1) ∧
      w.args = [r[17], r[18], r[19], r[20], r[21], r[22]].take r[16].toNat ∧
      (r[12] = 0 → ∃ a : Addr, w.target = .node a ∧ r[13].toNat = a.val + 1) ∧
      (r[12] = 1 → ∃ z : Zone, w.target = .zone z ∧ r[13].toNat = z.val + 1) ∧
      (r[12] = 2 → w.target = .all) ∧
      w.busyLimit = 0 ∧ w.busyRounds = 0 ∧ w.lastReply = none ∧ w.allGarbled = false ∧
      w.noticePending = false ∧ w.data = [] := by
  simp only [decodeCall_eq, Option.bind_eq_some_iff, within_eq_some, Option.some.injEq] at h
  obtain ⟨t, target, m, mode, _, ⟨_, rfl⟩, v, verb, rfl⟩ := h
  obtain ⟨node, zone, all⟩ := targetOf_eq_some target
  refine ⟨_, rfl, verbOf_eq_some verb, ?_, rfl, node, zone, all, rfl, rfl, rfl, rfl, rfl, rfl⟩
  rw [(modeOf_eq_some.mp mode).2, (targetOf_isNode target).1]

theorem decodeSweep_isSome (r : Record) : (decodeSweep r).isSome = true ↔ r[12].toNat ≤ 1 := by
  unfold decodeSweep
  split_ifs with zero one
  · simp [zero]
  · simp [one]
  · simp only [Option.isSome_none, Bool.false_eq_true, false_iff]
    bv_omega

theorem decodeSweep_fields {r : Record} {work : Work} (h : decodeSweep r = some work) :
    work = .sweep { all := r[12] == 1, marks := [], step := none } := by
  unfold decodeSweep at h
  split_ifs at h with zero one <;> cases h
  · rw [zero]
    rfl
  · rw [one]
    rfl

/-- The budget of a PARAM_WRITE record (R68). -/
def budgetOf (n : Nat) : Option Nat := if n = 0 then some 0 else within 10 250 n

theorem budgetOf_eq_some {n m : Nat} : budgetOf n = some m ↔ (n = 0 ∨ 10 ≤ n ∧ n ≤ 250) ∧ n = m := by
  unfold budgetOf
  split
  · next zero => simp [zero]
  · next other => simp [within_eq_some, other]

theorem decodeParam_eq (r : Record) : decodeParam r =
    (addrOf r[12]).bind fun addr => (within 1 8 r[14].toNat).bind fun length =>
      (check (r[13] ≠ 0 ∨ (length = 2 ∧ r[18] &&& 0xF0 = 0))).bind fun _ =>
        (budgetOf (join16 r[17] r[16]).toNat).bind fun budget =>
          (within 1 3 r[15].toNat).bind fun attempts => some (.param
            { addr := addr, index := r[13], length := length
              data := [r[18], r[19], r[20], r[21], r[22], r[23], r[24], r[25]].take length
              budget := budget, attempts := attempts
              digest := commitDigest r[13] length
                ([r[18], r[19], r[20], r[21], r[22], r[23], r[24], r[25]].take length)
              phase := none, attempt := 1, unverified := false, finalFlag := false, polls := 0,
              lastReply := none, readback := none, firstGrant := none, preludeUsed := false,
              preludeBusy := false, accepted := false, verified := false, mismatch := false,
              budgetPassed := false, outcome := .none, replyData := [] }) := by
  unfold decodeParam budgetOf
  dsimp only
  split_ifs <;> rfl

theorem decodeParam_isSome (r : Record) : (decodeParam r).isSome = true ↔
    1 ≤ r[12].toNat ∧ r[12].toNat ≤ 80 ∧ 1 ≤ r[14].toNat ∧ r[14].toNat ≤ 8 ∧
    1 ≤ r[15].toNat ∧ r[15].toNat ≤ 3 ∧
    ((join16 r[17] r[16]).toNat = 0 ∨
      (10 ≤ (join16 r[17] r[16]).toNat ∧ (join16 r[17] r[16]).toNat ≤ 250)) ∧
    (r[13] = 0 → r[14] = 2 ∧ r[18] &&& 0xF0 = 0) := by
  have two : r[14].toNat = 2 ↔ r[14] = 2 :=
    ⟨fun h => BitVec.eq_of_toNat_eq h, fun h => by rw [h]; rfl⟩
  simp only [decodeParam_eq, isSome_bind_iff, within_eq_some, check_eq_some, budgetOf_eq_some,
    Option.isSome_some, and_true, and_assoc, exists_and_left, exists_eq', exists_eq_left',
    exists_and_right, exists_const, exists_addrOf, decide_eq_true_eq, two, ne_eq,
    ← imp_iff_not_or]
  tauto

theorem decodeParam_fields {r : Record} {work : Work} (h : decodeParam r = some work) :
    ∃ (a : Addr) (data : List Byte), r[12].toNat = a.val + 1 ∧
      data = [r[18], r[19], r[20], r[21], r[22], r[23], r[24], r[25]].take r[14].toNat ∧
      work = .param
        { addr := a, index := r[13], length := r[14].toNat, data := data,
          budget := (join16 r[17] r[16]).toNat, attempts := r[15].toNat,
          digest := commitDigest r[13] r[14].toNat data, phase := none, attempt := 1,
          unverified := false, finalFlag := false, polls := 0, lastReply := none,
          readback := none, firstGrant := none, preludeUsed := false, preludeBusy := false,
          accepted := false, verified := false, mismatch := false, budgetPassed := false,
          outcome := .none, replyData := [] } := by
  simp only [decodeParam_eq, Option.bind_eq_some_iff, within_eq_some, budgetOf_eq_some,
    addrOf_eq_some_iff, Option.some.injEq] at h
  obtain ⟨a, number, _, ⟨_, rfl⟩, _, _, _, ⟨_, rfl⟩, _, ⟨_, rfl⟩, rfl⟩ := h
  exact ⟨a, _, number, rfl, rfl⟩

theorem decodeDiscover_isSome (r : Record) : (decodeDiscover r).isSome = true ↔
    r[12].toNat ∈ [8, 16, 32] ∧ 1 ≤ r[13].toNat ∧ r[13].toNat ≤ 64 ∧
    1 ≤ r[14].toNat ∧ r[14].toNat ≤ r[15].toNat ∧ r[15].toNat ≤ 80 := by
  simp only [decodeDiscover, Option.bind_eq_bind, isSome_bind_iff, within_eq_some, check_eq_some,
    Option.isSome_some, and_true, and_assoc, exists_and_left, exists_eq_left',
    exists_const, decide_eq_true_eq, addrOf_eq_some_iff, List.mem_cons, List.not_mem_nil, or_false]
  refine and_congr_right fun _ => and_congr_right fun _ => and_congr_right fun _ => ⟨?_, ?_⟩
  · rintro ⟨a, first, b, last, order⟩
    have := b.isLt
    omega
  · rintro ⟨low, order, high⟩
    exact ⟨⟨r[14].toNat - 1, by omega⟩, by dsimp only; omega, ⟨r[15].toNat - 1, by omega⟩,
      by dsimp only; omega, by dsimp only; omega⟩

theorem decodeDiscover_fields {r : Record} {work : Work} (h : decodeDiscover r = some work) :
    ∃ a b : Addr, r[14].toNat = a.val + 1 ∧ r[15].toNat = b.val + 1 ∧
      work = .discover
        { positions := r[12].toNat, roundLimit := r[13].toNat, poolFirst := a, poolLast := b,
          phase := .roll, rounds := 0, seed := none, nextPosition := 0, clean := [],
          roundCollided := 0, avoid := [], current := none, candidate := none, assigned := 0,
          lost := 0, cleanTotal := 0, collidedTotal := 0, endReason := .none } := by
  simp only [decodeDiscover, Option.bind_eq_bind, Option.bind_eq_some_iff, within_eq_some,
    addrOf_eq_some_iff, Option.some.injEq] at h
  obtain ⟨_, _, _, ⟨_, rfl⟩, a, first, b, last, _, _, rfl⟩ := h
  exact ⟨a, b, first, last, rfl⟩

/-- Settles O15: the checks of R67 for every kind, then each kind's own readers. -/
theorem workRecordsAreChecked : Obligations.WorkRecordsAreChecked := by
  rintro r _ _ rfl rfl
  refine ⟨?_, ?_, ?_, ?_, rfl, fun k retry work h => ?_⟩
  · rw [decodeWork_isSome (by decide), decodeKind, decodeCall_isSome]
    simp only [ne_eq, reduceCtorEq, not_false_eq_true, forall_const, Timed, Retried]
  · rw [decodeWork_isSome (by decide), decodeKind, decodeSweep_isSome]
    simp only [ne_eq, reduceCtorEq, not_false_eq_true, forall_const, Timed, Retried]
  · rw [decodeWork_isSome (by decide), decodeKind, decodeParam_isSome]
    simp only [ne_eq, reduceCtorEq, not_false_eq_true, forall_const, Timed, Retried]
  · rw [decodeWork_isSome (by decide), decodeKind, decodeDiscover_isSome]
    simp only [ne_eq, not_true_eq_false, false_implies, true_and, Timed]
  · obtain ⟨override, kind⟩ := decodeWork_fields h
    refine ⟨fun hk => retryOf_eq_some ?_, ?_, ?_, ?_, ?_⟩
    · cases k with
      | discover => exact absurd rfl hk
      | call | sweep | param | unknown => exact override
    · rintro rfl
      exact decodeCall_fields kind
    · rintro rfl
      exact decodeSweep_fields kind
    · rintro rfl
      exact decodeParam_fields kind
    · rintro rfl
      exact decodeDiscover_fields kind

end Sys2Proof.Decoding

/-! The requests of the admin unit: bad records, the opening and closing of the rings, LINE_ENABLE, and
the requests on the reflex and node tables with the ends of their image writes. -/

namespace Sys2Proof.Requests

open Sys2Proof Sys2Proof.Machine Sys2Proof.Safety Sys2Proof.Laws Sys2Proof.NodeTable
  Sys2Proof.Invariants Sys2Proof.Decoding

/-! ## Requests in general -/

section
variable {α : Type} {s : State} {r : Record} {c : Instr} {fields : Option α}
  {run : α → State → State}

/-- A request whose record fails its checks is refused (R203). -/
theorem request_badRecord (h : AdminReady s)
    (arm : exec c s = .next (takeAdmin r (checked fields run) s)) (bad : fields = none) :
    ∃ t, exec c s = .next t ∧
      Serviced (answered r[0] (recordTag r) .badRecord [] (requestTaken r s)) t := by
  refine ⟨_, arm, ?_⟩
  rw [takeAdmin_ready h, bad, checked, adminAnswer_requestTaken h rfl rfl]
  exact serviceRings_serviced _

/-- A request whose record passes runs on the state that has taken it. -/
theorem request_runs (h : AdminReady s)
    (arm : exec c s = .next (takeAdmin r (checked fields run) s)) {x : α} (good : fields = some x) :
    exec c s = .next (serviceRings (run x (requestTaken r s))) := by
  rw [arm, takeAdmin_ready h, good, checked]

/-- A request that is answered at once over a state that keeps the results. -/
theorem request_answered (h : AdminReady s)
    (arm : exec c s = .next (takeAdmin r (checked fields run) s)) {x : α} (good : fields = some x)
    {m : State} {st : Status} {d : List Byte} (answer : run x (requestTaken r s) = adminAnswer st d m)
    (admin : m.admin = (requestTaken r s).admin) (active : (m.resultRing 0).out.state = .active) :
    ∃ t, exec c s = .next t ∧ Serviced (answered r[0] (recordTag r) st d m) t := by
  refine ⟨_, request_runs h arm good, ?_⟩
  rw [answer, adminAnswer_active (a := ⟨r[0], recordTag r, .answered⟩) admin active]
  exact serviceRings_serviced _

end

theorem lineRingOf_none {b : Byte} (h : b = 0 ∨ 8 ≤ b.toNat) : lineRingOf b = none := by
  refine dif_neg ?_
  rcases h with rfl | h
  · decide
  · omega

theorem openResultRingOf_none {b : Byte} (h : b = 0 ∨ 4 ≤ b.toNat) : openResultRingOf b = none := by
  unfold openResultRingOf
  rcases h with rfl | h
  · rfl
  · split
    · rfl
    · exact dif_neg (by omega)

theorem lineOf_none {b : Byte} (h : 2 ≤ b.toNat) : lineOf b = none := by
  rw [Option.eq_none_iff_forall_ne_some]
  intro l hl
  have := exists_lineOf.mp ⟨l, hl⟩
  omega

theorem reflexIdOf_none {b : Byte} (h : 32 ≤ b.toNat) : reflexIdOf b = none := dif_neg (by omega)

theorem openResult_badRecord {s : State} {r : Record} (h : AdminReady s)
    (bad : decodeOpenOut r = none) : ∃ t, exec (.openResultRing r) s = .next t ∧
      Serviced (answered r[0] (recordTag r) .badRecord [] (requestTaken r s)) t := by
  cases ring : openResultRingOf r[12] with
  | none => exact request_badRecord h rfl ring
  | some q =>
    refine request_answered h rfl ring (m := requestTaken r s) ?_ rfl h.ring
    rw [bad, checked]

/-- Settles O18: every request reads its record before it acts. -/
theorem badAdminRecordsChangeNothing : Obligations.BadAdminRecordsChangeNothing := by
  intro r c s h bad
  rcases bad with ⟨rfl, bad⟩ | ⟨rfl, bad⟩ | ⟨rfl, bad⟩ | ⟨rfl, bad⟩ | ⟨rfl, bad⟩ | ⟨rfl, bad⟩ |
    ⟨line, bad⟩ | ⟨rfl, bad⟩ | ⟨rfl, bad⟩ | ⟨rfl, bad⟩ | ⟨rfl, bad⟩ | ⟨rfl, bad⟩ | ⟨rfl, bad⟩ | rfl
  · exact request_badRecord h rfl bad
  · exact request_badRecord h rfl (lineRingOf_none bad)
  · rcases bad with zero | four | bad
    · exact request_badRecord h rfl (openResultRingOf_none (.inl zero))
    · exact request_badRecord h rfl (openResultRingOf_none (.inr four))
    · exact openResult_badRecord h bad
  · exact request_badRecord h rfl (openResultRingOf_none bad)
  · exact request_badRecord h rfl bad
  · exact request_badRecord h rfl bad
  · rcases line with rfl | rfl | rfl
    · exact request_badRecord h rfl (lineOf_none bad)
    · exact request_badRecord h rfl (lineOf_none bad)
    · exact request_badRecord h rfl (lineOf_none bad)
  · exact request_badRecord h rfl bad
  · exact request_badRecord h rfl (reflexIdOf_none bad)
  · exact request_badRecord h rfl bad
  · exact request_badRecord h rfl bad
  · exact request_badRecord h rfl bad
  · exact request_badRecord h rfl bad
  · refine ⟨_, rfl, ?_⟩
    rw [takeAdmin_ready h, adminAnswer_requestTaken h rfl rfl]
    exact serviceRings_serviced _

/-! ## Opening the rings -/

/-- No CLOSE waits for a ring in a state whose request is in another phase. -/
theorem closeDetail_none {s : State} {a : AdminRequest} (admin : s.admin = some a)
    (work : ∀ r, a.phase ≠ .closingWork r) (result : ∀ q, a.phase ≠ .closingResult q)
    (notice : a.phase ≠ .closingNotice) : closeDetail s = none := by
  unfold closeDetail
  rw [admin]
  dsimp only
  cases h : a.phase with
  | closingWork r => exact absurd h (work r)
  | closingResult q => exact absurd h (result q)
  | closingNotice => exact absurd h notice
  | settingLine | cutting | readingNodes | readingReflex | answered => rfl

theorem adminWaits_iff {s : State} {p : AdminPhase} :
    s.adminWaits p = true ↔ ∃ a, s.admin = some a ∧ a.phase = p := by
  unfold State.adminWaits
  cases s.admin <;> simp

theorem adminWaits_some {s : State} {a : AdminRequest} (admin : s.admin = some a) (p : AdminPhase) :
    s.adminWaits p = (a.phase == p) := by
  unfold State.adminWaits
  rw [admin]

theorem resultCloses_of_phase {s : State} {a : AdminRequest} (admin : s.admin = some a)
    {q : ResultRingId} (other : a.phase ≠ .closingResult q) : s.resultCloses q = false := by
  unfold State.resultCloses
  rw [adminWaits_some admin, beq_eq_false_iff_ne.mpr other]
  simp

/-- Serving keeps the state of a result ring that no CLOSE waits for. -/
theorem serviced_out_state {s t : State} (h : Serviced s t) {q : ResultRingId}
    (still : s.resultCloses q = false) : (t.resultRing q).out.state = (s.resultRing q).out.state := by
  by_cases halted : s.device = .halted
  · rw [h.halted halted]
  · rw [h.out halted q, begun_state, still]
    rfl

theorem serviced_notice_state {s t : State} (h : Serviced s t)
    (still : s.noticeCloses = false) : t.notice.state = s.notice.state := by
  by_cases halted : s.device = .halted
  · rw [h.halted halted]
  · rw [h.notice halted, begun_state, still]
    rfl

theorem answered_resultCloses (code : Byte) (tag : Word) (st : Status) (d : List Byte) (m : State)
    (q : ResultRingId) : (answered code tag st d m).resultCloses q = false :=
  resultCloses_of_phase rfl (by simp)

theorem answered_noticeCloses (code : Byte) (tag : Word) (st : Status) (d : List Byte) (m : State) :
    (answered code tag st d m).noticeCloses = false := by
  unfold State.noticeCloses
  rw [adminWaits_some rfl]
  rfl

theorem answered_out (code : Byte) (tag : Word) (st : Status) (d : List Byte) (m : State)
    (q : ResultRingId) : ((answered code tag st d m).resultRing q).out = (m.resultRing q).out := by
  unfold answered
  show ((m.setResultRing 0 _).resultRing q).out = _
  rcases eq_or_ne q 0 with rfl | hq
  · rw [resultRing_setResultRing_self]
  · rw [resultRing_setResultRing_ne _ _ hq]

theorem answered_otherRing (code : Byte) (tag : Word) (st : Status) (d : List Byte) (m : State)
    {q : ResultRingId} (hq : q ≠ 0) :
    (answered code tag st d m).resultRing q = m.resultRing q :=
  resultRing_setResultRing_ne m _ hq

/-- A work ring as its open leaves it: HELD on an unusable line. -/
def openedWork (w : WorkRing) (usable : Bool) : WorkRing :=
  { w with state := if usable = true then .active else .held }

theorem openWork_eq {r : Record} {s : State} {k : WorkRingId} {w : WorkRing} (zero : k ≠ 0)
    (closed : (s.workRing k).state = .closed) (bound : (s.resultRing w.bound).out.state = .active) :
    openWork k w (requestTaken r s) = adminAnswer .ok []
      ((requestTaken r s).setWorkRing k (openedWork w (s.engine w.line).state.usable)) := by
  have other : ((requestTaken r s).workRing k).state = .closed := by
    rw [show (requestTaken r s).workRing k = s.workRing k from workRing_setWorkRing_ne s _ zero]
    exact closed
  have holds : holdCondition (requestTaken r s) w = !(s.engine w.line).state.usable := by
    unfold holdCondition
    rw [show ((requestTaken r s).resultRing w.bound).out.state = .active from bound,
      bne_self_eq_false, Bool.or_false]
    rfl
  unfold openWork
  rw [if_pos ⟨other, bound⟩, holds]
  cases (s.engine w.line).state.usable <;> rfl

/-- Serving keeps a ring that has just been opened, its result ring being ACTIVE. -/
theorem serviced_openedWork {m t : State} {k : WorkRingId} {w : WorkRing} (h : Serviced m t)
    (live : m.device ≠ .halted) (zero : k ≠ 0)
    (ring : m.workRing k = openedWork w (m.engine w.line).state.usable)
    (active : (t.resultRing w.bound).out.state = .active) : t.workRing k = m.workRing k := by
  rw [h.work live k zero, ring]
  unfold openedWork
  dsimp only
  cases (m.engine w.line).state.usable <;> simp [active]

theorem openWork_opens {r : Record} {s : State} {k : WorkRingId} {w : WorkRing} (h : AdminReady s)
    (fields : decodeOpenWork r = some (k, w)) (closed : (s.workRing k).state = .closed)
    (bound : (s.resultRing w.bound).out.state = .active) :
    ∃ t, exec (.openWorkRing r) s = .next t ∧
      Serviced (answered r[0] (recordTag r) .ok [] ((requestTaken r s).setWorkRing k
        (openedWork w (s.engine w.line).state.usable))) t ∧
      t.workRing k = openedWork w (s.engine w.line).state.usable := by
  have zero : k ≠ 0 := (lineRingOf_eq_some.mp (decodeOpenWork_fields fields).1).2
  have arm : exec (.openWorkRing r) s =
    .next (takeAdmin r (checked (decodeOpenWork r) fun p => openWork p.1 p.2) s) := rfl
  obtain ⟨t, run, serviced⟩ :=
    request_answered h arm fields (openWork_eq zero closed bound) rfl h.ring
  have ring := workRing_setWorkRing_self (requestTaken r s) k
    (openedWork w (s.engine w.line).state.usable)
  have active : (t.resultRing w.bound).out.state = .active := by
    rw [serviced_out_state serviced (answered_resultCloses _ _ _ _ _ _), answered_out]
    exact bound
  exact ⟨t, run, serviced, (serviced_openedWork serviced h.live zero ring active).trans ring⟩

theorem openWork_refused {r : Record} {s : State} {k : WorkRingId} {w : WorkRing} (h : AdminReady s)
    (fields : decodeOpenWork r = some (k, w))
    (bad : ¬((s.workRing k).state = .closed ∧ (s.resultRing w.bound).out.state = .active)) :
    ∃ t, exec (.openWorkRing r) s = .next t ∧
      Serviced (answered r[0] (recordTag r) .badState [] (requestTaken r s)) t := by
  have zero : k ≠ 0 := (lineRingOf_eq_some.mp (decodeOpenWork_fields fields).1).2
  refine request_answered h rfl fields (m := requestTaken r s) ?_ rfl h.ring
  refine if_neg ?_
  rw [show (requestTaken r s).workRing k = s.workRing k from workRing_setWorkRing_ne s _ zero]
  exact bad

theorem openResult_opens {r : Record} {s : State} {q : ResultRingId} {o : OutputRing}
    (h : AdminReady s) (zero : q ≠ 0) (ring : r[12].toNat = q.val) (fields : decodeOpenOut r = some o)
    (closed : (s.resultRing q).out.state = .closed) :
    ∃ t, exec (.openResultRing r) s = .next t ∧
      Serviced (answered r[0] (recordTag r) .ok (le16 (BitVec.ofNat 16 (s.resultRing q).lost))
        ((requestTaken r s).setResultRing q
          { s.resultRing q with
            out := { o with access := (s.resultRing q).out.access.madeStale }, lost := 0 })) t ∧
      (t.resultRing q).out.state = .active ∧ (t.resultRing q).lost = 0 := by
  obtain ⟨t, run, serviced⟩ := request_answered (c := .openResultRing r) h rfl
    (openResultRingOf_eq_some.mpr ⟨ring, zero⟩)
    (m := (requestTaken r s).setResultRing q { s.resultRing q with
      out := { o with access := (s.resultRing q).out.access.madeStale }, lost := 0 })
    (st := .ok) (d := le16 (BitVec.ofNat 16 (s.resultRing q).lost))
    (by rw [fields]; exact if_pos closed) rfl
    (by rw [resultRing_setResultRing_ne _ _ zero.symm]; exact h.ring)
  refine ⟨t, run, serviced, ?_, ?_⟩
  · rw [serviced_out_state serviced (answered_resultCloses _ _ _ _ _ _), answered_out,
      resultRing_setResultRing_self, decodeOpenOut_fields fields]
  · rw [(serviced.otherResults q zero).2, answered_otherRing _ _ _ _ _ zero,
      resultRing_setResultRing_self]

theorem openNotice_opens {r : Record} {s : State} {o : OutputRing} (h : AdminReady s)
    (fields : decodeOpenOut r = some o) (closed : s.notice.state = .closed) :
    ∃ t, exec (.openNoticeRing r) s = .next t ∧
      Serviced (answered r[0] (recordTag r) .ok [] { requestTaken r s with
        notice := { o with access := s.notice.access.madeStale } }) t ∧
      t.notice.state = .active := by
  obtain ⟨t, run, serviced⟩ := request_answered (c := .openNoticeRing r) h rfl fields
    (m := { requestTaken r s with notice := { o with access := s.notice.access.madeStale } })
    (if_pos closed) rfl h.ring
  refine ⟨t, run, serviced, ?_⟩
  rw [serviced_notice_state serviced (answered_noticeCloses _ _ _ _ _), decodeOpenOut_fields fields]
  rfl

/-! ## Closing the written rings -/

theorem mem_lineRings {k : WorkRingId} : k ∈ lineRings ↔ k ≠ 0 := by
  revert k
  decide

theorem boundOpen_iff {s : State} {q : ResultRingId} : boundOpen s q = true ↔
    ∃ k : WorkRingId, k ≠ 0 ∧ (s.workRing k).bound = q ∧ (s.workRing k).state ≠ .closed ∧
      (s.workRing k).state ≠ .faulted := by
  unfold boundOpen
  rw [List.any_eq_true]
  refine exists_congr fun k => and_congr mem_lineRings ?_
  rw [Bool.and_eq_true, beq_iff_eq]
  refine and_congr_right fun _ => ?_
  cases (s.workRing k).state <;> simp

theorem boundOpen_false {s : State} {q : ResultRingId} (h : ∀ k : WorkRingId, k ≠ 0 →
    (s.workRing k).bound = q → (s.workRing k).state = .closed ∨ (s.workRing k).state = .faulted) :
    boundOpen s q = false := by
  rw [Bool.eq_false_iff]
  intro opened
  obtain ⟨k, zero, bound, closed, faulted⟩ := boundOpen_iff.mp opened
  exact (h k zero bound).elim closed faulted

theorem requestTaken_workRing (r : Record) (s : State) {k : WorkRingId} (h : k ≠ 0) :
    (requestTaken r s).workRing k = s.workRing k := workRing_setWorkRing_ne s _ h

theorem requestTaken_boundOpen (r : Record) (s : State) (q : ResultRingId) :
    boundOpen (requestTaken r s) q = boundOpen s q := by
  rw [Bool.eq_iff_iff, boundOpen_iff, boundOpen_iff]
  refine exists_congr fun k => and_congr_right fun zero => ?_
  rw [requestTaken_workRing r s zero]

theorem begun_of_not_active {o : OutputRing} (h : o.state ≠ .active) (n : Option (List Byte)) :
    o.begun n = o := by
  unfold OutputRing.begun OutputRing.writable
  cases n with
  | none => rfl
  | some b => exact if_neg (by simp [h])

/-- The state in which the current request waits for a ring to close. -/
def closing (r : Record) (p : AdminPhase) (s : State) : State :=
  { requestTaken r s with admin := some { code := r[0], tag := recordTag r, phase := p } }

theorem closing_resultCloses {r : Record} {s : State} {q : ResultRingId} (zero : q ≠ 0)
    (ends : (s.resultRing q).out.state = .faulted ∨
      ((s.resultRing q).pending = [] ∧ (s.resultRing q).out.access = .idle)) :
    (closing r (.closingResult q) s).resultCloses q = true := by
  unfold State.resultCloses
  rw [adminWaits_some rfl]
  have ring : (closing r (.closingResult q) s).resultRing q = s.resultRing q := rfl
  rw [ring]
  rcases ends with h | ⟨h, k⟩
  · simp [zero, h]
  · simp [zero, h, k]

/-- A CLOSE whose ring may close is answered at once, on result ring 0. -/
theorem serviced_answer {s t : State} {code : Byte} {tag : Word} {p : AdminPhase} {d : List Byte}
    (h : Serviced s t) (live : s.device ≠ .halted) (admin : s.admin = some ⟨code, tag, p⟩)
    (detail : closeDetail s = some d) (active : (s.resultRing 0).out.state = .active) :
    t.admin = some ⟨code, tag, .answered⟩ ∧ (t.resultRing 0).pending = (s.resultRing 0).pending ++
      [{ sender := .admin, code := code, status := .ok, ring := 0, tag := tag, detail := d }] := by
  have answer := h.answer live _ d admin detail
  rw [if_pos active] at answer
  exact ⟨answer.1, answer.2.1⟩

theorem closeResult_ends {r : Record} {s : State} {q : ResultRingId} (h : AdminReady s) (zero : q ≠ 0)
    (ring : r[12].toNat = q.val)
    (waits : drainResult q (requestTaken r s) = closing r (.closingResult q) s)
    (ends : (s.resultRing q).out.state = .faulted ∨
      ((s.resultRing q).pending = [] ∧ (s.resultRing q).out.access = .idle)) :
    ∃ t, exec (.closeResultRing r) s = .next t ∧ Serviced (closing r (.closingResult q) s) t ∧
      (t.resultRing q).out.state = .closed ∧ (t.resultRing q).out.timer = none ∧
      t.admin = some { code := r[0], tag := recordTag r, phase := .answered } ∧
      (t.resultRing 0).pending = (s.resultRing 0).pending ++
        [{ sender := .admin, code := r[0], status := .ok, ring := 0, tag := recordTag r,
           detail := le16 (s.resultRing q).out.written ++
             le16 (BitVec.ofNat 16 (s.resultRing q).lost) }] := by
  have closes := closing_resultCloses (r := r) zero ends
  have serviced := serviceRings_serviced (closing r (.closingResult q) s)
  have out : ((serviceRings (closing r (.closingResult q) s)).resultRing q).out =
      (s.resultRing q).out.closed := by
    rw [serviced.out h.live q, if_pos closes]
    exact begun_of_not_active (by simp [OutputRing.closed]) _
  have run := request_runs (c := .closeResultRing r) h rfl
    (openResultRingOf_eq_some.mpr ⟨ring, zero⟩)
  rw [waits] at run
  refine ⟨_, run, serviced, by rw [out]; rfl, by rw [out]; rfl, ?_⟩
  refine serviced_answer (s := closing r (.closingResult q) s) serviced h.live rfl ?_ h.ring
  exact if_pos closes

theorem closeResult_waits {r : Record} {s : State} {q : ResultRingId} (h : AdminReady s)
    (zero : q ≠ 0) (ring : r[12].toNat = q.val)
    (waits : drainResult q (requestTaken r s) = closing r (.closingResult q) s)
    (active : (s.resultRing q).out.state = .active)
    (busy : (s.resultRing q).pending ≠ [] ∨ (s.resultRing q).out.access ≠ .idle) :
    ∃ t, exec (.closeResultRing r) s = .next t ∧ Serviced (closing r (.closingResult q) s) t ∧
      (t.resultRing q).out.state = .active ∧
      t.admin = some { code := r[0], tag := recordTag r, phase := .closingResult q } ∧
      (t.resultRing 0).pending = (s.resultRing 0).pending := by
  have still : (closing r (.closingResult q) s).resultCloses q = false := by
    unfold State.resultCloses
    rw [show (closing r (.closingResult q) s).resultRing q = s.resultRing q from rfl, active]
    rcases busy with h | h <;> simp [h]
  have serviced := serviceRings_serviced (closing r (.closingResult q) s)
  have run := request_runs (c := .closeResultRing r) h rfl
    (openResultRingOf_eq_some.mpr ⟨ring, zero⟩)
  rw [waits] at run
  have none : closeDetail (closing r (.closingResult q) s) = .none := if_neg (by simp [still])
  obtain ⟨admin, pending, _⟩ := serviced.admin h.live none
  exact ⟨_, run, serviced, (serviced_out_state serviced still).trans active, admin, pending⟩

/-- The state in which a CLOSE_NOTICE_RING is current: a FAULTED ring is CLOSED. -/
def closingNotice (r : Record) (s : State) : State :=
  { requestTaken r s with
    admin := some { code := r[0], tag := recordTag r, phase := .closingNotice }
    notice := if s.notice.state = .faulted then
      { s.notice with state := .closed, timer := none } else s.notice }

theorem drainNotice_opened {r : Record} {s : State} (opened : s.notice.state ≠ .closed) :
    drainNotice (requestTaken r s) = closingNotice r s := by
  unfold drainNotice closingNotice
  have notice : (requestTaken r s).notice = s.notice := rfl
  rw [notice]
  cases h : s.notice.state with
  | closed => exact absurd h opened
  | active => rfl
  | faulted => rfl

theorem closingNotice_access (r : Record) (s : State) :
    (closingNotice r s).notice.access = s.notice.access := by
  unfold closingNotice
  dsimp only
  split <;> rfl

theorem closeNotice_runs {r : Record} {s : State} (h : AdminReady s)
    (opened : s.notice.state ≠ .closed) :
    exec (.closeNoticeRing r) s = .next (serviceRings (closingNotice r s)) := by
  rw [← drainNotice_opened opened, ← takeAdmin_ready h]
  rfl

theorem closeNotice_ends {r : Record} {s : State} (h : AdminReady s)
    (opened : s.notice.state ≠ .closed) (idle : s.notice.access = .idle) :
    ∃ t, exec (.closeNoticeRing r) s = .next t ∧ Serviced (closingNotice r s) t ∧
      t.notice = { s.notice with state := .closed, timer := none } ∧
      t.admin = some { code := r[0], tag := recordTag r, phase := .answered } ∧
      (t.resultRing 0).pending = (s.resultRing 0).pending ++
        [{ sender := .admin, code := r[0], status := .ok, ring := 0, tag := recordTag r,
           detail := le16 s.notice.written }] := by
  have closes : (closingNotice r s).noticeCloses = true := by
    unfold State.noticeCloses
    rw [adminWaits_some rfl, closingNotice_access, idle]
    rfl
  have serviced := serviceRings_serviced (closingNotice r s)
  refine ⟨_, closeNotice_runs h opened, serviced, ?_,
    serviced_answer (s := closingNotice r s) serviced h.live rfl ?_ h.ring⟩
  · rw [serviced.notice h.live, if_pos closes, begun_of_not_active (by simp [OutputRing.closed])]
    unfold closingNotice OutputRing.closed
    dsimp only
    split <;> rfl
  · refine (if_pos closes).trans ?_
    unfold closingNotice
    dsimp only
    split <;> rfl

theorem closeNotice_waits {r : Record} {s : State} (h : AdminReady s)
    (opened : s.notice.state ≠ .closed) (busy : s.notice.access ≠ .idle) :
    ∃ t, exec (.closeNoticeRing r) s = .next t ∧ Serviced (closingNotice r s) t ∧
      t.notice = (if s.notice.state = .faulted then
        { s.notice with state := .closed, timer := none } else s.notice) ∧
      t.admin = some { code := r[0], tag := recordTag r, phase := .closingNotice } ∧
      (t.resultRing 0).pending = (s.resultRing 0).pending := by
  have access := closingNotice_access r s
  have still : (closingNotice r s).noticeCloses = false := by
    unfold State.noticeCloses
    rw [access]
    simp [busy]
  have serviced := serviceRings_serviced (closingNotice r s)
  have none : closeDetail (closingNotice r s) = .none := if_neg (by simp [still])
  obtain ⟨admin, pending, _⟩ := serviced.admin h.live none
  refine ⟨_, closeNotice_runs h opened, serviced, ?_, admin, pending⟩
  rw [serviced.notice h.live, still]
  refine Eq.trans ?_ (rfl : (closingNotice r s).notice = _)
  unfold OutputRing.begun OutputRing.writable
  cases (closingNotice r s).buffer.head?.map noticeBytes with
  | none => rfl
  | some b => exact if_neg (by simp [access, busy])

/-- Settles O20, ring by ring. -/
theorem ringsOpenAndClose : Obligations.RingsOpenAndClose := by
  refine ⟨fun r s k w h fields => ?_, fun r s q o h zero ring fields => ?_,
    fun r s o h fields => ?_, fun r s q h zero ring => ⟨fun closed => ?_, fun active opened => ?_,
      fun ends => ?_, fun active unbound busy => ?_⟩, fun r s h => ⟨fun closed => ?_,
      closeNotice_ends h, closeNotice_waits h⟩⟩
  · split
    · next good => exact openWork_opens h fields good.1 good.2
    · next bad => exact openWork_refused h fields bad
  · split
    · next closed => exact openResult_opens h zero ring fields closed
    · next opened =>
      refine request_answered h rfl (openResultRingOf_eq_some.mpr ⟨ring, zero⟩)
        (m := requestTaken r s) ?_ rfl h.ring
      rw [fields]
      exact if_neg opened
  · split
    · next closed => exact openNotice_opens h fields closed
    · next opened =>
      exact request_answered h rfl fields (m := requestTaken r s) (if_neg opened) rfl h.ring
  · refine request_answered h rfl (openResultRingOf_eq_some.mpr ⟨ring, zero⟩)
      (m := requestTaken r s) ?_ rfl h.ring
    unfold drainResult
    rw [show ((requestTaken r s).resultRing q).out.state = .closed from closed]
  · refine request_answered h rfl (openResultRingOf_eq_some.mpr ⟨ring, zero⟩)
      (m := requestTaken r s) ?_ rfl h.ring
    unfold drainResult
    rw [show ((requestTaken r s).resultRing q).out.state = .active from active]
    exact if_pos ((requestTaken_boundOpen r s q).trans (boundOpen_iff.mpr opened))
  · have waits : drainResult q (requestTaken r s) = closing r (.closingResult q) s := by
      unfold drainResult
      rcases ends with faulted | ⟨active, _, _, unbound⟩
      · rw [show ((requestTaken r s).resultRing q).out.state = .faulted from faulted]
        rfl
      · rw [show ((requestTaken r s).resultRing q).out.state = .active from active]
        exact if_neg (by simp [requestTaken_boundOpen, boundOpen_false unbound])
    exact closeResult_ends h zero ring waits (ends.imp id fun e => ⟨e.2.1, e.2.2.1⟩)
  · have waits : drainResult q (requestTaken r s) = closing r (.closingResult q) s := by
      unfold drainResult
      rw [show ((requestTaken r s).resultRing q).out.state = .active from active]
      exact if_neg (by simp [requestTaken_boundOpen, boundOpen_false unbound])
    exact closeResult_waits h zero ring waits active busy
  · refine ⟨_, rfl, ?_⟩
    rw [takeAdmin_ready h]
    have answer : drainNotice (requestTaken r s) = adminAnswer .badState [] (requestTaken r s) := by
      unfold drainNotice
      rw [show (requestTaken r s).notice.state = .closed from closed]
    rw [answer, adminAnswer_requestTaken h rfl rfl]
    exact serviceRings_serviced _

end Sys2Proof.Requests

/-! The requests that touch a line's state or the reflex and node tables, with the ends of their image
writes, and the end of the boot block read. -/

namespace Sys2Proof.Requests

open Sys2Proof Sys2Proof.Machine Sys2Proof.Safety Sys2Proof.Laws Sys2Proof.NodeTable
  Sys2Proof.Invariants Sys2Proof.Decoding Sys2Proof.Registers

/-! ## Boot -/

theorem bootRead_good {b : Record} {s : State} {w : WorkRing} {o : OutputRing}
    (starting : s.device = .starting) (read : s.bootRead.isSome = true)
    (fields : decodeBoot b = some (w, o)) : bootRead b s = enterRunning w o s := by
  unfold bootRead
  rw [if_pos ⟨starting, read⟩, fields]

theorem bootRead_bad {b : Record} {s : State} (starting : s.device = .starting)
    (read : s.bootRead.isSome = true) (bad : decodeBoot b = none) :
    bootRead b s = haltDevice .bootInvalid s := by
  unfold bootRead
  rw [if_pos ⟨starting, read⟩, bad]

/-- Result ring 0 stays in its state while the rings are served. -/
theorem serviced_result0_state {s t : State} (h : Serviced s t) :
    (t.resultRing 0).out.state = (s.resultRing 0).out.state :=
  serviced_out_state h rfl

/-- The state in which RUNNING begins (R198). -/
def booted (w : WorkRing) (o : OutputRing) (s : State) : State :=
  { (s.setWorkRing 0 w).setResultRing 0 { out := o, lost := 0, pending := [] } with
    device := .running, bootRead := none }

theorem enterRunning_serviced (w : WorkRing) (o : OutputRing) (s : State) :
    Serviced (booted w o s) (enterRunning w o s) := serviceRings_serviced _

theorem enterRunning_device (w : WorkRing) (o : OutputRing) (s : State) :
    (enterRunning w o s).device = .running := (enterRunning_serviced w o s).device

theorem enterRunning_rings (w : WorkRing) (o : OutputRing) (s : State) :
    (enterRunning w o s).workRing 0 = w ∧
      ((enterRunning w o s).resultRing 0).out.state = o.state := by
  refine ⟨(enterRunning_serviced w o s).work0.trans (workRing_setWorkRing_self s 0 w),
    (serviced_result0_state (enterRunning_serviced w o s)).trans ?_⟩
  exact congrArg (fun x : ResultRing => x.out.state)
    (resultRing_setResultRing_self (s.setWorkRing 0 w) 0 _)

/-- Settles O13. -/
theorem bootBlockOpensTheRingsOrHalts : Obligations.BootBlockOpensTheRingsOrHalts := by
  refine ⟨fun b s starting read => ?_, fun s starting read => ?_⟩
  · split
    · next good =>
      obtain ⟨⟨w, o⟩, fields⟩ := Option.isSome_iff_exists.mp ((decodeBoot_isSome b).mpr good)
      obtain ⟨work, result⟩ := enterRunning_rings w o s
      have serviced := enterRunning_serviced w o s
      have run := bootRead_good starting read fields
      obtain ⟨rfl, rfl⟩ := decodeBoot_fields fields
      exact ⟨_, congrArg Host.Outcome.next run, serviced, enterRunning_device _ _ s, by rw [work],
        result⟩
    · next bad =>
      have none : decodeBoot b = .none := by
        rw [← Option.not_isSome_iff_eq_none, decodeBoot_isSome]
        exact bad
      refine ⟨_, congrArg Host.Outcome.next (bootRead_bad starting read none), ?_⟩
      exact haltDevice_haltedBy _ _
  · refine ⟨_, congrArg Host.Outcome.next (if_pos ⟨starting, read⟩), ?_⟩
    exact haltDevice_haltedBy _ _

/-! ## LINE_ENABLE -/

/-- Over a state that keeps result ring 0, the answer joins the results that were there. -/
theorem answered_answered {s m : State} (same : m.resultRing 0 = s.resultRing 0) (code : Byte)
    (tag : Word) (st : Status) (d : List Byte) :
    Answered code tag st d s (answered code tag st d m) := by
  refine ⟨_, ?_, List.mem_singleton_self _⟩
  rw [← same]
  exact congrArg ResultRing.pending (resultRing_setResultRing_self m 0 _)

/-- A line as LINE_ENABLE leaves it (R23, R25). -/
def enabled (l : Line) (s : State) : State :=
  judgeRings (s.setEngine l { s.engine l with
    state := .restoring, origin := .off, lowTimer := 0
    debounce := if (s.engine l).sense then some (s.after 500) else none })

theorem enabled_fields (l : Line) (s : State) :
    (enabled l s).engine l = { s.engine l with
      state := .restoring, origin := .off, lowTimer := 0
      debounce := if (s.engine l).sense then some (s.after 500) else none } ∧
    (enabled l s).nodes = s.nodes ∧ (enabled l s).queues = s.queues ∧
    (enabled l s).slots = s.slots ∧ (enabled l s).resultRing 0 = s.resultRing 0 :=
  ⟨engine_setEngine_self s l _, rfl, rfl, rfl, rfl⟩

/-- Settles O25. -/
theorem lineEnableStartsTheRestoration : Obligations.LineEnableStartsTheRestoration := by
  intro r s l h code
  have fields : lineOf r[12] = some l := by
    rw [code]
    exact lineOf_code l
  have arm : exec (.lineEnable r) s =
    .next (takeAdmin r (checked (lineOf r[12]) enableLine) s) := rfl
  split
  · next off =>
    have run : enableLine l (requestTaken r s) =
        settleLine l (adminAnswer .ok [] (enabled l (requestTaken r s))) := if_pos off
    have worked : Worked (requestTaken r s) (enabled l (requestTaken r s)) :=
      worked_judgeRings (worked_setEngine (worked_refl _) _ _)
    have answer : adminAnswer .ok [] (enabled l (requestTaken r s)) =
        answered r[0] (recordTag r) .ok [] (enabled l (requestTaken r s)) :=
      adminAnswer_requestTaken (m := enabled l (requestTaken r s)) h rfl rfl _ _
    refine ⟨adminAnswer .ok [] (enabled l (requestTaken r s)), _,
      request_runs h arm fields, ?_, ?_, ?_⟩
    · exact worked_adminAnswer worked _ _
    · rw [run]
      exact afterLine_after l _
    · rw [answer]
      obtain ⟨engine, nodes, queues, slots, ring⟩ := enabled_fields l (requestTaken r s)
      exact ⟨engine, nodes, queues, fun i => congrArg (fun v => v[i]) slots,
        answered_answered ring _ _ _ _⟩
  · next other =>
    exact request_answered h arm fields (m := requestTaken r s) (if_neg other) rfl h.ring

/-! ## The reflex table -/

/-- Settles O27. -/
theorem reflexPutReplacesTheEntry : Obligations.ReflexPutReplacesTheEntry := by
  refine ⟨fun r => ⟨decodeReflexPut_isSome r, fun k e fields => ?_⟩, fun r s k e h fields => ?_⟩
  · have read := decodeReflexPut_fields fields
    obtain ⟨anySource, source⟩ := sourceOf_eq_some read.matchSource
    obtain ⟨node, zone, all⟩ := targetOf_eq_some read.target
    exact ⟨line_eq_a_iff read.matchLine, anySource, source, read.matchKind, read.matchArg, read.report,
      line_eq_a_iff read.actionLine, node, zone, all, appVerbOf_eq_some read.verb, read.args,
      read.holdoff⟩
  · have read := decodeReflexPut_fields fields
    obtain ⟨t, run, serviced⟩ := request_answered (c := .reflexPut r) h rfl fields
      (m := (requestTaken r s).setReflex k e) rfl rfl h.ring
    refine ⟨read.index.symm, read.armed, read.fireCount, read.quietUntil, t, run, serviced, ?_,
      serviced.queues⟩
    refine (congrArg (fun v => v[k]) serviced.reflexes).trans ?_
    exact reflex_setReflex_self (requestTaken r s) k e

/-- Settles O28. -/
theorem reflexDropEmptiesTheEntry : Obligations.ReflexDropEmptiesTheEntry := by
  refine fun r s h => ⟨fun range => request_badRecord h rfl (reflexIdOf_none range), fun k index => ?_⟩
  obtain ⟨t, run, serviced⟩ := request_answered (c := .reflexDrop r) h rfl
    (reflexIdOf_eq_some.mpr index.symm)
    (m := (requestTaken r s).setReflex k ReflexEntry.empty) rfl rfl h.ring
  have entry : t.reflex k = ReflexEntry.empty :=
    (congrArg (fun v => v[k]) serviced.reflexes).trans
      (reflex_setReflex_self (requestTaken r s) k _)
  exact ⟨t, run, serviced, by rw [entry]; rfl, by rw [entry]; rfl, by rw [entry]; rfl,
    serviced.queues⟩

/-! ## Images -/

theorem flags3_toNat (a b c : Bool) : (flagBit a 0 ||| flagBit b 1 ||| flagBit c 2).toNat =
    (if a = true then 1 else 0) + (if b = true then 2 else 0) + (if c = true then 4 else 0) := by
  cases a <;> cases b <;> cases c <;> rfl

theorem flags6_toNat (a b c d e f : Bool) :
    (flagBit a 0 ||| flagBit b 1 ||| flagBit c 2 ||| flagBit d 3 ||| flagBit e 4
      ||| flagBit f 5).toNat =
    (if a = true then 1 else 0) + (if b = true then 2 else 0) + (if c = true then 4 else 0) +
      (if d = true then 8 else 0) + (if e = true then 16 else 0) + (if f = true then 32 else 0) := by
  revert a b c d e f
  decide

theorem padTo_six {l : List Byte} (h : l.length ≤ 6) : padTo 6 l =
    [l.getD 0 0, l.getD 1 0, l.getD 2 0, l.getD 3 0, l.getD 4 0, l.getD 5 0] := by
  match l, h with
  | [], _ | [_], _ | [_, _], _ | [_, _, _], _ | [_, _, _, _], _ | [_, _, _, _, _], _
  | [_, _, _, _, _, _], _ => rfl

/-- R61: the image of a node entry, byte by byte. -/
theorem nodeImage_bytes (l : Line) (a : Addr) (e : NodeEntry) :
    nodeImage l a e =
      [byteOf (a.val + 1), lineByte l, formerByte e.state,
        flagBit e.identity.isSome 0 ||| flagBit e.kind.isSome 1 ||| flagBit e.zones.isSome 2
          ||| flagBit e.lastSeq.isSome 3 ||| flagBit e.lastHeard.isSome 4
          ||| flagBit e.lock.isSome 5,
        (e.identity.getD 0).extractLsb' 0 8, (e.identity.getD 0).extractLsb' 8 8,
        (e.identity.getD 0).extractLsb' 16 8, (e.identity.getD 0).extractLsb' 24 8,
        (e.identity.getD 0).extractLsb' 32 8, e.kind.getD 0,
        ((e.zones.getD 0).setWidth 16).extractLsb' 0 8,
        ((e.zones.getD 0).setWidth 16).extractLsb' 8 8,
        byteOf e.misses, byteOf e.garbles, (e.lastSeq.getD 0).setWidth 8,
        (match e.lock with | none => 0 | some i => byteOf i.val),
        (match e.store with | .clean => 0 | .unknown => 1), 0, 0, 0,
        (e.lastHeard.getD 0).extractLsb' 0 8, (e.lastHeard.getD 0).extractLsb' 8 8,
        (e.lastHeard.getD 0).extractLsb' 16 8, (e.lastHeard.getD 0).extractLsb' 24 8,
        0, 0, 0, 0, 0, 0, 0, 0] := rfl

/-- R171: the image of a reflex entry, byte by byte. -/
theorem reflexImage_bytes (k : ReflexId) (e : ReflexEntry) {kind number : Byte}
    (short : e.args.length ≤ 6) (target : actionTarget e.target = [kind, number]) :
    reflexImage k e =
      [byteOf k.val, (if e.armed = true then 1 else 0),
        flagBit e.matchArg.isSome 0 ||| flagBit e.report 1 ||| flagBit e.quietUntil.isSome 2,
        lineByte e.matchLine, (match e.matchSource with | none => 0 | some a => addrByte a),
        e.matchKind.setWidth 8, e.matchArg.getD 0, lineByte e.actionLine, kind, number,
        e.verb.setWidth 8, byteOf e.args.length, e.args.getD 0 0, e.args.getD 1 0, e.args.getD 2 0,
        e.args.getD 3 0, e.args.getD 4 0, e.args.getD 5 0,
        (BitVec.ofNat 16 e.holdoff).extractLsb' 0 8, (BitVec.ofNat 16 e.holdoff).extractLsb' 8 8,
        (BitVec.ofNat 16 e.fireCount).extractLsb' 0 8, (BitVec.ofNat 16 e.fireCount).extractLsb' 8 8,
        0, 0, (e.quietUntil.getD 0).extractLsb' 0 8, (e.quietUntil.getD 0).extractLsb' 8 8,
        (e.quietUntil.getD 0).extractLsb' 16 8, (e.quietUntil.getD 0).extractLsb' 24 8,
        0, 0, 0, 0] := by
  unfold reflexImage
  rw [target, padTo_six short]
  rfl

theorem actionTarget_eq {t : Target} {kind number : Byte}
    (h : (kind, number) = (match t with
      | .node a => (0, byteOf (a.val + 1))
      | .zone z => (1, byteOf (z.val + 1))
      | _ => (2, 0))) : actionTarget t = [kind, number] := by
  cases t <;> cases h <;> rfl

/-! ## The reads of the tables -/

theorem readReflex_waits {r : Record} {s : State} {k : ReflexId} {a : Word} (h : AdminReady s)
    (fields : decodeReflexRead r = some (k, a)) {m : State}
    (waiting : m = { requestTaken r s with
      admin := some { code := r[0], tag := recordTag r, phase := .readingReflex }
      imageWrite := some { addr := a, bytes := reflexImage k (s.reflex k) } }) :
    ∃ t, exec (.reflexRead r) s = .next t ∧ Serviced m t ∧ t.admin = m.admin ∧
      t.imageWrite = m.imageWrite := by
  have arm : exec (.reflexRead r) s =
    .next (takeAdmin r (checked (decodeReflexRead r) fun p => readReflex p.1 p.2) s) := rfl
  have run : readReflex k a (requestTaken r s) = m := waiting.symm
  have serviced := serviceRings_serviced m
  have none : closeDetail m = .none := by rw [waiting]; rfl
  have live : m.device ≠ .halted := by rw [waiting]; exact h.live
  exact ⟨_, (request_runs h arm fields).trans (by rw [run]), serviced, (serviced.admin live none).1,
    serviced.imageWrite⟩

theorem readNode_first (l : Line) (a : Addr) (n : Nat) (b : Word) (s : State) :
    readNode l a n 0 b s = { s.setPhase (.readingNodes l a n 0 b) with
      imageWrite := some { addr := b, bytes := nodeImage l a (s.entry l a) } } := by
  have first : addrAfter a 0 = a := Fin.ext (by have := a.isLt; simp [addrAfter]; omega)
  have base : b + BitVec.ofNat 32 (32 * 0) = b := BitVec.add_zero b
  unfold readNode
  rw [first, base]

theorem readNode_waits {r : Record} {s : State} {l : Line} {a : Addr} {n : Nat} {b : Word}
    (h : AdminReady s) (fields : decodeNodeRead r = some (l, a, n, b)) {m : State}
    (waiting : m = { requestTaken r s with
      admin := some { code := r[0], tag := recordTag r, phase := .readingNodes l a n 0 b }
      imageWrite := some { addr := b, bytes := nodeImage l a (s.entry l a) } }) :
    ∃ t, exec (.nodeRead r) s = .next t ∧ Serviced m t ∧ t.admin = m.admin ∧
      t.imageWrite = m.imageWrite := by
  have arm : exec (.nodeRead r) s = .next (takeAdmin r (checked (decodeNodeRead r) fun p =>
    readNode p.1 p.2.1 p.2.2.1 0 p.2.2.2) s) := rfl
  have run : readNode l a n 0 b (requestTaken r s) = m := by
    rw [readNode_first, waiting]
    rfl
  have serviced := serviceRings_serviced m
  have none : closeDetail m = .none := by rw [waiting]; rfl
  have live : m.device ≠ .halted := by rw [waiting]; exact h.live
  exact ⟨_, (request_runs h arm fields).trans (by rw [run]), serviced, (serviced.admin live none).1,
    serviced.imageWrite⟩

theorem lineByte_eq (l : Line) : lineByte l = match l with | .a => 0 | .b => 1 := by
  cases l <;> rfl

/-- Settles O29. -/
theorem tableReadsWriteTheirFirstImage : Obligations.TableReadsWriteTheirFirstImage := by
  refine ⟨fun r => ⟨decodeReflexRead_isSome r, decodeNodeRead_isSome r, decodeNodeClear_isSome r,
      fun l a h => decodeNodeClear_fields h⟩, fun r s k a h fields => ?_,
    fun r s l a n b h fields => ?_, ?_, ?_⟩
  · obtain ⟨index, address⟩ := decodeReflexRead_fields fields
    exact ⟨index, address, readReflex_waits h fields rfl⟩
  · obtain ⟨line, first, count, one, fits, address⟩ := decodeNodeRead_fields fields
    exact ⟨line, first, count, one, fits, address, readNode_waits h fields rfl⟩
  · rintro l a e line state flags store id zones heard rfl rfl bits rfl rfl rfl rfl
    have flags_eq : flags = flagBit e.identity.isSome 0 ||| flagBit e.kind.isSome 1
        ||| flagBit e.zones.isSome 2 ||| flagBit e.lastSeq.isSome 3 ||| flagBit e.lastHeard.isSome 4
        ||| flagBit e.lock.isSome 5 := BitVec.eq_of_toNat_eq (bits.trans (flags6_toNat ..).symm)
    rw [nodeImage_bytes, flags_eq, lineByte_eq]
    cases e.lock <;> cases e.state <;> rfl
  · rintro k e flags number kind hold count quiet short named bits target rfl rfl rfl
    have flags_eq : flags = flagBit e.matchArg.isSome 0 ||| flagBit e.report 1
        ||| flagBit e.quietUntil.isSome 2 :=
      BitVec.eq_of_toNat_eq (bits.trans (flags3_toNat ..).symm)
    rw [reflexImage_bytes k e short (actionTarget_eq target), flags_eq, lineByte_eq, lineByte_eq]
    cases e.matchSource <;> rfl

/-! ## The ends of the image writes -/

section
variable {s : State} {code : Byte} {tag : Word} {l : Line} {a : Addr} {n done : Nat} {b : Word}

theorem nodeImageWritten_eq (live : s.device ≠ .halted) (writing : s.imageWrite.isSome = true)
    (admin : s.admin = some ⟨code, tag, .readingNodes l a n done b⟩) :
    nodeImageWritten s =
      if done + 1 < n then readNode l a n (done + 1) b { s with imageWrite := none }
      else serviceRings (adminAnswer .ok [byteOf (done + 1)] { s with imageWrite := none }) := by
  obtain ⟨w, write⟩ := Option.isSome_iff_exists.mp writing
  unfold nodeImageWritten
  rw [admin, write]
  exact if_pos (live_of_ne live)

theorem nodeImageFault_eq (live : s.device ≠ .halted) (writing : s.imageWrite.isSome = true)
    (admin : s.admin = some ⟨code, tag, .readingNodes l a n done b⟩) :
    nodeImageFault s =
      serviceRings (adminAnswer .hostFault [byteOf done] { s with imageWrite := none }) := by
  obtain ⟨w, write⟩ := Option.isSome_iff_exists.mp writing
  unfold nodeImageFault
  rw [admin, write]
  exact if_pos (live_of_ne live)

theorem reflexImageEnds_eq (live : s.device ≠ .halted) (writing : s.imageWrite.isSome = true)
    (admin : s.admin = some ⟨code, tag, .readingReflex⟩) (st : Status) :
    reflexImageEnds st s = serviceRings (adminAnswer st [] { s with imageWrite := none }) := by
  obtain ⟨w, write⟩ := Option.isSome_iff_exists.mp writing
  unfold reflexImageEnds
  rw [admin, write]
  exact if_pos (live_of_ne live)

end

/-- The image of a read has been written or has failed, and the request is answered. -/
theorem imageEnds_answered {s : State} {code : Byte} {tag : Word} {p : AdminPhase}
    (admin : s.admin = some ⟨code, tag, p⟩) (active : (s.resultRing 0).out.state = .active)
    (st : Status) (d : List Byte) :
    Serviced (answered code tag st d { s with imageWrite := none })
      (serviceRings (adminAnswer st d { s with imageWrite := none })) := by
  rw [adminAnswer_active (s := { s with imageWrite := none }) admin active]
  exact serviceRings_serviced _

/-- Settles O30. -/
theorem imageWritesEndTheReads : Obligations.ImageWritesEndTheReads := by
  refine fun s code tag live writing => ⟨fun l a n done b admin => ⟨fun more => ?_,
    fun last active => ?_, fun active => ?_⟩, fun admin active => ⟨?_, ?_⟩⟩
  · refine congrArg Host.Outcome.next
      ((nodeImageWritten_eq live writing admin).trans ((if_pos more).trans ?_))
    unfold readNode State.setPhase
    dsimp only
    rw [admin]
    rfl
  · refine ⟨_, congrArg Host.Outcome.next ((nodeImageWritten_eq live writing admin).trans
      (if_neg (by omega))), imageEnds_answered admin active _ _⟩
  · exact ⟨_, congrArg Host.Outcome.next (nodeImageFault_eq live writing admin),
      imageEnds_answered admin active _ _⟩
  · exact ⟨_, congrArg Host.Outcome.next (reflexImageEnds_eq live writing admin .ok),
      imageEnds_answered admin active _ _⟩
  · exact ⟨_, congrArg Host.Outcome.next (reflexImageEnds_eq live writing admin .hostFault),
      imageEnds_answered admin active _ _⟩

end Sys2Proof.Requests

/-! The written rings: what a fault of a result ring loses, BAD_TAKE, the bus errors of the ring unit's
writes, the ends of notice writes, and the deadlines of reflex entries and rings. -/

namespace Sys2Proof.RingFaults

open Sys2Proof Sys2Proof.Machine Sys2Proof.Safety Sys2Proof.Laws Sys2Proof.Invariants
  Sys2Proof.Registers Sys2Proof.Requests

/-! ## Results counted lost -/

theorem tellSender_eq (who : Sender) (s : State) : tellSender who s = match who with
    | .slot i => s.setSlot i none
    | .admin => { s with admin := none } := by
  cases who <;> rfl

theorem tellSender_results (who : Sender) (s : State) : (tellSender who s).results = s.results := by
  cases who <;> rfl

theorem tellSender_rest (who : Sender) (s : State) :
    { tellSender who s with slots := s.slots, admin := s.admin } = s := by
  cases who <;> rfl

/-- Between two states the results of a list have been counted lost on a ring, one after the other
(R185), and nothing else has changed. -/
structure LostAll (q : ResultRingId) (rs : List ResultRecord) (s t : State) : Prop where
  ring : t.resultRing q = { s.resultRing q with
    lost := if rs = [] then (s.resultRing q).lost
      else min 65535 ((s.resultRing q).lost + rs.length) }
  otherRing : ∀ p, p ≠ q → t.resultRing p = s.resultRing p
  freed : ∀ r ∈ rs, ∀ i, r.sender = .slot i → t.slot i = none
  keptFree : ∀ i, s.slot i = none → t.slot i = none
  admin : t.admin = s.admin ∨ t.admin = none
  rest : { t with results := s.results, slots := s.slots, admin := s.admin } = s

theorem tellSender_keptFree (who : Sender) {s : State} {i : SlotId} (h : s.slot i = none) :
    (tellSender who s).slot i = none := by
  cases who with
  | admin => exact h
  | slot j =>
    rcases eq_or_ne i j with rfl | hij
    · exact slot_setSlot_self s i none
    · exact (slot_setSlot_ne s none hij).trans h

theorem loseResult_lost (q : ResultRingId) (s : State) (r : ResultRecord) :
    LostAll q [r] s (loseResult q s r) where
  ring := by
    refine (congrArg (fun v => v[q]) (tellSender_results r.sender _)).trans ?_
    exact resultRing_setResultRing_self s q _
  otherRing p hp := by
    refine (congrArg (fun v => v[p]) (tellSender_results r.sender _)).trans ?_
    exact resultRing_setResultRing_ne s _ hp
  freed r' hr i sender := by
    rw [List.mem_singleton] at hr
    subst hr
    unfold loseResult
    rw [sender]
    exact slot_setSlot_self _ i none
  keptFree i free := tellSender_keptFree r.sender (s := s.setResultRing q _) free
  admin := by
    unfold loseResult
    cases r.sender with
    | slot i => exact .inl rfl
    | admin => exact .inr rfl
  rest := congrArg (fun m : State => { m with results := s.results })
    (tellSender_rest r.sender (s.setResultRing q _))

theorem LostAll.cons {q : ResultRingId} {r : ResultRecord} {rs : List ResultRecord} {s m t : State}
    (h : LostAll q [r] s m) (k : LostAll q rs m t) : LostAll q (r :: rs) s t where
  ring := by
    rw [k.ring, h.ring]
    cases rs with
    | nil => rfl
    | cons r' rs =>
      simp only [reduceCtorEq, if_false, List.length_cons, List.length_nil]
      congr 1
      omega
  otherRing p hp := (k.otherRing p hp).trans (h.otherRing p hp)
  freed r' hr i sender := by
    rcases List.mem_cons.mp hr with rfl | mem
    · exact k.keptFree i (h.freed _ (List.mem_singleton_self _) i sender)
    · exact k.freed r' mem i sender
  keptFree i free := k.keptFree i (h.keptFree i free)
  admin := by
    rcases k.admin with e | e
    · rw [e]
      exact h.admin
    · exact .inr e
  rest := (congrArg (fun m : State => { m with
    results := s.results, slots := s.slots, admin := s.admin }) k.rest).trans h.rest

theorem loseResults_lost (q : ResultRingId) (rs : List ResultRecord) (s : State) :
    LostAll q rs s (rs.foldl (loseResult q) s) := by
  induction rs generalizing s with
  | nil => exact ⟨rfl, fun _ _ => rfl, fun _ h => absurd h List.not_mem_nil, fun _ h => h, .inl rfl, rfl⟩
  | cons r rs ih => exact (loseResult_lost q s r).cons (ih _)

/-! ## A result ring enters FAULTED -/

/-- The state with the results of a ring's pending list counted lost that a fault does not keep. -/
def lossesOf (q : ResultRingId) (s : State) : State :=
  ((s.resultRing q).pending.drop ((s.resultRing q).keptAtFault q).length).foldl (loseResult q)
    (s.setResultRing q { s.resultRing q with pending := (s.resultRing q).keptAtFault q })

/-- The state in which a result ring is FAULTED, before the work rings are judged or the device
halts. -/
def ringFaulted (q : ResultRingId) (reason : FaultReason) (s : State) : State :=
  createNotice none (.ringFault (.result q) reason ((lossesOf q s).resultRing q).lost)
    ((lossesOf q s).setResultRing q { (lossesOf q s).resultRing q with
      out := { ((lossesOf q s).resultRing q).out with state := .faulted, timer := none } })

theorem faultResultRing_eq (q : ResultRingId) (reason : FaultReason) (s : State) :
    faultResultRing q reason s = if q = 0 then haltDevice .result0Fault (ringFaulted q reason s)
      else judgeRings (ringFaulted q reason s) := by
  unfold faultResultRing ringFaulted lossesOf
  dsimp only

theorem createNotice_rest (l : Option Line) (b : NoticeBody) (s : State) :
    { createNotice l b s with buffer := s.buffer, lost := s.lost } = s := by
  unfold createNotice
  split <;> rfl

theorem createNotice_buffer {l : Option Line} {b : NoticeBody} {s : State}
    (room : s.buffer.length < 16) : (createNotice l b s).buffer =
      s.buffer ++ [{ body := b, line := l, stamp := s.ms, lost := s.lost }] := by
  unfold createNotice
  rw [if_pos room]

/-- What a result ring's fault does but for the work rings and the device (R185). -/
structure RingFaulted (q : ResultRingId) (reason : FaultReason) (k : Nat) (s t : State) : Prop where
  ring : t.resultRing q = { s.resultRing q with
    out := { (s.resultRing q).out with state := .faulted, timer := none }
    pending := (s.resultRing q).pending.take k
    lost := if (s.resultRing q).pending.length = k then (s.resultRing q).lost
      else min 65535 ((s.resultRing q).lost + (s.resultRing q).pending.length - k) }
  otherRing : ∀ p, p ≠ q → t.resultRing p = s.resultRing p
  freed : ∀ r ∈ (s.resultRing q).pending.drop k, ∀ i, r.sender = .slot i → t.slot i = none
  keptFree : ∀ i, s.slot i = none → t.slot i = none
  admin : t.admin = s.admin ∨ t.admin = none
  buffer : s.buffer.length < 16 → t.buffer = s.buffer ++
    [{ body := .ringFault (.result q) reason (t.resultRing q).lost, line := none,
       stamp := s.ms, lost := s.lost }]
  rest : { t with
    results := s.results, slots := s.slots, admin := s.admin, buffer := s.buffer, lost := s.lost } = s

/-- How many of a ring's pending results a fault keeps (R185, R187). -/
def keptCount (q : ResultRingId) (r : ResultRing) : Nat :=
  if q = 0 then 0 else match r.out.access with
    | .record _ _ => min 1 r.pending.length
    | .idle | .progress _ _ => 0

theorem keptAtFault_eq (q : ResultRingId) (r : ResultRing) :
    r.keptAtFault q = r.pending.take (keptCount q r) := by
  unfold ResultRing.keptAtFault keptCount
  split
  · rfl
  · cases r.out.access with
    | idle => rfl
    | progress w stale => rfl
    | record w stale => cases r.pending <;> simp

theorem keptCount_le (q : ResultRingId) (r : ResultRing) : keptCount q r ≤ r.pending.length := by
  unfold keptCount
  split
  · omega
  · split <;> omega

theorem keptAtFault_length (q : ResultRingId) (r : ResultRing) :
    (r.keptAtFault q).length = keptCount q r := by
  rw [keptAtFault_eq, List.length_take]
  exact Nat.min_eq_left (keptCount_le q r)

theorem lossesOf_lost (q : ResultRingId) (s : State) :
    LostAll q ((s.resultRing q).pending.drop (keptCount q (s.resultRing q)))
      (s.setResultRing q { s.resultRing q with
        pending := (s.resultRing q).pending.take (keptCount q (s.resultRing q)) })
      (lossesOf q s) := by
  unfold lossesOf
  rw [keptAtFault_length, keptAtFault_eq]
  exact loseResults_lost q _ _

theorem createNotice_results (l : Option Line) (b : NoticeBody) (s : State) :
    (createNotice l b s).results = s.results := (congrArg State.results (createNotice_rest l b s) :)

theorem ringFaulted_faulted (q : ResultRingId) (reason : FaultReason) (s : State) :
    RingFaulted q reason (keptCount q (s.resultRing q)) s (ringFaulted q reason s) := by
  have lost := lossesOf_lost q s
  have count := keptCount_le q (s.resultRing q)
  generalize keptCount q (s.resultRing q) = k at lost count
  have self : ((lossesOf q s).resultRing q) = { s.resultRing q with
      pending := (s.resultRing q).pending.take k
      lost := if (s.resultRing q).pending.length = k then (s.resultRing q).lost
        else min 65535 ((s.resultRing q).lost + (s.resultRing q).pending.length - k) } := by
    rw [lost.ring, resultRing_setResultRing_self]
    have all : (s.resultRing q).pending.drop k = [] ↔ (s.resultRing q).pending.length = k := by
      rw [List.drop_eq_nil_iff]
      omega
    simp only [all, List.length_drop]
    rw [Nat.add_sub_assoc count]
  have ring : (ringFaulted q reason s).resultRing q = { s.resultRing q with
      out := { (s.resultRing q).out with state := .faulted, timer := none }
      pending := (s.resultRing q).pending.take k
      lost := if (s.resultRing q).pending.length = k then (s.resultRing q).lost
        else min 65535 ((s.resultRing q).lost + (s.resultRing q).pending.length - k) } := by
    refine (congrArg (fun v => v[q]) (createNotice_results _ _ _)).trans ?_
    refine (resultRing_setResultRing_self (lossesOf q s) q _).trans ?_
    rw [self]
  have slots : (ringFaulted q reason s).slots = (lossesOf q s).slots :=
    (congrArg State.slots (createNotice_rest _ _ _) :)
  have slot : ∀ i, (ringFaulted q reason s).slot i = (lossesOf q s).slot i :=
    fun i => congrArg (fun v => v[i]) slots
  refine
    { ring := ring
      otherRing := fun p hp => ?_
      freed := fun r hr i sender => (slot i).trans (lost.freed r hr i sender)
      keptFree := fun i free => (slot i).trans (lost.keptFree i free)
      admin := ?_
      buffer := fun room => ?_
      rest := ?_ }
  · refine (congrArg (fun v => v[p]) (createNotice_results _ _ _)).trans ?_
    refine (resultRing_setResultRing_ne (lossesOf q s) _ hp).trans ?_
    exact (lost.otherRing p hp).trans (resultRing_setResultRing_ne s _ hp)
  · have admin : (ringFaulted q reason s).admin = (lossesOf q s).admin :=
      (congrArg State.admin (createNotice_rest _ _ _) :)
    rw [admin]
    exact lost.admin
  · have buffer : (lossesOf q s).buffer = s.buffer := (congrArg State.buffer lost.rest :)
    have ms : (lossesOf q s).ms = s.ms := (congrArg State.ms lost.rest :)
    have before : (lossesOf q s).lost = s.lost := (congrArg State.lost lost.rest :)
    refine (createNotice_buffer (s := (lossesOf q s).setResultRing q _)
      (by rw [setResultRing_buffer, buffer]; exact room)).trans ?_
    rw [setResultRing_buffer, setResultRing_ms, setResultRing_lost, buffer, ms, before, ring, self]
  · exact (congrArg (fun m : State => { m with
      results := s.results, slots := s.slots, admin := s.admin, buffer := s.buffer, lost := s.lost })
      (createNotice_rest none _ ((lossesOf q s).setResultRing q _))).trans
      (congrArg (fun m : State => { m with
        results := s.results, buffer := s.buffer, lost := s.lost }) lost.rest)

/-- What the fault of a result ring 1 to 3 leaves once the rings have been served (R185). -/
structure FaultServed (q : ResultRingId) (reason : FaultReason) (k : Nat) (s t : State) : Prop where
  pending : (t.resultRing q).pending = (s.resultRing q).pending.take k
  lost : (t.resultRing q).lost =
    if (s.resultRing q).pending.length = k then (s.resultRing q).lost
      else min 65535 ((s.resultRing q).lost + (s.resultRing q).pending.length - k)
  state : (t.resultRing q).out.state = .faulted ∨
    ((t.resultRing q).out.state = .closed ∧ s.adminWaits (.closingResult q) = true)
  out : ∃ st, (t.resultRing q).out = { (s.resultRing q).out with state := st, timer := none }
  freed : ∀ r ∈ (s.resultRing q).pending.drop k, ∀ i, r.sender = .slot i → t.slot i = none
  keptFree : ∀ i, s.slot i = none → t.slot i = none
  buffer : s.buffer.length < 16 → t.buffer = s.buffer ++
    [{ body := .ringFault (.result q) reason (t.resultRing q).lost, line := none,
       stamp := s.ms, lost := s.lost }]
  device : t.device = s.device ∨ (s.device = .stopping ∧ t.device = .stopped)
  held : ∀ r : WorkRingId, r ≠ 0 → (s.workRing r).bound = q → (s.workRing r).state = .active →
    (t.workRing r).state = .held

/-- A waiting request that a fault may have taken away waited before it. -/
theorem adminWaits_of_kept {s m : State} (h : m.admin = s.admin ∨ m.admin = none) {p : AdminPhase}
    (waits : m.adminWaits p = true) : s.adminWaits p = true := by
  obtain ⟨a, admin, phase⟩ := adminWaits_iff.mp waits
  rcases h with same | gone
  · exact adminWaits_iff.mpr ⟨a, same ▸ admin, phase⟩
  · rw [gone] at admin
    cases admin

theorem resultCloses_waits {s : State} {q : ResultRingId} (h : s.resultCloses q = true) :
    s.adminWaits (.closingResult q) = true := by
  unfold State.resultCloses at h
  simp only [Bool.and_eq_true] at h
  exact h.1.2

theorem serviced_device_or {s t : State} (h : Serviced s t) :
    t.device = s.device ∨ (s.device = .stopping ∧ t.device = .stopped) := by
  rw [h.device]
  split
  · next stops => exact .inr ⟨stops.1, rfl⟩
  · exact .inl rfl

theorem faultResultRing_served {q : ResultRingId} (zero : q ≠ 0) (reason : FaultReason) {s : State}
    (live : s.device ≠ .halted) : FaultServed q reason (keptCount q (s.resultRing q)) s
      (serviceRings (faultResultRing q reason s)) := by
  have faulted := ringFaulted_faulted q reason s
  rw [faultResultRing_eq, if_neg zero]
  generalize ringFaulted q reason s = f at faulted
  have serviced := serviceRings_serviced (judgeRings f)
  generalize serviceRings (judgeRings f) = t at serviced
  have device : f.device = s.device := (congrArg State.device faulted.rest :)
  have work : ∀ r, f.workRing r = s.workRing r := fun r =>
    (congrArg (fun m : State => m.workRing r) faulted.rest :)
  have still : (judgeRings f).device ≠ .halted := fun h => live (device.symm.trans h)
  obtain ⟨pending, lost⟩ := serviced.otherResults q zero
  have ring : (judgeRings f).resultRing q = f.resultRing q := rfl
  rw [ring, faulted.ring] at pending lost
  have out := serviced.out still q
  rw [ring, faulted.ring] at out
  have slots : ∀ i, t.slot i = f.slot i := fun i => congrArg (fun v => v[i]) serviced.slots
  refine
    { pending := pending
      lost := lost
      state := ?_
      out := ?_
      freed := fun r hr i sender => (slots i).trans (faulted.freed r hr i sender)
      keptFree := fun i free => (slots i).trans (faulted.keptFree i free)
      buffer := fun room => ?_
      device := ?_
      held := fun r hr bound active => ?_ }
  · rw [out, begun_state]
    split
    · next closes =>
      exact .inr ⟨rfl, adminWaits_of_kept faulted.admin (resultCloses_waits closes)⟩
    · exact .inl rfl
  · rw [out]
    split
    · exact ⟨.closed, begun_of_not_active (by simp [OutputRing.closed]) _⟩
    · exact ⟨.faulted, begun_of_not_active (by simp) _⟩
  · have lost' : (f.resultRing q).lost = (t.resultRing q).lost := by rw [faulted.ring, lost]
    rw [serviced.buffer, ← lost']
    exact faulted.buffer room
  · have := serviced_device_or serviced
    rwa [show (judgeRings f).device = s.device from device] at this
  · have judged : (judgeRings f).workRing r = { s.workRing r with state := .held } := by
      rw [judgeRings_workRing, if_neg hr, work r, judgedState, active]
      have holds : holdCondition f (s.workRing r) = true := by
        unfold holdCondition
        rw [bound, faulted.ring]
        simp
      simp only [holds, if_true]
    rw [serviced.work still r hr, judged]
    have notActive : (t.resultRing (s.workRing r).bound).out.state ≠ .active := by
      rw [bound, out, begun_state]
      split <;> simp [OutputRing.closed]
    exact if_neg fun h => notActive h.2

/-- What the fault of result ring 0 leaves (R185, R187). -/
structure FaultHalted (reason : FaultReason) (s t : State) : Prop where
  pending : (t.resultRing 0).pending = []
  lost : (t.resultRing 0).lost =
    if (s.resultRing 0).pending.length = 0 then (s.resultRing 0).lost
      else min 65535 ((s.resultRing 0).lost + (s.resultRing 0).pending.length)
  out : (t.resultRing 0).out = { (s.resultRing 0).out with state := .faulted, timer := none }
  freed : ∀ r ∈ (s.resultRing 0).pending, ∀ i, r.sender = .slot i → t.slot i = none
  buffer : s.buffer.length < 16 → t.buffer = s.buffer ++
    [{ body := .ringFault (.result 0) reason (t.resultRing 0).lost, line := none,
       stamp := s.ms, lost := s.lost }]
  device : t.device = .halted
  halt : t.halt = .result0Fault
  deviceEvent : t.deviceEvent = true
  lines : t.lines = s.lines
  nodes : t.nodes = s.nodes
  work : t.work = s.work
  reflexes : t.reflexes = s.reflexes

theorem faultResultRing_halts (reason : FaultReason) (s : State) :
    FaultHalted reason s (serviceRings (faultResultRing 0 reason s)) := by
  have faulted := ringFaulted_faulted 0 reason s
  rw [show keptCount 0 (s.resultRing 0) = 0 from rfl] at faulted
  have halted := haltDevice_haltedBy .result0Fault (ringFaulted 0 reason s)
  rw [faultResultRing_eq, if_pos rfl, serviceRings_halted halted.device]
  generalize ringFaulted 0 reason s = f at faulted halted
  generalize haltDevice .result0Fault f = t at halted
  have lost := halted.lost 0
  rw [faulted.ring] at lost
  have out : (t.resultRing 0).out = { (f.resultRing 0).out with timer := none } :=
    halted.timers (.result 0)
  have slots : t.slots = f.slots := (congrArg State.slots halted.rest :)
  refine
    { pending := (halted.results 0).trans (by rw [faulted.ring]; rfl)
      lost := lost
      out := by rw [out, faulted.ring]
      freed := fun r hr i sender =>
        (congrArg (fun v => v[i]) slots).trans (faulted.freed r hr i sender)
      buffer := fun room => ?_
      device := halted.device
      halt := halted.halt
      deviceEvent := halted.deviceEvent
      lines := (congrArg State.lines halted.rest :).trans (congrArg State.lines faulted.rest :)
      nodes := (congrArg State.nodes halted.rest :).trans (congrArg State.nodes faulted.rest :)
      work := (congrArg State.work halted.rest :).trans (congrArg State.work faulted.rest :)
      reflexes :=
        (congrArg State.reflexes halted.rest :).trans (congrArg State.reflexes faulted.rest :) }
  rw [halted.lost 0, ← faulted.buffer room]
  exact (congrArg State.buffer halted.rest :)

/-! ## BAD_TAKE -/

theorem exec_badTake {s : State} (high : s.resetPinLow = false) (live : s.device ≠ .halted) {v : Word}
    {n : RingName} (named : (ringField v).toNat = takeNumber n) (active : (s.outRing n).state = .active)
    (bad : ((s.outRing n).written - (s.outRing n).consumed).toNat
      < (countField v - (s.outRing n).consumed).toNat) :
    exec (.take v) s = .next (serviceRings (faultRing n .badTake s)) := by
  rw [exec_take high live v named, takeRing_active _ active,
    if_neg fun good => absurd ((goodTake_iff _ _).mp good) (by omega)]

theorem out_of_faulted {o : OutputRing} (active : o.state = .active) (st : OutState) :
    { { o with state := st, timer := none } with state := .active, timer := none } =
      { o with timer := none } := by
  rw [← active]

/-- Settles O11. -/
theorem badTakeFaultsTheRing : Obligations.BadTakeFaultsTheRing := by
  refine fun v s high live => ⟨fun named active bad => ?_, fun q named active bad => ?_⟩
  · refine ⟨_, exec_badTake (n := .notice) high live named active bad, ?_⟩
    have serviced := serviceRings_serviced (faultNoticeRing .badTake s)
    have rest : faultNoticeRing .badTake s = createNotice none (.ringFault .notice .badTake 0)
      { s with notice := { s.notice with state := .faulted, timer := none } } := rfl
    refine ⟨serviced, fun waits busy => ?_⟩
    have notice : (faultNoticeRing .badTake s).notice =
        { s.notice with state := .faulted, timer := none } :=
      (congrArg State.notice (createNotice_rest none (.ringFault .notice .badTake 0) _) :)
    have admin : (faultNoticeRing .badTake s).admin = s.admin :=
      (congrArg State.admin (createNotice_rest none (.ringFault .notice .badTake 0) _) :)
    have device : (faultNoticeRing .badTake s).device = s.device :=
      (congrArg State.device (createNotice_rest none (.ringFault .notice .badTake 0) _) :)
    have still : (faultNoticeRing .badTake s).device ≠ .halted := fun h => live (device.symm.trans h)
    have open_ : (faultNoticeRing .badTake s).noticeCloses = false := by
      unfold State.noticeCloses
      rw [notice]
      simp [busy]
    have noAnswer : closeDetail (faultNoticeRing .badTake s) = none := by
      obtain ⟨a, current, phase⟩ := adminWaits_iff.mp waits
      unfold closeDetail
      rw [admin, current]
      dsimp only
      rw [phase]
      exact if_neg (by simp [open_])
    have after := serviced.notice still
    simp only [open_, notice, Bool.false_eq_true, if_false] at after
    rw [begun_of_not_active (by simp)] at after
    exact ⟨(congrArg OutputRing.state after :), (congrArg OutputRing.access after :),
      ((serviced.admin still noAnswer).1).trans admin⟩
  · have run := exec_badTake (n := .result q) high live named active bad
    rcases eq_or_ne q 0 with rfl | zero
    · have halted := faultResultRing_halts .badTake s
      refine ⟨0, _, run, rfl, halted.pending, ?_, (congrArg OutputRing.timer halted.out :),
        .inl (congrArg OutputRing.state halted.out :), halted.lost, halted.freed, halted.buffer, ?_⟩
      · exact (congrArg (fun o : OutputRing => { o with state := .active, timer := none })
          halted.out).trans (out_of_faulted active _)
      · rw [if_pos rfl]
        exact ⟨halted.device, halted.halt, halted.deviceEvent⟩
    · have served := faultResultRing_served zero .badTake live
      obtain ⟨st, out⟩ := served.out
      refine ⟨keptCount q (s.resultRing q), _, run, rfl, served.pending, ?_,
        (congrArg OutputRing.timer out :), served.state, served.lost, served.freed, served.buffer, ?_⟩
      · exact (congrArg (fun o : OutputRing => { o with state := .active, timer := none })
          out).trans (out_of_faulted active _)
      · rw [if_neg zero]
        exact ⟨served.device, served.held⟩

/-! ## Bus errors of a result ring's writes -/

/-- The state in which a ring's access has ended. -/
def accessOver (q : ResultRingId) (s : State) : State :=
  s.setResultRing q { s.resultRing q with out := (s.resultRing q).out.idle }

/-- Between two states the access of a result ring has ended, the first results of its pending list
have been counted lost, and nothing else has changed. -/
structure HeadLost (q : ResultRingId) (first rest : List ResultRecord) (s m : State) : Prop where
  split : (s.resultRing q).pending = first ++ rest
  ring : m.resultRing q = { s.resultRing q with
    out := (s.resultRing q).out.idle, pending := rest
    lost := if first = [] then (s.resultRing q).lost
      else min 65535 ((s.resultRing q).lost + first.length) }
  freed : ∀ r ∈ first, ∀ i, r.sender = .slot i → m.slot i = none
  admin : m.admin = s.admin ∨ m.admin = none
  rest : { m with results := s.results, slots := s.slots, admin := s.admin } = s

theorem accessOver_headLost (q : ResultRingId) (s : State) :
    HeadLost q [] (s.resultRing q).pending s (accessOver q s) :=
  ⟨rfl, resultRing_setResultRing_self s q _, fun _ h => absurd h List.not_mem_nil, .inl rfl, rfl⟩

theorem accessOver_pending (q : ResultRingId) (s : State) :
    ((accessOver q s).resultRing q).pending = (s.resultRing q).pending :=
  (congrArg ResultRing.pending (resultRing_setResultRing_self s q _) :)

theorem loseHead_headLost (q : ResultRingId) (s : State) :
    ∃ first rest, HeadLost q first rest s (loseHead q (accessOver q s)) := by
  have pending := accessOver_pending q s
  cases list : (s.resultRing q).pending with
  | nil =>
    have same : loseHead q (accessOver q s) = accessOver q s := by
      unfold loseHead
      dsimp only
      rw [pending, list]
    rw [same]
    exact ⟨[], [], list ▸ accessOver_headLost q s⟩
  | cons r rest =>
    have lost := loseResult_lost q
      ((accessOver q s).setResultRing q { (accessOver q s).resultRing q with pending := rest }) r
    have same : loseHead q (accessOver q s) = loseResult q
        ((accessOver q s).setResultRing q { (accessOver q s).resultRing q with pending := rest }) r := by
      unfold loseHead
      dsimp only
      rw [pending, list]
    rw [same]
    refine ⟨[r], rest, list, ?_, lost.freed, lost.admin, ?_⟩
    · rw [lost.ring, resultRing_setResultRing_self]
      unfold accessOver
      rw [resultRing_setResultRing_self]
    · exact (congrArg (fun m : State => { m with results := s.results }) lost.rest :)

section
variable {q : ResultRingId} {first rest : List ResultRecord} {s m : State}

theorem HeadLost.lost_all (h : HeadLost q first rest s m) :
    (if rest.length = 0 then (m.resultRing q).lost
      else min 65535 ((m.resultRing q).lost + rest.length)) =
    if (s.resultRing q).pending = [] then (s.resultRing q).lost
      else min 65535 ((s.resultRing q).lost + (s.resultRing q).pending.length) := by
  rw [h.ring, h.split]
  cases first with
  | nil => cases rest <;> simp
  | cons r first =>
    cases rest with
    | nil => simp
    | cons r' rest =>
      simp only [List.length_cons, List.cons_append, reduceCtorEq, if_false, List.length_append]
      omega

theorem HeadLost.keptCount_zero (h : HeadLost q first rest s m) : keptCount q (m.resultRing q) = 0 := by
  unfold keptCount
  rw [h.ring]
  split <;> rfl

end

/-- A write of a result ring that was begun since the ring was opened ends with a bus error (R185). -/
theorem exec_writeFault {q : ResultRingId} {s : State} (live : s.device ≠ .halted)
    (writing : ∃ w, (s.resultRing q).out.access = .record w false ∨
      (s.resultRing q).out.access = .progress w false) :
    ∃ first rest m, HeadLost q first rest s m ∧
      exec (.writeFault q) s = .next (serviceRings (faultIfActive (.result q) false m)) := by
  obtain ⟨w, record | progress⟩ := writing
  · obtain ⟨first, rest, lost⟩ := loseHead_headLost q s
    refine ⟨first, rest, _, lost, congrArg Host.Outcome.next ((if_pos (live_of_ne live)).trans ?_)⟩
    rw [record]
    rfl
  · refine ⟨_, _, _, accessOver_headLost q s,
      congrArg Host.Outcome.next ((if_pos (live_of_ne live)).trans ?_)⟩
    rw [progress]
    rfl

theorem faultIfActive_active {q : ResultRingId} {m : State}
    (h : (m.resultRing q).out.state = .active) :
    faultIfActive (.result q) false m = faultResultRing q .writeFault m :=
  if_pos ⟨h, rfl⟩

theorem faultIfActive_other {n : RingName} {stale : Bool} {m : State}
    (h : (m.outRing n).state ≠ .active) : faultIfActive n stale m = m :=
  if_neg fun x => h x.1

section
variable {q : ResultRingId} {first rest : List ResultRecord} {s m : State}

theorem HeadLost.same (h : HeadLost q first rest s m) : m.device = s.device ∧ m.buffer = s.buffer ∧
    m.ms = s.ms ∧ m.lost = s.lost ∧ m.work = s.work :=
  ⟨(congrArg State.device h.rest :), (congrArg State.buffer h.rest :), (congrArg State.ms h.rest :),
    (congrArg State.lost h.rest :), (congrArg State.work h.rest :)⟩

theorem HeadLost.pending (h : HeadLost q first rest s m) : (m.resultRing q).pending = rest := by
  rw [h.ring]

theorem HeadLost.active (h : HeadLost q first rest s m) (active : (s.resultRing q).out.state = .active) :
    (m.resultRing q).out.state = .active := by
  rw [h.ring]
  exact active

/-- The slots of the results that a fault counts lost are FREE, the first ones too. -/
theorem HeadLost.freed_all (h : HeadLost q first rest s m) {t : State}
    (keptFree : ∀ i, m.slot i = none → t.slot i = none)
    (freed : ∀ r ∈ (m.resultRing q).pending, ∀ i, r.sender = .slot i → t.slot i = none) :
    ∀ r ∈ (s.resultRing q).pending, ∀ i, r.sender = .slot i → t.slot i = none := by
  intro r hr i sender
  rw [h.split, List.mem_append] at hr
  rcases hr with mem | mem
  · exact keptFree i (h.freed r mem i sender)
  · exact freed r (by rw [h.ring]; exact mem) i sender

end

theorem writeFault_faults {q : ResultRingId} {s : State} (live : s.device ≠ .halted) (zero : q ≠ 0)
    (active : (s.resultRing q).out.state = .active)
    (writing : ∃ w, (s.resultRing q).out.access = .record w false ∨
      (s.resultRing q).out.access = .progress w false) :
    ∃ first rest m, HeadLost q first rest s m ∧
      ∃ t, exec (.writeFault q) s = .next t ∧ FaultServed q .writeFault 0 m t := by
  obtain ⟨first, rest, m, lost, run⟩ := exec_writeFault live writing
  rw [faultIfActive_active (lost.active active)] at run
  have live' : m.device ≠ .halted := fun h => live (lost.same.1.symm.trans h)
  have served := faultResultRing_served zero .writeFault live'
  rw [lost.keptCount_zero] at served
  exact ⟨first, rest, m, lost, _, run, served⟩

theorem setResultRing_setResultRing (s : State) (q : ResultRingId) (x y : ResultRing) :
    (s.setResultRing q x).setResultRing q y = s.setResultRing q y :=
  congrArg (fun v => { s with results := v }) (Vector.set_set _ _)

theorem loseHead_cons {q : ResultRingId} {s : State} {r : ResultRecord} {rest : List ResultRecord}
    (pending : (s.resultRing q).pending = r :: rest) : loseHead q s = tellSender r.sender
      (s.setResultRing q { s.resultRing q with
        pending := rest, lost := min 65535 ((s.resultRing q).lost + 1) }) := by
  unfold loseHead loseResult
  dsimp only
  rw [pending]
  dsimp only
  rw [resultRing_setResultRing_self, setResultRing_setResultRing]

/-- Settles O49. -/
theorem writeFaultsFaultTheResultRing : Obligations.WriteFaultsFaultTheResultRing := by
  refine ⟨fun q s live zero active writing => ?_, fun s live active writing => ?_,
    fun q s w live faulted => ⟨fun r rest record pending => ?_, fun progress => ?_⟩⟩
  · obtain ⟨first, rest, m, lost, t, run, served⟩ := writeFault_faults live zero active writing
    obtain ⟨device, buffer, ms, count, work⟩ := lost.same
    obtain ⟨st, out⟩ := served.out
    rw [lost.ring] at out
    have workRing : ∀ k, m.workRing k = s.workRing k := fun k => congrArg (fun v => v[k]) work
    refine ⟨t, run, served.pending, ?_, served.state.imp id fun h => ⟨h.1, ?_⟩, ?_, ?_, ?_, ?_, ?_,
      ?_, fun room => ?_, fun k hk bound held => ?_⟩
    · exact served.lost.trans (by rw [lost.pending, Nat.sub_zero, lost.lost_all])
    · exact adminWaits_of_kept lost.admin h.2
    · rw [out]
    · rw [out]
      rfl
    · rw [out]
      rfl
    · rw [out]
      rfl
    · rw [out]
      rfl
    · exact lost.freed_all served.keptFree served.freed
    · rw [served.buffer (by rw [buffer]; exact room), buffer, ms, count]
    · exact served.held k hk (by rw [workRing]; exact bound) (by rw [workRing]; exact held)
  · obtain ⟨first, rest, m, lost, run⟩ := exec_writeFault live writing
    rw [faultIfActive_active (lost.active active)] at run
    have halted := faultResultRing_halts .writeFault m
    refine ⟨_, run, halted.device, halted.halt, halted.deviceEvent, by rw [halted.out], halted.pending,
      ?_, halted.lines.trans (congrArg State.lines lost.rest :),
      halted.nodes.trans (congrArg State.nodes lost.rest :),
      halted.work.trans lost.same.2.2.2.2,
      halted.reflexes.trans (congrArg State.reflexes lost.rest :)⟩
    exact halted.lost.trans (by rw [lost.pending, lost.lost_all])
  · obtain ⟨first, rest', lost⟩ := loseHead_headLost q s
    have other : ((loseHead q (accessOver q s)).outRing (.result q)).state ≠ .active := by
      unfold State.outRing
      dsimp only
      rw [lost.ring]
      simp [OutputRing.idle, faulted]
    have run : exec (.writeFault q) s = .next (serviceRings (loseHead q (accessOver q s))) := by
      refine congrArg Host.Outcome.next ((if_pos (live_of_ne live)).trans ?_)
      rw [record]
      exact congrArg serviceRings (faultIfActive_other other)
    have pending' : ((accessOver q s).resultRing q).pending = r :: rest :=
      (accessOver_pending q s).trans pending
    rw [loseHead_cons pending'] at run
    unfold accessOver at run
    rw [resultRing_setResultRing_self, setResultRing_setResultRing] at run
    refine ⟨_, run, ?_⟩
    cases r.sender with
    | slot i => exact serviceRings_serviced _
    | admin => exact serviceRings_serviced _
  · have other : ((accessOver q s).outRing (.result q)).state ≠ .active := by
      unfold State.outRing
      dsimp only
      rw [accessOver, resultRing_setResultRing_self]
      simp [OutputRing.idle, faulted]
    refine ⟨_, congrArg Host.Outcome.next ((if_pos (live_of_ne live)).trans ?_),
      serviceRings_serviced (accessOver q s)⟩
    rw [progress]
    exact congrArg serviceRings (faultIfActive_other other)

/-! ## Record writes that end, and the notice ring -/

/-- A ring after a record write (R182, R189, R190): it signals while it is ACTIVE. -/
theorem recordWritten_eq (o : OutputRing) (now : Word) {signals : Bool}
    (active : signals = true ↔ o.state = .active) :
    o.recordWritten now = { o with
      written := o.written + 1
      timer := if signals = true ∧ (o.written + 1 - o.consumed).toNat = 1 then
        some (now + BitVec.ofNat 32 o.holdoff) else o.timer
      signalled := o.signalled || (signals && decide (o.threshold
        ≤ (o.written + 1 - o.consumed).toNat))
      access := .progress
        { addr := o.progress, bytes := le32 ((o.written + 1).setWidth 32) } false } := by
  unfold OutputRing.recordWritten OutputRing.signalWrite OutputRing.unconsumed
  cases signals with
  | true =>
    dsimp only
    rw [if_pos (active.mp rfl)]
    simp only [true_and, Bool.true_and]
    rfl
  | false =>
    have other : o.state ≠ .active := fun h => absurd (active.mpr h) (by decide)
    dsimp only
    rw [if_neg other]
    simp only [Bool.false_eq_true, false_and, if_false, Bool.false_and, Bool.or_false]
    rfl

theorem exec_noticeRecordWritten {s : State} (live : s.device ≠ .halted) {w : HostWrite}
    (record : s.notice.access = .record w false) : exec .noticeRecordWritten s =
      .next (serviceRings { s with
        notice := s.notice.recordWritten s.ms, buffer := s.buffer.tail }) := by
  refine congrArg Host.Outcome.next ?_
  unfold noticeWritten
  rw [record]
  exact if_pos (live_of_ne live)

theorem exec_noticeWriteFault {s : State} (live : s.device ≠ .halted) {w : HostWrite}
    (writing : s.notice.access = .record w false ∨ s.notice.access = .progress w false) :
    exec .noticeWriteFault s =
      .next (serviceRings (faultIfActive .notice false { s with notice := s.notice.idle })) := by
  refine congrArg Host.Outcome.next ((if_pos (live_of_ne live)).trans ?_)
  rcases writing with h | h <;> rw [h]

theorem exec_progressWritten {n : RingName} {s : State} {w : HostWrite} {stale : Bool}
    (progress : (s.outRing n).access = .progress w stale) : exec (.progressWordWritten n) s =
      .next (serviceRings (s.setOutRing n { s.outRing n with access := .idle })) := by
  refine congrArg Host.Outcome.next ?_
  unfold progressWritten
  rw [progress]
  rfl

/-- A CLOSE_NOTICE_RING waits while its ring has a write in progress. -/
theorem noticeClose_waits {m : State} {code : Byte} {tag : Word}
    (admin : m.admin = some ⟨code, tag, .closingNotice⟩) (busy : m.notice.access ≠ .idle) :
    m.noticeCloses = false ∧ closeDetail m = none := by
  have still : m.noticeCloses = false := by
    unfold State.noticeCloses
    rw [beq_eq_false_iff_ne.mpr busy, Bool.and_false]
  refine ⟨still, ?_⟩
  unfold closeDetail
  rw [admin]
  exact if_neg (by simp [still])

/-- A CLOSE_NOTICE_RING whose ring has no write in progress ends while the rings are served. -/
theorem noticeClose_ends {m : State} {code : Byte} {tag : Word} (live : m.device ≠ .halted)
    (admin : m.admin = some ⟨code, tag, .closingNotice⟩) (active : (m.resultRing 0).out.state = .active)
    (idle : m.notice.access = .idle) :
    (serviceRings m).notice = { m.notice with state := .closed, timer := none } ∧
      (serviceRings m).admin = some ⟨code, tag, .answered⟩ ∧
      ((serviceRings m).resultRing 0).pending = (m.resultRing 0).pending ++
        [{ sender := .admin, code := code, status := .ok, ring := 0, tag := tag,
           detail := le16 m.notice.written }] := by
  have closes : m.noticeCloses = true := by
    unfold State.noticeCloses
    rw [adminWaits_some admin, idle]
    rfl
  have serviced := serviceRings_serviced m
  have detail : closeDetail m = some (le16 m.notice.written) := by
    unfold closeDetail
    rw [admin]
    exact if_pos closes
  refine ⟨?_, serviced_answer serviced live admin detail active⟩
  rw [serviced.notice live, if_pos closes]
  exact begun_of_not_active (by simp [OutputRing.closed]) _

/-- A write of the notice ring ends with a bus error while a CLOSE_NOTICE_RING waits. -/
theorem noticeFault_closes {s : State} {code : Byte} {tag : Word} (live : s.device ≠ .halted)
    (admin : s.admin = some ⟨code, tag, .closingNotice⟩)
    (active : (s.resultRing 0).out.state = .active) :
    (serviceRings (faultIfActive .notice false { s with notice := s.notice.idle })).notice =
        { s.notice with state := .closed, timer := none, access := .idle } ∧
      (serviceRings (faultIfActive .notice false { s with notice := s.notice.idle })).admin =
        some ⟨code, tag, .answered⟩ ∧
      ((serviceRings (faultIfActive .notice false { s with notice := s.notice.idle })).resultRing
        0).pending = (s.resultRing 0).pending ++
          [{ sender := .admin, code := code, status := .ok, ring := 0, tag := tag,
             detail := le16 s.notice.written }] := by
  by_cases running : s.notice.state = .active
  · have faults : faultIfActive .notice false { s with notice := s.notice.idle } =
        faultNoticeRing .writeFault { s with notice := s.notice.idle } := if_pos ⟨running, rfl⟩
    rw [faults]
    have rest := createNotice_rest none (.ringFault .notice .writeFault 0)
      { s with notice := { s.notice.idle with state := .faulted, timer := none } }
    have notice : (faultNoticeRing .writeFault { s with notice := s.notice.idle }).notice =
        { s.notice.idle with state := .faulted, timer := none } := (congrArg State.notice rest :)
    have ring : (faultNoticeRing .writeFault { s with notice := s.notice.idle }).resultRing 0 =
        s.resultRing 0 := (congrArg (fun m : State => m.resultRing 0) rest :)
    have device : (faultNoticeRing .writeFault { s with notice := s.notice.idle }).device =
        s.device := (congrArg State.device rest :)
    have ends := noticeClose_ends
      (m := faultNoticeRing .writeFault { s with notice := s.notice.idle })
      (fun h => live (device.symm.trans h))
      ((congrArg State.admin rest :).trans admin) (by rw [ring]; exact active) (by rw [notice]; rfl)
    rw [notice, ring] at ends
    exact ends
  · rw [faultIfActive_other (m := { s with notice := s.notice.idle }) (n := .notice) running]
    exact noticeClose_ends (m := { s with notice := s.notice.idle }) live admin active rfl

/-- Settles O50. -/
theorem noticeWritesEnd : Obligations.NoticeWritesEnd := by
  refine fun s w signals live active => ⟨fun record => ?_, fun other writing => ?_,
    fun code tag admin ready => ⟨fun record => ?_, fun c ends => ?_⟩, fun running writing => ?_⟩
  · rw [exec_noticeRecordWritten live record, recordWritten_eq _ _ active]
    exact ⟨_, rfl, serviceRings_serviced _⟩
  · refine ⟨_, exec_noticeWriteFault live writing, ?_⟩
    rw [faultIfActive_other (m := { s with notice := s.notice.idle }) (n := .notice) other]
    exact serviceRings_serviced _
  · have serviced := serviceRings_serviced
      { s with notice := s.notice.recordWritten s.ms, buffer := s.buffer.tail }
    have busy : (s.notice.recordWritten s.ms).access ≠ .idle := by
      rw [recordWritten_eq _ _ active]
      simp
    obtain ⟨still, none⟩ := noticeClose_waits (m := { s with
      notice := s.notice.recordWritten s.ms, buffer := s.buffer.tail }) admin busy
    refine ⟨_, exec_noticeRecordWritten live record, (serviced.admin live none).1, ?_⟩
    rw [serviced_notice_state serviced still, recordWritten_eq _ _ active]
  · rcases ends with ⟨rfl, progress⟩ | ⟨rfl, writing⟩
    · refine ⟨_, exec_progressWritten (n := .notice) progress, ?_⟩
      exact noticeClose_ends (m := { s with notice := { s.notice with access := .idle } }) live admin
        ready rfl
    · exact ⟨_, exec_noticeWriteFault live writing, noticeFault_closes live admin ready⟩
  · refine ⟨_, exec_noticeWriteFault live writing, ?_⟩
    rw [show faultIfActive .notice false { s with notice := s.notice.idle } =
      faultNoticeRing .writeFault { s with notice := s.notice.idle } from if_pos ⟨running, rfl⟩]
    exact serviceRings_serviced _

/-! ## Deadlines of entries and rings -/

theorem holdoffDue_iff {o : OutputRing} {now d : Word} (timer : o.timer = some d)
    (past : (now - d).toNat < 2 ^ 31) : o.holdoffDue now = true ↔ ¬(o.holdoff = 0 ∧ now = d) := by
  unfold OutputRing.holdoffDue reached
  rw [timer]
  simp only [decide_eq_true past, Bool.true_and, Bool.or_eq_true, bne_iff_ne]
  tauto

/-- Settles O47. -/
theorem quietAndHoldoffDeadlinesExpire : Obligations.QuietAndHoldoffDeadlinesExpire := by
  refine fun s d live past => ⟨fun k quiet => ?_, fun n timer => ?_⟩
  · refine congrArg Host.Outcome.next (if_pos ⟨live_of_ne live, ?_⟩)
    rw [quiet]
    exact decide_eq_true past
  · refine congrArg Host.Outcome.next ?_
    unfold holdoffExpiry
    by_cases same : (s.outRing n).holdoff = 0 ∧ s.ms = d
    · rw [if_pos same, if_neg fun h => (holdoffDue_iff timer past).mp h.2 same]
    · rw [if_neg same, if_pos ⟨live_of_ne live, (holdoffDue_iff timer past).mpr same⟩]
      rfl

end Sys2Proof.RingFaults

/-! The ring unit: the writes it begins, the fetches of the allocation arbiter and of the admin unit,
the ends of a result's writes, and the codes of the records. -/

namespace Sys2Proof.RingUnit

open Sys2Proof Sys2Proof.Machine Sys2Proof.Safety Sys2Proof.Laws Sys2Proof.Invariants
  Sys2Proof.Registers Sys2Proof.Requests Sys2Proof.RingFaults

/-! ## The allocation arbiter's choice -/

/-- How far a ring lies after another in ring order, round again to it (R65). -/
def ringDistance (last r : WorkRingId) : Nat := (r.val + 13 - last.val) % 7

theorem ringsAfter_getElem (last : WorkRingId) (i : Nat) (h : i < (ringsAfter last).length) :
    (ringsAfter last)[i].val = (last.val + i) % 7 + 1 := by
  simp [ringsAfter]

theorem ringDistance_ringsAfter (last : WorkRingId) (i : Nat) (h : i < (ringsAfter last).length) :
    ringDistance last (ringsAfter last)[i] = i := by
  have short : i < 7 := by simpa [ringsAfter] using h
  have := last.isLt
  unfold ringDistance
  rw [ringsAfter_getElem]
  omega

theorem ringsAfter_distance (last : WorkRingId) {r : WorkRingId} (h : r ≠ 0) :
    ∃ hi : ringDistance last r < (ringsAfter last).length,
      (ringsAfter last)[ringDistance last r] = r := by
  have range : ringDistance last r < 7 := Nat.mod_lt _ (by decide)
  have length : (ringsAfter last).length = 7 := by simp [ringsAfter]
  refine ⟨by omega, Fin.ext ?_⟩
  have positive : r.val ≠ 0 := fun x => h (Fin.ext x)
  have := r.isLt
  have := last.isLt
  rw [ringsAfter_getElem]
  unfold ringDistance
  omega

theorem nextRing_first {s : State} {c : RingClass} {last r k : WorkRingId}
    (h : nextRing s c last = some r) (zero : k ≠ 0) (cls : (s.workRing k).cls = c)
    (able : eligible s k = true) : ringDistance last r ≤ ringDistance last k := by
  obtain ⟨-, i, hi, rfl, before⟩ := List.find?_eq_some_iff_getElem.mp h
  obtain ⟨hk, place⟩ := ringsAfter_distance last zero
  rw [ringDistance_ringsAfter]
  by_contra less
  have := before _ (by omega : ringDistance last k < i)
  rw [place] at this
  simp [cls, able] at this

theorem nextRing_cls {s : State} {c : RingClass} {last r : WorkRingId}
    (h : nextRing s c last = some r) : (s.workRing r).cls = c := by
  have found := List.find?_some h
  simp only [Bool.and_eq_true, beq_iff_eq] at found
  exact found.1

theorem nextRing_none {s : State} {c : RingClass} {last : WorkRingId} :
    nextRing s c last = none ↔
      ∀ k, k ≠ 0 → (s.workRing k).cls = c → eligible s k = false := by
  unfold nextRing
  rw [List.find?_eq_none]
  constructor
  · intro h k zero cls
    obtain ⟨hk, place⟩ := ringsAfter_distance last zero
    have := h k (place ▸ List.getElem_mem hk)
    simpa [cls] using this
  · intro h k mem
    by_cases cls : (s.workRing k).cls = c
    · simp [h k (ringsAfter_ne_zero mem) cls]
    · simp [cls]

/-- The place of a class at the allocation arbiter (R65). -/
def classRank : RingClass → Nat
  | .urgent => 0
  | .normal => 1
  | .bulk => 2

/-- The ring of a class that was served last (R65). -/
def lastServed (v : Served) : RingClass → WorkRingId
  | .urgent => v.urgent
  | .normal => v.normal
  | .bulk => v.bulk

/-- The positions after a ring has been served. -/
def servedNext (v : Served) (r : WorkRingId) : RingClass → Served
  | .urgent => { v with urgent := r }
  | .normal => { v with normal := r }
  | .bulk => { v with bulk := r }

/-- The ring the allocation arbiter serves, by class and then by ring order (R65). -/
theorem chooseRing_spec {s : State} {r : WorkRingId} {v : Served}
    (h : chooseRing s = some (r, v)) :
    v = servedNext s.served r (s.workRing r).cls ∧
      ((s.workRing r).cls = .bulk → 7 ≤ s.freeSlots.length) ∧
      ∀ k, k ≠ 0 → eligible s k = true →
        classRank (s.workRing r).cls < classRank (s.workRing k).cls ∨
          (classRank (s.workRing r).cls = classRank (s.workRing k).cls ∧
            ringDistance (lastServed s.served (s.workRing r).cls) r ≤
              ringDistance (lastServed s.served (s.workRing r).cls) k) := by
  unfold chooseRing at h
  split at h
  · next urgent =>
    cases h
    rw [nextRing_cls urgent]
    refine ⟨rfl, fun x => (nomatch x), fun k zero able => ?_⟩
    cases cls : (s.workRing k).cls with
    | urgent => exact .inr ⟨rfl, nextRing_first urgent zero cls able⟩
    | normal | bulk => exact .inl (by decide)
  · next noUrgent =>
    have urgent : ∀ k, k ≠ 0 → eligible s k = true → (s.workRing k).cls ≠ .urgent := by
      intro k zero able cls
      rw [nextRing_none.mp noUrgent k zero cls] at able
      cases able
    split at h
    · next normal =>
      cases h
      rw [nextRing_cls normal]
      refine ⟨rfl, fun x => (nomatch x), fun k zero able => ?_⟩
      cases cls : (s.workRing k).cls with
      | urgent => exact absurd cls (urgent k zero able)
      | normal => exact .inr ⟨rfl, nextRing_first normal zero cls able⟩
      | bulk => exact .inl (by decide)
    · next noNormal =>
      split at h
      · next seven =>
        obtain ⟨r', bulk, same⟩ := Option.map_eq_some_iff.mp h
        cases same
        rw [nextRing_cls bulk]
        refine ⟨rfl, fun _ => seven, fun k zero able => ?_⟩
        cases cls : (s.workRing k).cls with
        | urgent => exact absurd cls (urgent k zero able)
        | normal =>
          rw [nextRing_none.mp noNormal k zero cls] at able
          cases able
        | bulk => exact .inr ⟨rfl, nextRing_first bulk zero cls able⟩
      · cases h

theorem chooseRing_none {s : State} : chooseRing s = none ↔ ∀ k, k ≠ 0 → eligible s k = true →
    (s.workRing k).cls = .bulk ∧ s.freeSlots.length < 7 := by
  unfold chooseRing
  constructor
  · intro h
    split at h
    · cases h
    · next noUrgent =>
      split at h
      · cases h
      · next noNormal =>
        intro k zero able
        have hu := nextRing_none.mp noUrgent k zero
        have hn := nextRing_none.mp noNormal k zero
        split at h
        · have hb := nextRing_none.mp (Option.map_eq_none_iff.mp h) k zero
          cases cls : (s.workRing k).cls <;> simp_all
        · next few =>
          cases cls : (s.workRing k).cls with
          | urgent => rw [hu cls] at able; cases able
          | normal => rw [hn cls] at able; cases able
          | bulk => exact ⟨rfl, by omega⟩
  · intro h
    have none_of : ∀ c last, c ≠ .bulk → nextRing s c last = none := by
      intro c last other
      refine nextRing_none.mpr fun k zero cls => ?_
      rw [Bool.eq_false_iff]
      intro able
      exact other (cls.symm.trans (h k zero able).1)
    rw [none_of .urgent _ (by decide), none_of .normal _ (by decide)]
    dsimp only
    split
    · next seven =>
      rw [Option.map_eq_none_iff]
      refine nextRing_none.mpr fun k zero cls => ?_
      rw [Bool.eq_false_iff]
      intro able
      have := (h k zero able).2
      omega
    · rfl

theorem freeSlots_head {s : State} {i : SlotId} (idle : s.workFetch = none)
    (h : s.freeSlots.head? = some i) : s.slot i = none ∧ ∀ j, j < i → s.slot j ≠ none := by
  unfold State.freeSlots at h
  rw [List.head?_filter, idle] at h
  obtain ⟨free, k, hk, rfl, before⟩ := List.find?_eq_some_iff_getElem.mp h
  simp only [Bool.and_true, Option.isNone_iff_eq_none] at free before
  refine ⟨free, fun j hj => ?_⟩
  have place : allSlots[k] = ⟨k, by simpa [allSlots] using hk⟩ := by simp [allSlots]
  rw [place] at hj
  have := before j.val hj
  rw [← Option.isSome_iff_ne_none]
  simpa [allSlots] using this

/-! ## What the ring unit does of itself -/

theorem begun_some {o : OutputRing} (active : o.state = .active) (idle : o.access = .idle)
    (bytes : List Byte) : o.begun (some bytes) =
      if (o.written - o.consumed).toNat < o.size then o.beginRecord bytes else o := by
  have room : o.writable = decide ((o.written - o.consumed).toNat < o.size) := by
    unfold OutputRing.writable OutputRing.full OutputRing.unconsumed
    rw [active, idle, Bool.eq_iff_iff]
    simp only [beq_self_eq_true, Bool.true_and, Bool.not_eq_true', decide_eq_false_iff_not,
      decide_eq_true_eq]
    omega
  unfold OutputRing.begun
  dsimp only
  rw [room]
  simp only [decide_eq_true_eq]

theorem serviced_begins_record {s t : State} (h : Serviced s t) (live : s.device ≠ .halted)
    {q : ResultRingId} {r : ResultRecord} {rest : List ResultRecord}
    (active : (s.resultRing q).out.state = .active) (idle : (s.resultRing q).out.access = .idle)
    (pending : (s.resultRing q).pending = r :: rest) :
    if ((s.resultRing q).out.written - (s.resultRing q).out.consumed).toNat
        < (s.resultRing q).out.size then
      (t.resultRing q).out = (s.resultRing q).out.beginRecord (resultBytes r)
    else (t.resultRing q).out = (s.resultRing q).out := by
  have still : s.resultCloses q = false := by
    unfold State.resultCloses
    rw [active, pending]
    simp
  have head : ∃ more, (t.resultRing q).pending = r :: more := by
    rcases eq_or_ne q 0 with rfl | zero
    · cases detail : closeDetail s with
      | none => exact ⟨rest, ((h.admin live detail).2.1).trans pending⟩
      | some d =>
        obtain ⟨a, admin⟩ := closeDetail_admin detail
        have answer := h.answer live a d admin detail
        rw [if_pos active] at answer
        exact ⟨_, answer.2.1.trans (by rw [pending]; rfl)⟩
    · exact ⟨rest, (h.otherResults q zero).1.trans pending⟩
  obtain ⟨more, head⟩ := head
  have out := h.out live q
  rw [still, head] at out
  have begun := out.trans (begun_some active idle _)
  split
  · next room => exact begun.trans (if_pos room)
  · next full => exact begun.trans (if_neg full)

theorem serviced_begins_notice {s t : State} (h : Serviced s t) (live : s.device ≠ .halted)
    {n : NoticeRecord} {rest : List NoticeRecord} (active : s.notice.state = .active)
    (idle : s.notice.access = .idle) (waits : s.adminWaits .closingNotice = false)
    (buffer : s.buffer = n :: rest) :
    if (s.notice.written - s.notice.consumed).toNat < s.notice.size then
      t.notice = s.notice.beginRecord (noticeBytes n)
    else t.notice = s.notice := by
  have still : s.noticeCloses = false := by
    unfold State.noticeCloses
    rw [waits, Bool.false_and]
  have notice := h.notice live
  rw [still, buffer] at notice
  have begun := notice.trans (begun_some active idle _)
  split
  · next room => exact begun.trans (if_pos room)
  · next full => exact begun.trans (if_neg full)

/-- The rings that the allocation arbiter may serve, the work rings having been judged. -/
theorem eligible_served {s t : State} (h : Serviced s t) (live : s.device ≠ .halted)
    {r : WorkRingId} (zero : r ≠ 0) :
    eligible { s with work := t.work } r = true ↔ (t.workRing r).state = .active ∧
      0 < ((s.workRing r).posted - (s.workRing r).fetched).toNat ∧
      s.ringSlots r < (s.workRing r).credit := by
  have ring : ({ s with work := t.work } : State).workRing r = t.workRing r := rfl
  have slots : ({ s with work := t.work } : State).ringSlots r = s.ringSlots r := rfl
  have same := h.work live r zero
  unfold eligible WorkRing.ahead
  rw [ring, slots]
  generalize (t.workRing r) = w at same
  subst same
  simp only [Bool.and_eq_true, beq_iff_eq, decide_eq_true_eq, and_assoc]

theorem served_cls {s t : State} (h : Serviced s t) (live : s.device ≠ .halted)
    {r : WorkRingId} (zero : r ≠ 0) :
    (({ s with work := t.work } : State).workRing r).cls = (s.workRing r).cls :=
  (congrArg WorkRing.cls (h.work live r zero) :)

/-- R65, R66: what the allocation arbiter reserves and whom it serves. -/
theorem serviced_fetch {s t : State} (h : Serviced s t) (live : s.device ≠ .halted)
    (running : s.device = .running) (idle : s.workFetch = none) {able : WorkRingId → Prop}
    (able_iff : ∀ r, able r ↔ r ≠ 0 ∧ eligible { s with work := t.work } r = true) :
    ((s.freeSlots = [] ∨ ∀ r, able r → (s.workRing r).cls = .bulk ∧ s.freeSlots.length < 7) →
      t.workFetch = none ∧ t.served = s.served) ∧
    (s.freeSlots ≠ [] →
      (∃ r, able r ∧ ((s.workRing r).cls ≠ .bulk ∨ 7 ≤ s.freeSlots.length)) →
      ∃ r i, able r ∧
        (∀ k, able k → classRank (s.workRing r).cls < classRank (s.workRing k).cls ∨
          (classRank (s.workRing r).cls = classRank (s.workRing k).cls ∧
            ringDistance (lastServed s.served (s.workRing r).cls) r
              ≤ ringDistance (lastServed s.served (s.workRing r).cls) k)) ∧
        s.slot i = none ∧ (∀ j, j < i → s.slot j ≠ none) ∧
        t.workFetch = some {
          ring := r, slot := i, stopped := false
          addr := entryAddr (s.workRing r).base (s.workRing r).size (s.workRing r).fetched } ∧
        t.served = servedNext s.served r (s.workRing r).cls) := by
  have fetch := h.fetch live
  rw [if_pos ⟨running, idle⟩] at fetch
  constructor
  · intro nothing
    have none : (t.workFetch, t.served) = (none, s.served) := by
      rw [fetch]
      rcases nothing with empty | poor
      · rw [empty]
        rfl
      · have : chooseRing { s with work := t.work } = none := by
          refine chooseRing_none.mpr fun k zero elig => ?_
          rw [served_cls h live zero]
          exact poor k ((able_iff k).mpr ⟨zero, elig⟩)
        rw [this]
        split <;> simp_all
    exact ⟨congrArg Prod.fst none, congrArg Prod.snd none⟩
  · rintro some_free ⟨k, hk, rich⟩
    obtain ⟨zero, elig⟩ := (able_iff k).mp hk
    cases choice : chooseRing { s with work := t.work } with
    | none =>
      have poor := chooseRing_none.mp choice k zero elig
      rw [served_cls h live zero] at poor
      have few : s.freeSlots.length < 7 := poor.2
      rcases rich with other | seven
      · exact absurd poor.1 other
      · omega
    | some p =>
      obtain ⟨r, v⟩ := p
      obtain ⟨rzero, relig⟩ := chooseRing_eligible choice
      obtain ⟨served, -, first⟩ := chooseRing_spec choice
      obtain ⟨i, is, free⟩ := List.exists_cons_of_ne_nil some_free
      have head : s.freeSlots.head? = some i := by rw [free]; rfl
      rw [head, choice] at fetch
      obtain ⟨slot, lowest⟩ := freeSlots_head idle head
      rw [served_cls h live rzero] at served first
      refine ⟨r, i, (able_iff r).mpr ⟨rzero, relig⟩, fun k hk => ?_, slot, lowest,
        congrArg Prod.fst fetch, (congrArg Prod.snd fetch).trans served⟩
      obtain ⟨kzero, kelig⟩ := (able_iff k).mp hk
      have := first k kzero kelig
      rwa [served_cls h live kzero] at this

theorem serviced_adminFetch {s t : State} (h : Serviced s t) (live : s.device ≠ .halted)
    (idle : s.adminFetch = none) :
    (s.device = .running → (s.workRing 0).state = .active → s.admin = none →
      0 < ((s.workRing 0).posted - (s.workRing 0).fetched).toNat →
      t.adminFetch = some (entryAddr (s.workRing 0).base (s.workRing 0).size
        (s.workRing 0).fetched)) ∧
    (s.device ≠ .running ∨ (s.workRing 0).state ≠ .active ∨ t.admin ≠ none ∨
      (s.workRing 0).posted = (s.workRing 0).fetched → t.adminFetch = none) := by
  have fetch := h.adminFetch live
  constructor
  · intro running active free posted
    have noAnswer : closeDetail s = none := by
      unfold closeDetail
      rw [free]
    exact fetch.trans (if_pos ⟨running, idle, ((h.admin live noAnswer).1).trans free, active, posted⟩)
  · intro no
    refine (fetch.trans (if_neg ?_)).trans idle
    rintro ⟨running, -, free, active, posted⟩
    rcases no with x | x | x | x
    · exact x running
    · exact x active
    · exact x free
    · unfold WorkRing.ahead at posted
      rw [x, BitVec.sub_self] at posted
      simp at posted

/-! ## The ends of a result ring's writes -/

theorem tellSender_setResultRing (who : Sender) (s : State) (q : ResultRingId) (x : ResultRing) :
    tellSender who (s.setResultRing q x) = (tellSender who s).setResultRing q x := by
  cases who <;> rfl

theorem exec_resultRecordWritten {q : ResultRingId} {s : State} {w : HostWrite} {r : ResultRecord}
    {rest : List ResultRecord} (live : s.device ≠ .halted)
    (record : (s.resultRing q).out.access = .record w false)
    (pending : (s.resultRing q).pending = r :: rest) :
    exec (.resultRecordWritten q) s = .next (serviceRings ((tellSender r.sender s).setResultRing q
      { s.resultRing q with
        out := (s.resultRing q).out.recordWritten s.ms, pending := rest })) := by
  refine congrArg Host.Outcome.next ?_
  unfold resultWritten
  dsimp only
  rw [record]
  refine (if_pos (live_of_ne live)).trans ?_
  rw [pending]
  exact congrArg serviceRings (tellSender_setResultRing r.sender s q _)

theorem begun_access (o : OutputRing) (n : Option (List Byte)) : (o.begun n).access = o.access ∨
    ∃ bytes, (o.begun n).access =
      .record { addr := entryAddr o.base o.size o.written, bytes := bytes } false := by
  unfold OutputRing.begun
  cases n with
  | none => exact .inl rfl
  | some bytes =>
    dsimp only
    split
    · exact .inr ⟨bytes, rfl⟩
    · exact .inl rfl

/-- The next record's write may begin once the rings are served. -/
theorem serviced_access {s t : State} (h : Serviced s t) (n : RingName) :
    (t.outRing n).access = (s.outRing n).access ∨ ∃ bytes, (t.outRing n).access =
      .record { addr := entryAddr (s.outRing n).base (s.outRing n).size (s.outRing n).written
                bytes := bytes } false := by
  by_cases halted : s.device = .halted
  · rw [h.halted halted]
    exact .inl rfl
  · cases n with
    | result q =>
      have begun := begun_access
        (if s.resultCloses q = true then (s.resultRing q).out.closed else (s.resultRing q).out)
        ((t.resultRing q).pending.head?.map resultBytes)
      rw [← h.out halted q] at begun
      split at begun <;> exact begun
    | notice =>
      have begun := begun_access (if s.noticeCloses = true then s.notice.closed else s.notice)
        (s.buffer.head?.map noticeBytes)
      rw [← h.notice halted] at begun
      split at begun <;> exact begun

/-! ## Codes -/

theorem known_eq {known : Option UnitNo → Byte} (h : ∀ u, known u = if u = none then 0 else 1)
    (u : Option UnitNo) : flagBit u.isSome 0 = known u := by
  rw [h]
  cases u <;> rfl

theorem le40_eq {id : Option UnitNo → List Byte}
    (h : ∀ u, id u = match u with
      | none => [0, 0, 0, 0, 0]
      | some v => [v.extractLsb' 0 8, v.extractLsb' 8 8, v.extractLsb' 16 8, v.extractLsb' 24 8,
          v.extractLsb' 32 8]) (u : Option UnitNo) : le40 (u.getD 0) = id u := by
  rw [h]
  cases u <;> rfl

/-- Settles O48. -/
theorem ringUnitWritesAndFetches : Obligations.RingUnitWritesAndFetches := by
  refine ⟨?_, fun q s w r rest signals live record pending active => ?_,
    fun n s w stale progress => ?_, fun st => ?_, fun last => ?_, fun st => rfl, ?_⟩
  · rintro s _ rfl live
    have h := serviceRings_serviced s
    refine ⟨fun q r rest active idle pending => serviced_begins_record h live active idle pending,
      fun n rest active idle waits buffer => ⟨h.buffer, ?_⟩,
      fun able rank last running idle able_iff rank_eq last_eq => ?_,
      serviced_adminFetch h live⟩
    · have begins := serviced_begins_notice h live active idle waits buffer
      split
      · next room =>
        rw [if_pos room] at begins
        refine begins.trans ?_
        unfold OutputRing.beginRecord noticeBytes
        cases n.line with
        | none => rfl
        | some l => cases l <;> rfl
      · next full =>
        rw [if_neg full] at begins
        exact begins
    · have eligible_iff : ∀ r, able r ↔
          r ≠ 0 ∧ eligible { s with work := (serviceRings s).work } r = true := fun r => by
        rw [able_iff]
        exact and_congr_right fun zero => (eligible_served h live zero).symm
      have ranks : ∀ r, rank r = classRank (s.workRing r).cls := fun r => by
        rw [rank_eq]
        cases (s.workRing r).cls <;> rfl
      have lasts : ∀ r, last r = lastServed s.served (s.workRing r).cls := fun r => by
        rw [last_eq]
        cases (s.workRing r).cls <;> rfl
      obtain ⟨nothing, serves⟩ := serviced_fetch h live running idle eligible_iff
      refine ⟨nothing, fun free some_able => ?_⟩
      obtain ⟨r, i, hr, first, slot, lowest, fetch, served⟩ := serves free some_able
      refine ⟨r, i, hr, fun k hk => ?_, slot, lowest, fetch, served.trans ?_⟩
      · rw [ranks, ranks, lasts]
        exact first k hk
      · cases (s.workRing r).cls <;> rfl
  · have run := exec_resultRecordWritten live record pending
    rw [recordWritten_eq _ _ active, tellSender_eq] at run
    exact ⟨_, _, run, rfl, (serviceRings_serviced _).slots, serviceRings_serviced _⟩
  · refine ⟨_, exec_progressWritten progress, serviceRings_serviced _, ?_⟩
    have access := serviced_access
      (serviceRings_serviced (s.setOutRing n { s.outRing n with access := .idle })) n
    rw [outRing_setOutRing_self] at access
    exact access
  · cases st <;> rfl
  · rcases last with _ | last
    · rfl
    · cases last <;> rfl
  · intro body known id num zero hknown hid hnum hzero
    have flag := known_eq hknown
    have number := le40_eq hid
    have half : ∀ v, le16 v = num v := fun v => (hnum v).symm
    have none : le40 0 = zero := hzero.symm
    have present : ∀ v, le40 v = id (some v) := fun v => number (some v)
    cases body
    case lineUp origin => cases origin <;> rfl
    case reflexDropped k reason => cases reason <;> rfl
    case postIgnored ring reason count =>
      dsimp only
      rw [← half]
      cases reason <;> rfl
    all_goals
      simp only [noticeSource, noticeKind, noticeFields, tableFields, number, half, none, ← flag]
    case nodeNotice | nodeFound | nodeSilent | nodeBack => rfl
    case nodeReplaced => rw [present]; rfl
    case nodeMoved => rfl
    case nodeClash former _ => cases former <;> rfl
    case lineDown left => cases left <;> rfl
    case ringFault ring reason _ => cases ring <;> cases reason <;> rfl

end Sys2Proof.RingUnit

/-! Field lines: overwritten updates, grants, the line monitor, the timers, the gap, the backoff and the
windows. -/

namespace Sys2Proof.FieldLines

open Sys2Proof Sys2Proof.Machine Sys2Proof.Safety Sys2Proof.Laws Sys2Proof.Registers

/-! ## Overwritten updates -/

@[simp] theorem setEngine_setEngine (s : State) (l : Line) (e f : LineEngine) :
    (s.setEngine l e).setEngine l f = s.setEngine l f := by cases l <;> rfl

@[simp] theorem setEngine_self (s : State) (l : Line) : s.setEngine l (s.engine l) = s := by
  cases l <;> rfl

@[simp] theorem setSlot_setSlot (s : State) (i : SlotId) (x y : Option Slot) :
    (s.setSlot i x).setSlot i y = s.setSlot i y :=
  congrArg (fun v => { s with slots := v }) (Vector.set_set _ _)

@[simp] theorem setQueue_setQueue (s : State) (l : Line) (q r : List QueuedCall) :
    (s.setQueue l q).setQueue l r = s.setQueue l r := by cases l <;> rfl

/-! ## Tries and grants -/

theorem beginTry_eq {l : Line} {s : State} {st : Step} (step : (s.engine l).step = some st) :
    beginTry l s = s.setEngine l { s.engine l with
      state := .calling, frame := callFrame st.call, frameStarted := false, quiet := false,
      next := .none, step := some { st with tries := st.tries + 1 } } := by
  simp only [beginTry, step]

theorem afterGap_quiet {l : Line} {s : State} (quiet : (s.engine l).quiet = true) :
    afterGap l s = beginTry l s := if_pos quiet

theorem afterGap_waits {l : Line} {s : State} (quiet : (s.engine l).quiet = false) :
    afterGap l s = s.setEngine l { s.engine l with next := .gap } :=
  if_neg (by rw [quiet]; exact Bool.false_ne_true)

/-- A grant of a line that has been high for one gap begins the step's first try at once. -/
theorem grantStep_quiet {l : Line} {s : State} (quiet : (s.engine l).quiet = true) (h : Holder)
    (c : Call) (limit : Nat) : grantStep l h c limit s = granted l h c limit s := by
  unfold grantStep beginStep
  rw [setEngine_setEngine, engine_setEngine_self, afterGap_quiet (by rw [engine_setEngine_self]; exact quiet),
    beginTry_eq (by rw [engine_setEngine_self]), setEngine_setEngine, engine_setEngine_self]
  rfl

theorem granted_holder (l : Line) (h : Holder) (c : Call) (limit : Nat) (s : State) :
    ((granted l h c limit s).engine l).holder = h := by
  unfold granted
  rw [engine_setEngine_self]

theorem grantStep_holder {l : Line} {s : State} (quiet : (s.engine l).quiet = true) (h : Holder)
    (c : Call) (limit : Nat) : ((grantStep l h c limit s).engine l).holder = h := by
  rw [grantStep_quiet quiet, granted_holder]

theorem lineFree_iff {s : State} {l : Line} : lineFree s l = true ↔
    (s.engine l).state = .idle ∧ (s.engine l).holder = .none ∧ (s.engine l).quiet = true := by
  simp [lineFree, and_assoc]

theorem grantSlot_holder {i : SlotId} {x : Slot} {s : State}
    (quiet : (s.engine x.line).quiet = true) :
    grantSlot i x s = s ∨ ((grantSlot i x s).engine x.line).holder = .slot i := by
  unfold grantSlot
  cases x.work with
  | unknown => exact .inl rfl
  | call w => exact .inr (grantStep_holder (s := s.setSlot i _) quiet _ _ _)
  | sweep w =>
    dsimp only [grantSweep]
    cases w.step with
    | none => exact .inl rfl
    | some a => exact .inr (grantStep_holder (s := s.setSlot i _) quiet _ _ _)
  | param w =>
    dsimp only [grantCommit]
    cases (w.atGrant s x).phase with
    | none => exact .inl rfl
    | some p =>
      refine .inr (grantStep_holder ?_ _ _ _)
      unfold commitAtGrant
      split <;> exact quiet
  | discover w =>
    dsimp only [grantDiscover]
    cases (discoverAtGrant w s).1.stepCall with
    | none => exact .inl rfl
    | some c =>
      refine .inr (grantStep_holder ?_ _ _ _)
      unfold discoverAtGrant
      cases w.phase <;> exact quiet

/-- The arbiter leaves the engine of its line, or grants the line. -/
theorem arbiter_engine (l : Line) (s : State) :
    (arbiter l s).engine l = s.engine l ∨ ((arbiter l s).engine l).holder ≠ .none := by
  unfold arbiter
  split
  · next may =>
    have quiet := (lineFree_iff.1 may.2).2.2
    split
    · unfold grantReflex
      split
      · exact .inl rfl
      · exact .inr (by rw [grantStep_holder quiet]; nofun)
    · split
      · refine .inr ?_
        dsimp only [grantListen]
        rw [grantStep_holder ?_]
        · nofun
        · rw [engine_setEngine_self]
          cases (s.engine l).series <;> exact quiet
      · split
        · next i x chosen =>
          obtain ⟨_, _, line⟩ := chooseSlot_ready chosen
          subst line
          rcases grantSlot_holder (i := i) quiet with same | holder
          · exact .inl (congrArg (fun m => m.engine x.line) same)
          · exact .inr (by rw [holder]; nofun)
        · exact .inl rfl
  · exact .inl rfl

theorem judgeLine_engine (l : Line) (s : State) (k : Line) :
    (judgeLine l s).engine k = s.engine k := by
  simp only [State.engine, judgeLine_lines]

theorem settleLine_engine (l : Line) (s : State) :
    (settleLine l s).engine l = s.engine l ∨ ((settleLine l s).engine l).holder ≠ .none := by
  unfold settleLine
  rw [judgeLine_engine]
  rcases arbiter_engine l (judgeLine l s) with same | holder
  · exact .inl (same.trans (judgeLine_engine l s l))
  · exact .inr holder

theorem serviceRings_engine (s : State) (l : Line) :
    (serviceRings s).engine l = s.engine l := by
  simp only [State.engine, (serviceRings_serviced s).lines]

/-! ## The line monitor and the timers -/

theorem risen_eq (d : Word) (e : LineEngine) : e.risen d = match e.state with
    | .down => { e with
        sense := true, lowTimer := 0, state := .restoring, origin := .down, debounce := some d }
    | .restoring => { e with sense := true, lowTimer := 0, debounce := some d }
    | _ => { e with sense := true, lowTimer := 0 } := by
  unfold LineEngine.risen
  cases e.state <;> rfl

theorem exec_senseRise {s : State} (live : s.device ≠ .halted) (l : Line) :
    exec (.senseRise l) s = .next (afterLine l
      (judgeRings (s.setEngine l ((s.engine l).risen (s.ms + 500))))) :=
  congrArg Host.Outcome.next (if_pos (live_of_ne live))

theorem exec_senseRise_halted {s : State} (halted : s.device = .halted) (l : Line) :
    exec (.senseRise l) s = .next (s.setEngine l { s.engine l with sense := true }) :=
  congrArg Host.Outcome.next (if_neg (by rw [not_live halted]; exact Bool.false_ne_true))

theorem fallen_eq (e : LineEngine) : e.fallen =
    if e.state = .restoring then { e with sense := false, debounce := none }
    else { e with sense := false } := by
  unfold LineEngine.fallen
  cases e.state <;> rfl

/-- Settles O34. -/
theorem senseEdgesMoveTheDebounce : Obligations.SenseEdgesMoveTheDebounce := by
  refine ⟨fun l s => ⟨fun halted => exec_senseRise_halted halted l, fun live => ?_⟩, fun l s => ?_⟩
  · refine ⟨_, _, exec_senseRise live l, ?_, afterLine_after l _, ?_, rfl, rfl, rfl, fun _ => rfl⟩
    · exact worked_judgeRings (worked_setEngine (worked_refl s) l _)
    · exact (engine_setEngine_self s l _).trans (risen_eq _ _)
  · show Host.Outcome.next (senseFalls l s) = _
    unfold senseFalls
    simp only [fallen_eq]
    by_cases halted : s.device = .halted
    · simp only [not_live halted, halted, Bool.false_eq_true, if_false, ne_eq, not_true_eq_false,
        false_and]
    · simp only [live_of_ne halted, halted, if_true, ne_eq, not_false_eq_true, true_and]

theorem due_some {s : State} {d : Word} (h : (s.ms - d).toNat < 2 ^ 31) : s.due (some d) = true :=
  decide_eq_true h

/-- Settles O36. -/
theorem settleAndListenTimersExpire : Obligations.SettleAndListenTimersExpire := by
  intro l s d live passed
  refine ⟨fun running => ⟨_, ?_, afterLine_after l _⟩, fun running => ⟨_, ?_, afterLine_after l _⟩⟩
  · exact congrArg Host.Outcome.next (if_pos ⟨live_of_ne live, by rw [running]; exact due_some passed⟩)
  · exact congrArg Host.Outcome.next (if_pos ⟨live_of_ne live, by rw [running]; exact due_some passed⟩)

/-! ## The gap, the backoff and the windows -/

/-- Settles O37. -/
theorem gapAndBackoffBeginTheTry : Obligations.GapAndBackoffBeginTheTry := by
  intro l s live idle
  refine ⟨fun st step held waits => ?_, fun st n step waits => ?_, fun free => ?_, ?_⟩
  · show Host.Outcome.next (gapPasses l s) = _
    simp only [gapPasses, live_of_ne live, idle, waits, if_true, beginTry, engine_setEngine_self, step,
      setEngine_setEngine]
  · show Host.Outcome.next (backoffPasses l s) = _
    unfold backoffPasses
    rw [if_pos (live_of_ne live), idle, waits]
    exact congrArg Host.Outcome.next (beginTry_eq step)
  · have decides : exec (.gapComplete l) s =
        .next (afterLine l (s.setEngine l { s.engine l with quiet := true })) := by
      show Host.Outcome.next (gapPasses l s) = _
      unfold gapPasses
      simp only [live_of_ne live, idle, free, if_true]
    refine ⟨_, decides, afterLine_after l _, ?_⟩
    unfold afterLine
    rw [serviceRings_engine]
    rcases settleLine_engine l (s.setEngine l { s.engine l with quiet := true }) with same | holder
    · exact .inl (by rw [same, engine_setEngine_self])
    · exact .inr holder
  · show Host.Outcome.next (rxGoesLow l s) = _
    unfold rxGoesLow
    rw [if_pos ⟨live_of_ne live, by rw [idle]; nofun⟩]

/-- Settles O38. -/
theorem framesOpenAndFillTheWindows : Obligations.FramesOpenAndFillTheWindows := by
  refine ⟨fun l s live => ⟨fun awaiting => ?_, fun listening => ?_⟩,
    fun l s st live calling step => ?_⟩
  · show Host.Outcome.next (frameStarts l s) = _
    simp only [frameStarts, live_of_ne live, awaiting, if_true]
  · show Host.Outcome.next (frameStarts l s) = _
    simp only [frameStarts, live_of_ne live, listening, if_true]
  · have sent : exec (.frameSent l) s = .next (frameIsSent l st s) := by
      show Host.Outcome.next (frameEnds l s) = _
      simp only [frameEnds, live_of_ne live, calling, step, if_true]
    refine ⟨fun reply => ?_, fun reply series => ?_⟩
    · rw [sent, frameIsSent, reply]
      rfl
    · rw [sent, frameIsSent, reply, series]
      rfl

end Sys2Proof.FieldLines

/-! The ends of slots: what the end of a slot of each kind makes of the state, and what it leaves. -/

namespace Sys2Proof.SlotEnds

open Sys2Proof Sys2Proof.Machine Sys2Proof.Safety Sys2Proof.Laws Sys2Proof.RingFaults
  Sys2Proof.FieldLines

/-! ## Entries -/

@[simp] theorem setTable_setTable (s : State) (l : Line) (t u : Vector NodeEntry 80) :
    (s.setTable l t).setTable l u = s.setTable l u := by cases l <;> rfl

@[simp] theorem setTable_self (s : State) (l : Line) : s.setTable l (s.table l) = s := by
  cases l <;> rfl

@[simp] theorem setEntry_setEntry (s : State) (l : Line) (a : Addr) (e f : NodeEntry) :
    (s.setEntry l a e).setEntry l a f = s.setEntry l a f := by
  simp only [State.setEntry, table_setTable_self, setTable_setTable, Vector.set_set]

@[simp] theorem setEntry_self (s : State) (l : Line) (a : Addr) :
    s.setEntry l a (s.entry l a) = s := by
  have same : (s.table l).set a (s.entry l a) = s.table l := Vector.set_getElem_self _
  unfold State.setEntry
  rw [same, setTable_self]

theorem releaseLock_eq (l : Line) (a : Addr) (i : SlotId) (s : State) :
    releaseLock l a i s = s.setEntry l a { s.entry l a with
      lock := if (s.entry l a).lock = some i then none else (s.entry l a).lock } := by
  unfold releaseLock
  split
  · rfl
  · exact (setEntry_self s l a).symm

/-- The commit outcome update and the release of the lock give the entry after the commit's end. -/
theorem releaseLock_commitUpdate (l : Line) (i : SlotId) (w : ParamWork) (s : State) :
    releaseLock l w.addr i (commitUpdate l w s) =
      s.setEntry l w.addr (committed i w (s.entry l w.addr)) := by
  rw [releaseLock_eq]
  unfold commitUpdate committed
  cases w.outcome <;>
    simp only [setEntry_setEntry, entry_setEntry_self, true_and, false_and, if_false, reduceCtorEq]

/-! ## A decided result -/

theorem submitResult_slot {q : ResultRingId} {r : ResultRecord} {i : SlotId} (sender : r.sender = .slot i)
    (s : State) (y : Option Slot) : submitResult q r (s.setSlot i y) =
      if (s.resultRing q).out.state = .active then
        (s.setSlot i y).setResultRing q
          { s.resultRing q with pending := (s.resultRing q).pending ++ [r] }
      else (s.setSlot i none).setResultRing q
        { s.resultRing q with lost := min 65535 ((s.resultRing q).lost + 1) } := by
  have loses : loseResult q (s.setSlot i y) r = (s.setSlot i none).setResultRing q
      { s.resultRing q with lost := min 65535 ((s.resultRing q).lost + 1) } := by
    unfold loseResult
    rw [sender]
    exact congrArg (fun m => m.setResultRing q
      { s.resultRing q with lost := min 65535 ((s.resultRing q).lost + 1) }) (setSlot_setSlot s i y none)
  unfold submitResult
  rw [setSlot_resultRing]
  cases state : (s.resultRing q).out.state with
  | active => simp only [state, if_true]
  | closed => simpa only [state, reduceCtorEq, if_false] using loses
  | faulted => simpa only [state, reduceCtorEq, if_false] using loses

/-- The state from which the end of a slot decides its result: a commit has released its lock. -/
def unlocked (i : SlotId) (x : Slot) (s : State) : State :=
  match x.work with
  | .param w => releaseLock x.line w.addr i s
  | .call _ | .sweep _ | .discover _ | .unknown => s

theorem finishSlot_eq {s : State} {i : SlotId} {x : Slot} (h : s.slot i = some x) (st : Status) :
    finishSlot i st s = ended i x st (slotDetail s st x) (unlocked i x s) := by
  have form : finishSlot i st s = submitResult ((unlocked i x s).workRing x.ring).bound
      (resultOf i x st (slotDetail s st x))
      ((unlocked i x s).setSlot i (some (finished i x st (slotDetail s st x)))) := by
    unfold finishSlot
    rw [h]
    rfl
  exact form.trans (submitResult_slot rfl _ _)

theorem unlocked_plain {x : Slot} (plain : ∀ w, x.work ≠ .param w) (i : SlotId) (s : State) :
    unlocked i x s = s := by
  unfold unlocked
  cases work : x.work with
  | param w => exact absurd work (plain w)
  | _ => rfl

/-- The detail reads no slot. -/
theorem slotDetail_setSlot (s : State) (i : SlotId) (y : Option Slot) (st : Status) (x : Slot) :
    slotDetail (s.setSlot i y) st x = slotDetail s st x := rfl

/-! ## The end of a slot, by its kind -/

theorem ended_setSlot (i : SlotId) (x : Slot) (st : Status) (d : List Byte) (s : State)
    (y : Option Slot) : ended i x st d (s.setSlot i y) = ended i x st d s := by
  unfold ended
  simp only [RingTakes, setSlot_setSlot, setSlot_resultRing, setSlot_workRing]

theorem endSlot_direct {s : State} {i : SlotId} {x : Slot} (h : s.slot i = some x)
    (noCommit : ∀ w, x.work ≠ .param w) (noDiscovery : ∀ w, x.work ≠ .discover w) (st : Status)
    (narrow : Bool) : endSlot i st narrow s = ended i x st (slotDetail s st x) s := by
  have finish := finishSlot_eq h st
  rw [unlocked_plain noCommit] at finish
  unfold endSlot
  rw [h]
  dsimp only
  split
  · next w work => exact absurd work (noCommit w)
  · next w work => exact absurd work (noDiscovery w)
  all_goals exact finish

/-- A slot that holds no commit is finished as it is put. -/
theorem finishSlot_put {i : SlotId} {y : Slot} (plain : ∀ w, y.work ≠ .param w) (st : Status)
    (s : State) : finishSlot i st (s.setSlot i (some y)) = ended i y st (slotDetail s st y) s := by
  rw [finishSlot_eq (slot_setSlot_self _ _ _), unlocked_plain plain, slotDetail_setSlot, ended_setSlot]

theorem endSlot_discovery {s : State} {i : SlotId} {x : Slot} {w : DiscoverWork}
    (h : s.slot i = some x) (work : x.work = .discover w) (st : Status) (narrow : Bool) :
    endSlot i st narrow s = ended i { x with work := .discover (w.endedBy st) } st
      (slotDetail s st { x with work := .discover (w.endedBy st) }) s := by
  unfold endSlot
  rw [h]
  dsimp only
  rw [work]
  exact finishSlot_put (y := { x with work := .discover (w.endedBy st) }) (fun _ => nofun) st s

theorem slotDetail_commit {s n : State} (ms : n.ms = s.ms) {x : Slot} {w : ParamWork}
    (work : x.work = .param w) (st : Status) : slotDetail n st x = slotDetail s st x := by
  unfold slotDetail
  rw [work, ms]

theorem commitUpdate_ms (l : Line) (w : ParamWork) (s : State) :
    (commitUpdate l w s).ms = s.ms := by
  unfold commitUpdate
  cases w.outcome <;> rfl

/-- A commit with its outcome is finished: its entry follows the outcome. -/
theorem finishSlot_commit {i : SlotId} {y : Slot} {v : ParamWork} (work : y.work = .param v)
    (st : Status) (s : State) :
    finishSlot i st (commitUpdate y.line v (s.setSlot i (some y))) =
      ended i y st (slotDetail s st y)
        (s.setEntry y.line v.addr (committed i v (s.entry y.line v.addr))) := by
  have held : (commitUpdate y.line v (s.setSlot i (some y))).slot i = some y :=
    (commitUpdate_slot _ _ _ _).trans (slot_setSlot_self _ _ _)
  have open_ : unlocked i y (commitUpdate y.line v (s.setSlot i (some y))) =
      (s.setEntry y.line v.addr (committed i v (s.entry y.line v.addr))).setSlot i (some y) := by
    unfold unlocked
    rw [work]
    exact releaseLock_commitUpdate y.line i v _
  rw [finishSlot_eq held, open_, ended_setSlot, slotDetail_commit (commitUpdate_ms _ _ _) work]
  rfl

/-- The end of a started commit: its entry follows the outcome, its result is decided. -/
theorem endSlot_commit {s : State} {i : SlotId} {x : Slot} {w v : ParamWork} {st : Status}
    {narrow : Bool} (h : s.slot i = some x) (work : x.work = .param w) (started : x.started = true)
    (outcome : v = { w with outcome := commitOutcome st narrow w }) :
    endSlot i st narrow s = ended i { x with work := .param v } st
      (slotDetail s st { x with work := .param v })
      (s.setEntry x.line v.addr (committed i v (s.entry x.line v.addr))) := by
  unfold endSlot
  rw [h]
  dsimp only
  rw [work]
  dsimp only [finishCommit]
  rw [← outcome, if_pos started]
  exact finishSlot_commit (y := { x with work := .param v }) rfl st s

/-- A commit is finished without an outcome for its entry. -/
theorem finishSlot_released {i : SlotId} {y : Slot} {v : ParamWork} (work : y.work = .param v)
    (st : Status) (s : State) : finishSlot i st (s.setSlot i (some y)) =
      ended i y st (slotDetail s st y) (releaseLock y.line v.addr i s) := by
  have open_ : unlocked i y (s.setSlot i (some y)) =
      (releaseLock y.line v.addr i s).setSlot i (some y) := by
    unfold unlocked
    rw [work]
    dsimp only
    rw [releaseLock_eq, releaseLock_eq]
    rfl
  rw [finishSlot_eq (slot_setSlot_self _ _ _), open_, ended_setSlot]
  rfl

/-- The end of a commit that has not begun: nothing but its lock is touched at its entry. -/
theorem endSlot_unstarted {s : State} {i : SlotId} {x : Slot} {w v : ParamWork} {st : Status}
    {narrow : Bool} (h : s.slot i = some x) (work : x.work = .param w) (started : x.started = false)
    (outcome : v = { w with outcome := commitOutcome st narrow w }) :
    endSlot i st narrow s = ended i { x with work := .param v } st
      (slotDetail s st { x with work := .param v }) (releaseLock x.line v.addr i s) := by
  unfold endSlot
  rw [h]
  dsimp only
  rw [work]
  dsimp only [finishCommit]
  rw [← outcome, if_neg (by rw [started]; exact Bool.false_ne_true)]
  exact finishSlot_released (y := { x with work := .param v }) rfl st s

/-! ## What a decided result leaves -/

section

variable (i : SlotId) (x : Slot) (st : Status) (d : List Byte) (s : State)

theorem ended_rest : { ended i x st d s with slots := s.slots, results := s.results } = s := by
  unfold ended
  split <;> rfl

@[simp] theorem ended_lines : (ended i x st d s).lines = s.lines :=
  (congrArg State.lines (ended_rest i x st d s) :)

@[simp] theorem ended_engine (l : Line) : (ended i x st d s).engine l = s.engine l := by
  simp only [State.engine, ended_lines]

@[simp] theorem ended_nodes : (ended i x st d s).nodes = s.nodes :=
  (congrArg State.nodes (ended_rest i x st d s) :)

@[simp] theorem ended_table (l : Line) : (ended i x st d s).table l = s.table l := by
  simp only [State.table, ended_nodes]

@[simp] theorem ended_entry (l : Line) (a : Addr) :
    (ended i x st d s).entry l a = s.entry l a := by
  simp only [State.entry, ended_table]

@[simp] theorem ended_buffer : (ended i x st d s).buffer = s.buffer :=
  (congrArg State.buffer (ended_rest i x st d s) :)

@[simp] theorem ended_lost : (ended i x st d s).lost = s.lost :=
  (congrArg State.lost (ended_rest i x st d s) :)

@[simp] theorem ended_queues : (ended i x st d s).queues = s.queues :=
  (congrArg State.queues (ended_rest i x st d s) :)

@[simp] theorem ended_admin : (ended i x st d s).admin = s.admin :=
  (congrArg State.admin (ended_rest i x st d s) :)

@[simp] theorem ended_work : (ended i x st d s).work = s.work :=
  (congrArg State.work (ended_rest i x st d s) :)

@[simp] theorem ended_draws : (ended i x st d s).draws = s.draws :=
  (congrArg State.draws (ended_rest i x st d s) :)

@[simp] theorem ended_device : (ended i x st d s).device = s.device :=
  (congrArg State.device (ended_rest i x st d s) :)

@[simp] theorem ended_ms : (ended i x st d s).ms = s.ms :=
  (congrArg State.ms (ended_rest i x st d s) :)

theorem ended_slot_self : (ended i x st d s).slot i =
    if RingTakes x s then some (finished i x st d) else none := by
  unfold ended
  split <;> simp only [setResultRing_slot, slot_setSlot_self]

theorem ended_slot_ne {j : SlotId} (h : j ≠ i) : (ended i x st d s).slot j = s.slot j := by
  unfold ended
  split <;> exact slot_setSlot_ne s _ h

/-- What the end of a slot decides, over a state that has the same rings. -/
theorem ended_decided {n : State} (results : n.resultRing = s.resultRing)
    (rings : n.workRing = s.workRing) : Decided i x st d s (ended i x st d n) := by
  have takes : RingTakes x n ↔ RingTakes x s := by
    unfold RingTakes
    rw [results, rings]
  refine ⟨fun h => ⟨?_, ?_, ?_⟩, fun h => ⟨?_, ?_, ?_⟩⟩
  · rw [ended_slot_self, if_pos (takes.2 h)]
  · unfold ended
    rw [if_pos (takes.2 h), rings, resultRing_setResultRing_self, results]
  · unfold ended
    rw [if_pos (takes.2 h), rings, resultRing_setResultRing_self, results]
  · rw [ended_slot_self, if_neg (mt takes.1 h)]
  · unfold ended
    rw [if_neg (mt takes.1 h), rings, resultRing_setResultRing_self, results]
  · unfold ended
    rw [if_neg (mt takes.1 h), rings, resultRing_setResultRing_self, results]

end

end Sys2Proof.SlotEnds

/-! The node table apart from the rest of the state: what the reports of steps and the updates of the
table read is the table, the notice buffer, the time and the silence threshold, and what they write is
the table and the notice buffer. -/

namespace Sys2Proof.Reports

open Sys2Proof Sys2Proof.Machine Sys2Proof.Safety Sys2Proof.Laws Sys2Proof.NodeTable
  Sys2Proof.FieldLines Sys2Proof.SlotEnds

/-! ## Updates of the table -/

/-- A state with the node tables and the notice buffer of another one. -/
def withTables (n s : State) : State := { n with nodes := s.nodes, buffer := s.buffer, lost := s.lost }

/-- A state agrees with another one on what updates of a line's table read beside the table. -/
structure Reads (l : Line) (n s : State) : Prop where
  ms : n.ms = s.ms
  silence : (n.engine l).config.silence = (s.engine l).config.silence

/-- An update of the node tables and their notices. -/
def TableUpdate (l : Line) (f : State → State) : Prop :=
  ∀ n s, Reads l n s → f (withTables n s) = withTables n (f s)

theorem reads_refl (l : Line) (s : State) : Reads l s s := ⟨rfl, rfl⟩

theorem TableUpdate.frame {l : Line} {f : State → State} (h : TableUpdate l f) (s : State) :
    f s = withTables s (f s) := h s s (reads_refl l s)

theorem Reads.after {l : Line} {f : State → State} (h : TableUpdate l f) {n s : State}
    (r : Reads l n s) : Reads l n (f s) := by
  rw [h.frame s]
  exact ⟨r.ms, r.silence⟩

theorem TableUpdate.comp {l : Line} {f g : State → State} (hg : TableUpdate l g)
    (hf : TableUpdate l f) : TableUpdate l fun s => g (f s) := fun n s r =>
  (congrArg g (hf n s r)).trans (hg n (f s) (r.after hf))

theorem tableUpdate_id (l : Line) : TableUpdate l fun s => s := fun _ _ _ => rfl

theorem tableUpdate_foldl {α : Type} {l : Line} {f : State → α → State}
    (hf : ∀ a, TableUpdate l fun s => f s a) (xs : List α) :
    TableUpdate l fun s => xs.foldl f s := by
  induction xs with
  | nil => exact tableUpdate_id l
  | cons a xs ih => exact ih.comp (hf a)

theorem tableUpdate_createNotice (l : Line) (k : Option Line) (b : NoticeBody) :
    TableUpdate l (createNotice k b) := by
  intro n s r
  unfold createNotice
  show (if s.buffer.length < 16 then _ else _) = _
  split
  · simp only [withTables, r.ms]
  · rfl

theorem tableUpdate_hear (l : Line) (a : Addr) : TableUpdate l (hear l a) := by
  intro n s r
  have heard : ((withTables n s).setEntry l a ((s.entry l a).heard n.ms)) =
      withTables n (s.setEntry l a ((s.entry l a).heard s.ms)) := by
    rw [r.ms]
    rfl
  have entry : (withTables n s).entry l a = s.entry l a := rfl
  have ms : (withTables n s).ms = n.ms := rfl
  unfold hear
  simp only [entry, ms, heard]
  cases (s.entry l a).state with
  | silent => exact tableUpdate_createNotice l _ _ n _ ⟨r.ms, r.silence⟩
  | _ => rfl

theorem tableUpdate_missStep (l : Line) (a : Addr) : TableUpdate l (missStep l a) := by
  intro n s r
  unfold missStep
  have entry : (withTables n s).entry l a = s.entry l a := rfl
  have silence : ((withTables n s).engine l).config.silence = (s.engine l).config.silence := r.silence
  simp only [entry, silence]
  split
  · exact tableUpdate_createNotice l _ _ n (s.setEntry l a _) ⟨r.ms, r.silence⟩
  · rfl

theorem tableUpdate_garbleStep (l : Line) (a : Addr) (all : Bool) :
    TableUpdate l (garbleStep l a all) := by
  intro n s r
  unfold garbleStep
  have entry : (withTables n s).entry l a = s.entry l a := rfl
  simp only [entry]
  split
  · exact tableUpdate_createNotice l _ _ n (s.setEntry l a _) ⟨r.ms, r.silence⟩
  · rfl

theorem tableUpdate_noteAll (l : Line) (bodies : List (Option NoticeBody)) :
    TableUpdate l (noteAll l bodies) := by
  refine tableUpdate_foldl (fun body => ?_) bodies
  cases body with
  | none => exact tableUpdate_id l
  | some b => exact tableUpdate_createNotice l _ b

theorem vacateFormer_withTables (l : Line) (former : Option Addr) (n s : State) :
    vacateFormer l former (withTables n s) = withTables n (vacateFormer l former s) := by
  cases former <;> rfl

theorem tableUpdate_writeIdentity (l : Line) (a : Addr) (u : UnitNo) :
    TableUpdate l (writeIdentity l a u) := by
  intro n s r
  rw [writeIdentity_eq (s := withTables n s) (former := holderOf s l a u) rfl,
    writeIdentity_eq (s := s) rfl, ← tableUpdate_noteAll l _ n _ ?_, ← vacateFormer_withTables]
  · rfl
  · cases holderOf s l a u <;> exact ⟨r.ms, r.silence⟩

theorem tableUpdate_writeKindZones (l : Line) (a : Addr) (kind : Byte) (zones : ZoneSet) :
    TableUpdate l (writeKindZones l a kind zones) := fun _ _ _ => rfl

theorem tableUpdate_writePingData (l : Line) (a : Addr) (d : UnitNo × Byte × ZoneSet) :
    TableUpdate l (writePingData l a d) := by
  intro n s r
  have entry : (withTables n s).entry l a = s.entry l a := rfl
  unfold writePingData
  rw [entry]
  split
  · rfl
  · exact (tableUpdate_writeKindZones l a _ _).comp (tableUpdate_writeIdentity l a _) n s r

theorem tableUpdate_hearReply (l : Line) (a : Addr) (verb : BitVec 6) (r : Reply) :
    TableUpdate l (hearReply l a verb r) := by
  unfold hearReply
  cases pingData r.data with
  | none => exact tableUpdate_hear l a
  | some d =>
    dsimp only
    split
    · exact (tableUpdate_writePingData l a d).comp (tableUpdate_hear l a)
    · exact tableUpdate_hear l a

theorem tableUpdate_assignUpdate (l : Line) (a : Addr) (d : UnitNo × Byte × ZoneSet) :
    TableUpdate l (assignUpdate l a d) := by
  intro n s r
  have entry : (withTables n s).entry l a = s.entry l a := rfl
  have ms : (withTables n s).ms = s.ms := r.ms
  unfold assignUpdate
  simp only [entry, ms]
  split
  · rfl
  · have k : TableUpdate l fun m => writeKindZones l a d.2.1 d.2.2 (writeIdentity l a d.1
        (createNotice (some l) (.nodeFound a d.1 d.2.1) m)) :=
      (tableUpdate_writeKindZones l a _ _).comp
        ((tableUpdate_writeIdentity l a _).comp (tableUpdate_createNotice l _ _))
    exact k n (s.setEntry l a _) ⟨r.ms, r.silence⟩

/-- The report of a step is an update of the table. -/
theorem tableUpdate_reportStep (l : Line) (c : Call) (g : Bool) (o : TryOutcome) :
    TableUpdate l (reportStep l c g o) := by
  by_cases told : ∃ a, c.target = .node a ∧ c.reply = true
  · obtain ⟨a, target, reply⟩ := told
    intro n s r
    rw [reportStep_of_node target reply, reportStep_of_node target reply]
    cases o with
    | replied r' => exact tableUpdate_hearReply l a _ _ n s r
    | noReply => exact tableUpdate_missStep l a n s r
    | garbled => exact tableUpdate_garbleStep l a _ n s r
    | sent => rfl
    | collided => rfl
  · have untold : c.reply = false ∨ ∀ a, c.target ≠ .node a := by
      rcases Bool.eq_false_or_eq_true c.reply with reply | silent
      · exact .inr fun a target => told ⟨a, target, reply⟩
      · exact .inl silent
    intro n s _
    rw [reportStep_unreported untold, reportStep_unreported untold]

theorem tableUpdate_followAssign (l : Line) (w : DiscoverWork) (o : TryOutcome) :
    TableUpdate l (followAssign l w o) := by
  unfold followAssign
  split
  · exact tableUpdate_assignUpdate l _ _
  · exact tableUpdate_id l

theorem tableUpdate_unassignAllUpdate (l : Line) : TableUpdate l (unassignAllUpdate l) := by
  refine tableUpdate_foldl (fun a => ?_) _
  intro n s _
  have entry : (withTables n s).entry l a = s.entry l a := rfl
  simp only [entry]
  split <;> rfl

theorem tableUpdate_followUnassign (l : Line) (w : CallWork) (o : TryOutcome) :
    TableUpdate l (followUnassign l w o) := by
  unfold followUnassign
  split
  · split
    · split
      · exact fun _ _ _ => rfl
      · exact tableUpdate_id l
    · exact tableUpdate_unassignAllUpdate l
    · exact tableUpdate_id l
  · exact tableUpdate_id l

/-! ## What such an update leaves -/

section

variable {l : Line} {f : State → State} (h : TableUpdate l f) (s : State)

include h

/-- On a state with the same tables the update makes the same tables. -/
theorem TableUpdate.on {n : State} (r : Reads l n s) (nodes : n.nodes = s.nodes)
    (buffer : n.buffer = s.buffer) (lost : n.lost = s.lost) : f n = withTables n (f s) := by
  have same : n = withTables n s := by rw [withTables, ← nodes, ← buffer, ← lost]
  exact (congrArg f same).trans (h n s r)

/-- An update of the table and one of the line's engine that keeps the settings commute. -/
theorem TableUpdate.setEngine {e : LineEngine} (config : e.config = (s.engine l).config) :
    f (s.setEngine l e) = (f s).setEngine l e := by
  have r : Reads l (s.setEngine l e) s := ⟨rfl, by rw [engine_setEngine_self, config]⟩
  rw [h.on s r rfl rfl rfl, h.frame s]
  rfl

theorem TableUpdate.setSlot (i : SlotId) (x : Option Slot) :
    f (s.setSlot i x) = (f s).setSlot i x := by
  rw [h.on s (n := s.setSlot i x) ⟨rfl, rfl⟩ rfl rfl rfl, h.frame s]
  rfl

theorem TableUpdate.lines : (f s).lines = s.lines := (congrArg State.lines (h.frame s) :)
theorem TableUpdate.slots : (f s).slots = s.slots := (congrArg State.slots (h.frame s) :)
theorem TableUpdate.results : (f s).results = s.results := (congrArg State.results (h.frame s) :)
theorem TableUpdate.work : (f s).work = s.work := (congrArg State.work (h.frame s) :)
theorem TableUpdate.queues : (f s).queues = s.queues := (congrArg State.queues (h.frame s) :)
theorem TableUpdate.admin : (f s).admin = s.admin := (congrArg State.admin (h.frame s) :)
theorem TableUpdate.draws : (f s).draws = s.draws := (congrArg State.draws (h.frame s) :)
theorem TableUpdate.msKept : (f s).ms = s.ms := (congrArg State.ms (h.frame s) :)
theorem TableUpdate.device : (f s).device = s.device := (congrArg State.device (h.frame s) :)

theorem TableUpdate.engine (k : Line) : (f s).engine k = s.engine k := by
  simp only [State.engine, h.lines]

theorem TableUpdate.slot (i : SlotId) : (f s).slot i = s.slot i := by
  simp only [State.slot, h.slots]

theorem TableUpdate.resultRing : (f s).resultRing = s.resultRing := by
  funext q
  simp only [State.resultRing, h.results]

theorem TableUpdate.workRing : (f s).workRing = s.workRing := by
  funext r
  simp only [State.workRing, h.work]

end

end Sys2Proof.Reports

/-! The ends of tries and of steps: what a command that ends a slot's step does before the slot's kind
judges it. -/

namespace Sys2Proof.Steps

open Sys2Proof Sys2Proof.Machine Sys2Proof.Safety Sys2Proof.Laws Sys2Proof.Invariants
  Sys2Proof.Registers Sys2Proof.FieldLines Sys2Proof.SlotEnds Sys2Proof.Reports

/-! ## What the end of a slot leaves -/

theorem setSlot_self {s : State} {i : SlotId} {o : Option Slot} (h : s.slot i = o) :
    s.setSlot i o = s := by
  subst h
  exact congrArg (fun v => { s with slots := v }) (Vector.set_getElem_self _)

theorem ended_restored (i : SlotId) (x : Slot) (st : Status) (d : List Byte) (s m : State) :
    { ended i x st d m with slots := s.slots, results := s.results, nodes := s.nodes } =
      { m with slots := s.slots, results := s.results, nodes := s.nodes } := by
  unfold ended
  split <;> rfl

/-- The end of a slot changes slots, results on their way and entries, and nothing else. -/
theorem endSlot_rest (i : SlotId) (st : Status) (narrow : Bool) (s : State) :
    { endSlot i st narrow s with slots := s.slots, results := s.results, nodes := s.nodes } = s := by
  cases hx : s.slot i with
  | none => simp only [endSlot, hx]
  | some x =>
    by_cases commit : ∃ w, x.work = .param w
    · obtain ⟨w, work⟩ := commit
      rcases Bool.eq_false_or_eq_true x.started with started | started
      · rw [endSlot_commit hx work started rfl]
        exact ended_restored i _ st _ s _
      · rw [endSlot_unstarted hx work started rfl, releaseLock_eq]
        exact ended_restored i _ st _ s _
    · by_cases discovery : ∃ w, x.work = .discover w
      · obtain ⟨w, work⟩ := discovery
        rw [endSlot_discovery hx work]
        exact ended_restored i _ st _ s _
      · rw [endSlot_direct hx (not_exists.1 commit) (not_exists.1 discovery)]
        exact ended_restored i _ st _ s _

/-- What a slot's own update or end leaves: the slots but its own, and all but the slots, the results
and the entries. -/
structure SlotLeaves (i : SlotId) (s t : State) : Prop where
  other : ∀ j, j ≠ i → t.slot j = s.slot j
  rest : { t with slots := s.slots, results := s.results, nodes := s.nodes } = s

theorem slotLeaves_slotMove {i : SlotId} {s t : State} (h : SlotMove i s t) : SlotLeaves i s t := by
  cases h with
  | stays => exact ⟨fun _ _ => rfl, rfl⟩
  | put y => exact ⟨fun j hj => slot_setSlot_ne s _ hj, rfl⟩
  | ends y st narrow =>
    refine ⟨fun j hj => (endSlot_other st narrow _ hj).trans (slot_setSlot_ne s _ hj), ?_⟩
    exact congrArg (fun m : State => { m with slots := s.slots })
      (endSlot_rest i st narrow (s.setSlot i (some y)))

/-- What the end of a slot's step leaves: the table's update before it may create notices. -/
structure StepLeaves (i : SlotId) (s t : State) : Prop where
  other : ∀ j, j ≠ i → t.slot j = s.slot j
  rest : { t with
    slots := s.slots, results := s.results, nodes := s.nodes, buffer := s.buffer,
    lost := s.lost } = s

theorem tableUpdate_tableMove {l : Line} {s m : State} (h : TableMove l s m) :
    ∃ f, TableUpdate l f ∧ m = f s := by
  cases h with
  | stays => exact ⟨_, tableUpdate_id l, rfl⟩
  | unassign w o => exact ⟨_, tableUpdate_followUnassign l w o, rfl⟩
  | assign w o => exact ⟨_, tableUpdate_followAssign l w o, rfl⟩

theorem stepLeaves_stepMove {i : SlotId} {s t : State} (h : StepMove i s t) : StepLeaves i s t := by
  obtain ⟨l, m, table, slot⟩ := h
  obtain ⟨f, update, rfl⟩ := tableUpdate_tableMove table
  obtain ⟨other, rest⟩ := slotLeaves_slotMove slot
  refine ⟨fun j hj => (other j hj).trans (update.slot s j), ?_⟩
  rw [update.frame s] at rest
  exact congrArg (fun m : State => { m with
    slots := s.slots, results := s.results, nodes := s.nodes, buffer := s.buffer,
    lost := s.lost }) rest

/-! ## The end of a try -/

/-- A slot after the end of a try of its step: a lost COMMIT is marked (R108). -/
def noted (o : TryOutcome) (x : Slot) : Slot :=
  match o, x.work with
  | .noReply, .param w | .garbled, .param w =>
    if w.phase = some .commit then { x with work := .param { w with unverified := true } } else x
  | _, _ => x

theorem noteLostCommit_slot {l : Line} {s : State} {i : SlotId} {x : Slot}
    (holder : (s.engine l).holder = .slot i) (slot : s.slot i = some x) (o : TryOutcome) :
    noteLostCommit l o s = s.setSlot i (some (noted o x)) := by
  have mark : markUnverified l s = s.setSlot i (some (noted .garbled x)) := by
    unfold markUnverified noted
    simp only [holder, slot]
    cases x.work with
    | param w =>
      dsimp only
      split
      · rfl
      · exact (setSlot_self slot).symm
    | _ => exact (setSlot_self slot).symm
  have same : noted .noReply x = noted .garbled x := by
    unfold noted
    cases x.work <;> rfl
  cases o with
  | noReply => rw [same]; exact mark
  | garbled => exact mark
  | _ => exact (setSlot_self slot).symm

theorem noteLostCommit_other {l : Line} {s : State} (holder : ∀ i, (s.engine l).holder ≠ .slot i)
    (o : TryOutcome) : noteLostCommit l o s = s := by
  have mark : markUnverified l s = s := by
    unfold markUnverified
    cases h : (s.engine l).holder with
    | slot i => exact absurd h (holder i)
    | _ => rfl
  cases o with
  | noReply => exact mark
  | garbled => exact mark
  | _ => rfl

/-- The state after the end of a try, before the step goes on or ends. -/
def tried (l : Line) (st : Step) (o : TryOutcome) (s : State) : State :=
  noteLostCommit l o (s.setEngine l ((s.engine l).afterTry (st.afterTry o) o))

theorem tried_slot {l : Line} {s : State} {i : SlotId} {x : Slot}
    (holder : (s.engine l).holder = .slot i) (slot : s.slot i = some x) (st : Step)
    (o : TryOutcome) : tried l st o s =
      (s.setEngine l ((s.engine l).afterTry (st.afterTry o) o)).setSlot i (some (noted o x)) :=
  noteLostCommit_slot (s := s.setEngine l _) (by rw [engine_setEngine_self]; exact holder) slot o

theorem tried_other {l : Line} {s : State} (holder : ∀ i, (s.engine l).holder ≠ .slot i)
    (st : Step) (o : TryOutcome) :
    tried l st o s = s.setEngine l ((s.engine l).afterTry (st.afterTry o) o) :=
  noteLostCommit_other (s := s.setEngine l _) (by rw [engine_setEngine_self]; exact holder) o

theorem noteLostCommit_rest (l : Line) (o : TryOutcome) (s : State) :
    { noteLostCommit l o s with slots := s.slots } = s := by
  by_cases h : ∃ i, (s.engine l).holder = .slot i ∧ (s.slot i).isSome = true
  · obtain ⟨i, holder, some⟩ := h
    obtain ⟨x, slot⟩ := Option.isSome_iff_exists.1 some
    rw [noteLostCommit_slot holder slot]
    rfl
  · have mark : markUnverified l s = s := by
      unfold markUnverified
      split
      · next i holder =>
        split
        · next x slot => exact absurd ⟨i, holder, by rw [slot]; rfl⟩ h
        · rfl
      all_goals rfl
    cases o with
    | noReply => exact (congrArg (fun m : State => { m with slots := s.slots }) mark)
    | garbled => exact (congrArg (fun m : State => { m with slots := s.slots }) mark)
    | _ => rfl

theorem tried_rest (l : Line) (st : Step) (o : TryOutcome) (s : State) :
    { tried l st o s with slots := s.slots } =
      s.setEngine l ((s.engine l).afterTry (st.afterTry o) o) :=
  noteLostCommit_rest l o _

theorem cutting_iff (s : State) (l : Line) : s.cutting l = !noCut s l := by
  unfold State.cutting noCut
  cases s.admin with
  | none => rfl
  | some a =>
    obtain ⟨code, tag, phase⟩ := a
    cases phase <;> simp [bne]

theorem noCut_of_noWaiting {s : State} {l : Line} (h : noWaiting s l = true) :
    noCut s l = true := by
  unfold noWaiting at h
  unfold noCut
  cases admin : s.admin with
  | none => rfl
  | some a =>
    rw [admin] at h
    cases phase : a.phase with
    | cutting k d f => simpa [phase] using h
    | _ => simp [phase]

theorem tried_cutting {s : State} {l : Line} (h : noCut s l = true) (st : Step) (o : TryOutcome) :
    (tried l st o s).cutting l = false := by
  have admin : (tried l st o s).admin = s.admin := (congrArg State.admin (tried_rest l st o s) :)
  rw [cutting_iff]
  unfold noCut at h ⊢
  rw [admin, h]
  rfl

theorem endTry_over {l : Line} {s : State} {st : Step} {o : TryOutcome}
    (step : (s.engine l).step = some st) (cut : noCut s l = true)
    (over_ : stepOver (s.engine l) (st.afterTry o) o = true) :
    endTry l o s = endStep l (st.afterTry o) o (tried l st o s) := by
  unfold endTry
  dsimp only
  rw [step]
  have goes := tried_cutting cut st o
  unfold tried at goes
  dsimp only
  rw [goes, if_neg Bool.false_ne_true, if_pos over_]
  rfl

theorem endTry_waits {l : Line} {s : State} {st : Step} {o : TryOutcome}
    (step : (s.engine l).step = some st) (cut : noCut s l = true)
    (over_ : stepOver (s.engine l) (st.afterTry o) o = false) :
    endTry l o s = waitForTry l o (tried l st o s) := by
  unfold endTry
  dsimp only
  rw [step]
  have goes := tried_cutting cut st o
  unfold tried at goes
  dsimp only
  rw [goes, if_neg Bool.false_ne_true, if_neg (by rw [over_]; exact Bool.false_ne_true)]
  rfl

/-! ## The command that ends a try -/

/-- The command that ends a try ends it with its outcome. A frame without reply that ends is not that
of a LISTEN, which opens a window. -/
theorem tryEnds_exec {l : Line} {s : State} {st : Step} {c : Instr} {o : TryOutcome}
    (live : s.device ≠ .halted) (step : (s.engine l).step = some st) (ends : TryEnds l s st c o)
    (noWindow : st.call.reply = false → o = .sent → (s.engine l).holder ≠ .series) :
    exec c s = .next (afterLine l (endTry l o s)) := by
  rcases ends with ⟨rfl, calling, reply, rfl⟩ | ⟨rfl, calling, rfl⟩ | ⟨rfl, awaiting, rfl⟩ |
    ⟨rfl, receiving, rfl⟩ | ⟨frame, rfl, receiving, rfl⟩
  · show Host.Outcome.next (frameEnds l s) = _
    simp only [frameEnds, live_of_ne live, calling, step, if_true, frameIsSent, reply,
      Bool.false_eq_true, if_false, noWindow reply rfl]
  · show Host.Outcome.next (frameCollides l s) = _
    simp only [frameCollides, live_of_ne live, calling, if_true]
  · show Host.Outcome.next (replyTimesOut l s) = _
    simp only [replyTimesOut, live_of_ne live, awaiting, if_true]
  · show Host.Outcome.next (receptionGarbles l s) = _
    simp only [receptionGarbles, live_of_ne live, receiving, if_true]
  · show Host.Outcome.next (replyEnds l frame s) = _
    simp only [replyEnds, live_of_ne live, receiving, step, if_true]
    rfl

/-! ## The report of an ended step -/

/-- A reply asks for the listening of a notice. -/
def asksListen (o : TryOutcome) : Bool :=
  match o with | .replied r => r.noticePending | _ => false

theorem notePending_eq (l : Line) (o : TryOutcome) (s : State) :
    notePending l o s = s.setEngine l { s.engine l with
      listenDue := (s.engine l).listenDue || asksListen o } := by
  have stays : s = s.setEngine l { s.engine l with listenDue := (s.engine l).listenDue || false } := by
    rw [Bool.or_false]
    exact (setEngine_self s l).symm
  unfold notePending asksListen
  cases o with
  | replied r =>
    dsimp only
    cases r.noticePending with
    | true => simp only [if_true, Bool.or_true]
    | false => simpa only [Bool.false_eq_true, if_false] using stays
  | _ => exact stays

theorem reportStep_afterTry (l : Line) (st : Step) (o : TryOutcome) (s : State) :
    reportStep l st.call (st.afterTry o).allGarbled o s = reportStep l st.call st.allGarbled o s := by
  unfold reportStep
  cases o with
  | garbled => simp only [Step.afterTry, Bool.and_true]
  | _ => cases st.call.target <;> rfl

/-- The state in which the holder of a line hears of its step's end (R32). -/
def reported (l : Line) (st : Step) (o : TryOutcome) (s : State) : State :=
  notePending l o (reportStep l st.call (st.afterTry o).allGarbled o (tried l st o s))

/-- The engine then: IDLE again, with the step as its last try has left it. -/
def overEngine (st : Step) (o : TryOutcome) (e : LineEngine) : LineEngine :=
  { e.afterTry (st.afterTry o) o with listenDue := e.listenDue || asksListen o }

theorem reported_other {l : Line} {s : State} (holder : ∀ i, (s.engine l).holder ≠ .slot i)
    (st : Step) (o : TryOutcome) : reported l st o s =
      (reportStep l st.call st.allGarbled o s).setEngine l (overEngine st o (s.engine l)) := by
  unfold reported
  rw [tried_other holder, reportStep_afterTry, (tableUpdate_reportStep l _ _ o).setEngine s
      (e := (s.engine l).afterTry (st.afterTry o) o) rfl, notePending_eq, setEngine_setEngine, engine_setEngine_self]
  rfl

theorem reported_slot {l : Line} {s : State} {i : SlotId} {x : Slot}
    (holder : (s.engine l).holder = .slot i) (slot : s.slot i = some x) (st : Step)
    (o : TryOutcome) : reported l st o s =
      ((reportStep l st.call st.allGarbled o s).setEngine l (overEngine st o (s.engine l))).setSlot i
        (some (noted o x)) := by
  have update := tableUpdate_reportStep l st.call st.allGarbled o
  unfold reported
  rw [tried_slot holder slot, reportStep_afterTry, update.setSlot,
    update.setEngine s (e := (s.engine l).afterTry (st.afterTry o) o) rfl, notePending_eq]
  have engine : (((reportStep l st.call st.allGarbled o s).setEngine l
      ((s.engine l).afterTry (st.afterTry o) o)).setSlot i (some (noted o x))).engine l =
      (s.engine l).afterTry (st.afterTry o) o := engine_setEngine_self _ _ _
  rw [engine]
  exact congrArg (fun m => State.setSlot m i (some (noted o x))) (setEngine_setEngine _ l _ _)

/-! ## The end of a grant -/

theorem afterGrant_noWaiting {s : State} {l : Line} (h : noWaiting s l = true) :
    afterGrant l s = s := by
  unfold noWaiting at h
  unfold afterGrant
  cases admin : s.admin with
  | none => rfl
  | some a =>
    obtain ⟨code, tag, phase⟩ := a
    rw [admin] at h
    cases phase with
    | settingLine k c => exact if_neg (by simpa using h)
    | cutting k d f => exact if_neg (by simpa using h)
    | _ => rfl

theorem grantEnded_noWaiting {s : State} {l : Line} (h : noWaiting s l = true) :
    grantEnded l s = s.setEngine l (grantOver (s.engine l)) :=
  afterGrant_noWaiting (s := s.setEngine l _) h

theorem noWaiting_admin {s n : State} {l : Line} (admin : n.admin = s.admin)
    (h : noWaiting s l = true) : noWaiting n l = true := by
  unfold noWaiting at h ⊢
  rw [admin]
  exact h

theorem StepLeaves.admin {i : SlotId} {s t : State} (h : StepLeaves i s t) : t.admin = s.admin :=
  (congrArg State.admin h.rest :)

theorem StepLeaves.lines {i : SlotId} {s t : State} (h : StepLeaves i s t) : t.lines = s.lines :=
  (congrArg State.lines h.rest :)

/-- What the holder of a line finds when its step has ended (R32, R81): the table has been told, and a
lost COMMIT is marked. -/
structure StepHeard (l : Line) (s : State) (st : Step) (i : SlotId) (x : Slot) (o : TryOutcome)
    (n : State) : Prop where
  slot : n.slot i = some (noted o x)
  other : ∀ j, j ≠ i → n.slot j = s.slot j
  nodes : n.nodes = (reportStep l st.call st.allGarbled o s).nodes
  buffer : n.buffer = (reportStep l st.call st.allGarbled o s).buffer
  lost : n.lost = (reportStep l st.call st.allGarbled o s).lost
  results : n.resultRing = s.resultRing
  work : n.workRing = s.workRing
  ms : n.ms = s.ms
  config : (n.engine l).config = (s.engine l).config

theorem reported_heard {l : Line} {s : State} {i : SlotId} {x : Slot}
    (holder : (s.engine l).holder = .slot i) (slot : s.slot i = some x) (st : Step)
    (o : TryOutcome) : StepHeard l s st i x o (reported l st o s) := by
  have update := tableUpdate_reportStep l st.call st.allGarbled o
  rw [reported_slot holder slot]
  exact
    { slot := slot_setSlot_self _ i _
      other := fun j hj => (slot_setSlot_ne _ _ hj).trans (update.slot s j)
      nodes := rfl
      buffer := rfl
      lost := rfl
      results := update.resultRing s
      work := update.workRing s
      ms := update.msKept s
      config := (congrArg LineEngine.config (engine_setEngine_self
        (reportStep l st.call st.allGarbled o s) l (overEngine st o (s.engine l))) :) }

/-- A command that ends the step of the slot that holds the line: the slot's kind judges the outcome in
the state that has been told, and the grant ends. -/
theorem stepEnds_over {l : Line} {s : State} {st : Step} {i : SlotId} {x : Slot} {c : Instr}
    {o : TryOutcome} (h : StepEnds l s st i x c o) :
    ∃ n m t, StepHeard l s st i x o n ∧ StepOver l s i c o m t ∧
      ∃ e, m = (slotStepEnd i (st.afterTry o) o n).setEngine l e := by
  obtain ⟨live, step, holder, slot, line, waits, ends, last⟩ := h
  have heard := reported_heard holder slot st o
  have run := tryEnds_exec live step ends fun _ _ => by rw [holder]; nofun
  have over_ : stepOver (s.engine l) (st.afterTry o) o = true := by
    unfold stepOver
    cases o with
    | sent => rfl
    | replied r => rfl
    | noReply => exact Bool.or_eq_true_iff.2 (.inl (decide_eq_true (last (.inl rfl))))
    | garbled => exact Bool.or_eq_true_iff.2 (.inl (decide_eq_true (last (.inr (.inl rfl)))))
    | collided => exact Bool.or_eq_true_iff.2 (.inl (decide_eq_true (last (.inr (.inr rfl)))))
  have leaves := stepLeaves_stepMove (stepMove_slotStepEnd i (st.afterTry o) o (reported l st o s))
  have frame := reported_slot holder slot st o
  have update := tableUpdate_reportStep l st.call st.allGarbled o
  have admin : (reported l st o s).admin = s.admin := by rw [frame]; exact update.admin s
  have engine : (slotStepEnd i (st.afterTry o) o (reported l st o s)).engine l =
      overEngine st o (s.engine l) := by
    have same : (slotStepEnd i (st.afterTry o) o (reported l st o s)).engine l =
        (reported l st o s).engine l := by simp only [State.engine, leaves.lines]
    rw [same, frame]
    exact engine_setEngine_self _ l _
  have ended_ : endTry l o s = (slotStepEnd i (st.afterTry o) o (reported l st o s)).setEngine l
      (grantOver (overEngine st o (s.engine l))) := by
    have held : ((tried l st o s).engine l).holder = .slot i := by
      rw [tried_slot holder slot]
      exact (congrArg LineEngine.holder (engine_setEngine_self s l _)).trans holder
    rw [endTry_over step (noCut_of_noWaiting waits) over_]
    unfold endStep
    rw [held]
    dsimp only
    refine (grantEnded_noWaiting (noWaiting_admin (leaves.admin.trans admin) waits)).trans ?_
    rw [show (slotStepEnd i (st.afterTry o) o _).engine l = _ from engine]
  refine ⟨_, endTry l o s, _, heard, ⟨run, worked_endTry (worked_refl s) l o, afterLine_after l _,
    ?_, ?_, ?_, ?_, ?_, ?_⟩, _, ended_⟩
  · rw [ended_, engine_setEngine_self]
    rfl
  · intro k hk
    rw [ended_, engine_setEngine_other _ _ hk]
    have same : (slotStepEnd i (st.afterTry o) o (reported l st o s)).engine k =
        (reported l st o s).engine k := by simp only [State.engine, leaves.lines]
    rw [same, frame]
    exact (engine_setEngine_other _ _ hk).trans (update.engine s k)
  · intro j hj
    rw [ended_]
    exact (leaves.other j hj).trans (heard.other j hj)
  · rw [ended_]
    refine ((congrArg State.queues leaves.rest :) : _).trans ?_
    rw [frame]
    exact update.queues s
  · rw [ended_]
    exact leaves.admin.trans admin
  · rw [ended_]
    refine ((congrArg State.draws leaves.rest :) : _).trans ?_
    rw [frame]
    exact update.draws s

end Sys2Proof.Steps

/-! The ends of a CALL's steps. -/

namespace Sys2Proof.CallEnds

open Sys2Proof Sys2Proof.Machine Sys2Proof.Safety Sys2Proof.Laws Sys2Proof.NodeTable
  Sys2Proof.FieldLines Sys2Proof.SlotEnds Sys2Proof.Reports Sys2Proof.Steps

/-! ## Entries after a report -/

theorem hear_entry (l : Line) (a : Addr) (s : State) :
    (hear l a s).entry l a = (s.entry l a).heard s.ms := by
  unfold hear
  dsimp only
  split <;> simp

theorem hear_entry_ne (l : Line) {a b : Addr} (s : State) (h : b ≠ a) :
    (hear l a s).entry l b = s.entry l b := by
  unfold hear
  dsimp only
  split <;> simp [entry_setEntry_ne s l _ h]

/-- The entry of a node after the report of a step that called it (R45 to R47). -/
def afterReport (s : State) (l : Line) (a : Addr) (g : Bool) (o : TryOutcome) : NodeEntry :=
  match o with
  | .replied _ => (s.entry l a).heard s.ms
  | .noReply => (s.entry l a).missed (s.engine l).config.silence
  | .garbled => (s.entry l a).garbledStep g
  | .sent | .collided => s.entry l a

/-- The report of a step that brings no PING data touches the called node's entry alone. -/
theorem reportStep_entry {l : Line} {c : Call} {a : Addr} {g : Bool} {o : TryOutcome} {s : State}
    (target : c.target = .node a) (reply : c.reply = true)
    (noPing : ∀ r, o = .replied r → c.verb ≠ verbPing) (b : Addr) :
    (reportStep l c g o s).entry l b = if b = a then afterReport s l a g o else s.entry l b := by
  rw [reportStep_of_node target reply]
  by_cases same : b = a
  · subst same
    rw [if_pos rfl]
    cases o with
    | replied r => exact (congrArg (fun m => State.entry m l b)
        (hearReply_eq_hear (.inl (noPing r rfl)))).trans (hear_entry l b s)
    | noReply => exact missStep_entry l b s
    | garbled => exact garbleStep_entry l b g s
    | sent => rfl
    | collided => rfl
  · rw [if_neg same]
    cases o with
    | replied r => exact (congrArg (fun m => State.entry m l b)
        (hearReply_eq_hear (.inl (noPing r rfl)))).trans (hear_entry_ne l s same)
    | noReply => exact missStep_entry_ne l s same
    | garbled => exact garbleStep_entry_ne l g s same
    | sent => rfl
    | collided => rfl

theorem heard_lock (t : Word) (e : NodeEntry) : (e.heard t).lock = e.lock := by
  unfold NodeEntry.heard
  cases e.state <;> rfl

theorem vacateFormer_lock (l : Line) (former : Option Addr) (s : State) (b : Addr) :
    ((vacateFormer l former s).entry l b).lock = (s.entry l b).lock := by
  cases former with
  | none => rfl
  | some c =>
    by_cases same : b = c
    · subst same
      rw [vacateFormer_entry_former]
      rfl
    · rw [vacateFormer_entry s fun e => same (Option.some.inj e).symm]

theorem setEntry_lock {l : Line} {a : Addr} {s : State} {e : NodeEntry}
    (h : e.lock = (s.entry l a).lock) (b : Addr) :
    ((s.setEntry l a e).entry l b).lock = (s.entry l b).lock := by
  by_cases same : b = a
  · subst same
    rw [entry_setEntry_self, h]
  · rw [entry_setEntry_ne s l e same]

theorem writeKindZones_lock (l : Line) (a : Addr) (kind : Byte) (zones : ZoneSet) (s : State)
    (b : Addr) : ((writeKindZones l a kind zones s).entry l b).lock = (s.entry l b).lock :=
  setEntry_lock (e := { s.entry l a with kind := some kind, zones := some zones }) rfl b

theorem writePingData_lock (l : Line) (a : Addr) (d : UnitNo × Byte × ZoneSet) (s : State)
    (b : Addr) : ((writePingData l a d s).entry l b).lock = (s.entry l b).lock := by
  unfold writePingData
  split
  · rfl
  · rw [writeKindZones_lock, writeIdentity_eq rfl, noteAll_entry, vacateFormer_lock]
    exact setEntry_lock (e := withIdentity d.1 _ (s.entry l a)) rfl b

theorem hear_lock (l : Line) (a : Addr) (s : State) (b : Addr) :
    ((hear l a s).entry l b).lock = (s.entry l b).lock := by
  by_cases same : b = a
  · subst same
    rw [hear_entry, heard_lock]
  · rw [hear_entry_ne l s same]

/-- A valid reply leaves the commit locks. -/
theorem hearReply_lock (l : Line) (a : Addr) (v : BitVec 6) (r : Reply) (s : State) (b : Addr) :
    ((hearReply l a v r s).entry l b).lock = (s.entry l b).lock := by
  unfold hearReply
  cases pingData r.data with
  | none => exact hear_lock l a s b
  | some d =>
    dsimp only
    split
    · rw [writePingData_lock, hear_lock]
    · exact hear_lock l a s b

/-! ## The result of a CALL -/

theorem call_no_commit (w : CallWork) (v : ParamWork) : Work.call w ≠ .param v := by nofun

theorem call_no_discovery (w : CallWork) (v : DiscoverWork) : Work.call w ≠ .discover v := by nofun

theorem decideSlot_direct {i : SlotId} {y z : Slot} {v : Work} (put : z = { y with work := v })
    (noCommit : ∀ w, v ≠ .param w) (noDiscovery : ∀ w, v ≠ .discover w) (st : Status)
    (narrow : Bool) (s : State) :
    decideSlot i y v st narrow s = ended i z st (slotDetail s st z) s := by
  unfold decideSlot
  rw [← put]
  have held : (s.setSlot i (some z)).slot i = some z := slot_setSlot_self s i _
  have work : z.work = v := by rw [put]
  rw [endSlot_direct held (by rwa [work]) (by rwa [work]), ended_setSlot, slotDetail_setSlot]

theorem flagBit_or_false (b : Bool) : flagBit false 0 ||| flagBit b 1 = flagBit b 1 :=
  BitVec.zero_or

theorem slotDetail_call {s : State} {st : Status} {z : Slot} {w : CallWork}
    (work : z.work = .call w) (counted : zeroDetail st z = false) :
    slotDetail s st z = callDetail st z.tries w := by
  unfold slotDetail
  rw [counted, work]
  rfl

theorem noted_call {x : Slot} {w : CallWork} (work : x.work = .call w) (o : TryOutcome) :
    noted o x = x := by
  unfold noted
  rw [work]
  cases o <;> rfl

/-- A slot's result decided in a state with other tables. -/
theorem ended_decided_on {i : SlotId} {z : Slot} {st : Status} {d : List Byte} {s n : State}
    {l : Line} {e : LineEngine} (results : n.resultRing = s.resultRing)
    (work : n.workRing = s.workRing) : Decided i z st d s ((ended i z st d n).setEngine l e) :=
  ⟨(ended_decided i z st d s results work).taken, (ended_decided i z st d s results work).lost⟩

/-- The end of a CALL's step, handed over to its kind. -/
theorem callStep_ends {l : Line} {s : State} {st : Step} {i : SlotId} {x : Slot} {c : Instr}
    {o : TryOutcome} {w : CallWork} (h : StepEnds l s st i x c o) (work : x.work = .call w) :
    ∃ n m t, StepHeard l s st i x o n ∧ StepOver l s i c o m t ∧
      ∃ e, m = (callStepEnd i { x with tries := st.tries } w (st.afterTry o).allGarbled o
        n).setEngine l e := by
  obtain ⟨n, m, t, heard, over_, e, rfl⟩ := stepEnds_over h
  refine ⟨n, _, t, heard, over_, e, ?_⟩
  have slot := heard.slot
  rw [noted_call work] at slot
  unfold slotStepEnd
  rw [slot]
  dsimp only
  rw [work]
  rfl

theorem followUnassign_noReply {l : Line} {w : CallWork} {o : TryOutcome} {s : State}
    (h : ∀ r, o ≠ .replied r) (unsent : o ≠ .sent) : followUnassign l w o s = s :=
  followUnassign_idle (.inr ⟨fun _ _ r e => absurd e (h r), fun _ => unsent⟩)

/-- A step without a valid reply ends its CALL (R93, R94). -/
theorem callStepEnd_failed {o : TryOutcome} {status : Status}
    (outcome : (o, status) ∈ [(TryOutcome.noReply, Status.noReply), (.garbled, .garbled),
      (.collided, .collided)]) (i : SlotId) (y : Slot) (w : CallWork) (st : Step) (n : State) :
    callStepEnd i y w (st.afterTry o).allGarbled o n =
      decideSlot i y (.call { w with allGarbled := st.allGarbled && status == .garbled }) status
        false n := by
  simp only [List.mem_cons, Prod.mk.injEq, List.not_mem_nil, or_false] at outcome
  rcases outcome with ⟨rfl, rfl⟩ | ⟨rfl, rfl⟩ | ⟨rfl, rfl⟩
  · unfold callStepEnd
    rw [followUnassign_noReply (by nofun) (by nofun),
      show (Status.noReply == Status.garbled) = false from rfl]
    simp only [Step.afterTry, Bool.and_false]
  · unfold callStepEnd
    rw [followUnassign_noReply (by nofun) (by nofun),
      show (Status.garbled == Status.garbled) = true from rfl]
    simp only [Step.afterTry, Bool.and_true]
  · unfold callStepEnd
    rw [followUnassign_noReply (by nofun) (by nofun),
      show (Status.collided == Status.garbled) = false from rfl]
    simp only [Step.afterTry, Bool.and_false]

/-- Settles O41. -/
theorem lastUnansweredTryEndsTheCall : Obligations.LastUnansweredTryEndsTheCall := by
  intro l s st i x c o w status ends work outcome
  obtain ⟨n, m, t, heard, over_, e, hm⟩ := callStep_ends ends work
  generalize put : ({ x with
    tries := st.tries
    work := .call { w with allGarbled := st.allGarbled && status == .garbled } } : Slot) = z
  have zwork : z.work = .call { w with allGarbled := st.allGarbled && status == .garbled } := by
    rw [← put]
  have ztries : z.tries = st.tries := by rw [← put]
  have decided := decideSlot_direct (i := i) (y := { x with tries := st.tries }) (z := z)
    (v := .call { w with allGarbled := st.allGarbled && status == .garbled }) put.symm (call_no_commit _)
    (call_no_discovery _) status false n
  rw [callStepEnd_failed outcome, decided] at hm
  have plain : carriesData status = false ∧ zeroDetail status z = false := by
    simp only [List.mem_cons, Prod.mk.injEq, List.not_mem_nil, or_false] at outcome
    rcases outcome with ⟨_, rfl⟩ | ⟨_, rfl⟩ | ⟨_, rfl⟩ <;> exact ⟨rfl, rfl⟩
  have detail : slotDetail n status z = [byteOf st.tries, byteOf w.busyRounds,
      lastReplyByte w.lastReply,
      flagBit (st.allGarbled && status == .garbled) 0 ||| flagBit w.noticePending 1, 0]
        ++ padTo 8 [] := by
    rw [slotDetail_call zwork plain.2, ztries]
    unfold callDetail
    rw [plain.1]
    rfl
  rw [detail] at hm
  refine ⟨m, t, over_, hm ▸ ended_decided_on heard.results heard.work, fun a target reply => ?_,
    fun untold => ⟨?_, ?_⟩⟩
  · have entry : ∀ b, m.entry l b = if b = a then afterReport s l a st.allGarbled o
        else s.entry l b := by
      intro b
      rw [hm, setEngine_entry, ended_entry]
      have same : n.entry l b = (reportStep l st.call st.allGarbled o s).entry l b := by
        simp only [State.entry, State.table, heard.nodes]
      rw [same]
      refine reportStep_entry target reply (fun r e => ?_) b
      subst e
      simp at outcome
    refine ⟨fun b hb => (entry b).trans (if_neg hb), ?_, (entry a).trans ((if_pos rfl).trans ?_)⟩
    · rw [hm, setEngine_buffer, ended_buffer]
      exact heard.buffer
    · simp only [List.mem_cons, Prod.mk.injEq, List.not_mem_nil, or_false] at outcome
      rcases outcome with ⟨rfl, rfl⟩ | ⟨rfl, rfl⟩ | ⟨rfl, rfl⟩ <;> rfl
  · rw [hm, setEngine_nodes, ended_nodes, heard.nodes, reportStep_unreported untold]
  · rw [hm, setEngine_buffer, ended_buffer, heard.buffer, reportStep_unreported untold]

/-- A CALL's result, decided in a state with other tables. -/
theorem call_decided {i : SlotId} {y z : Slot} {v : CallWork} {s n : State} {l : Line}
    {e : LineEngine} {status : Status} (put : z = { y with work := .call v })
    (counted : zeroDetail status z = false) (results : n.resultRing = s.resultRing)
    (rings : n.workRing = s.workRing) :
    Decided i z status (callDetail status z.tries v) s
      ((decideSlot i y (.call v) status false n).setEngine l e) := by
  rw [decideSlot_direct put (call_no_commit v) (call_no_discovery v),
    slotDetail_call (w := v) (by rw [put]) counted]
  exact ended_decided_on results rings

/-- What the end of a slot's step leaves of the tables. -/
theorem decideSlot_call_rest {i : SlotId} {y : Slot} {v : CallWork} {n : State} {status : Status} :
    { decideSlot i y (.call v) status false n with slots := n.slots, results := n.results } = n := by
  rw [decideSlot_direct rfl (call_no_commit v) (call_no_discovery v)]
  exact ended_rest i _ status _ n

theorem followUnassign_buffer (l : Line) (w : CallWork) (o : TryOutcome) (s : State) :
    { followUnassign l w o s with nodes := s.nodes } = s := by
  unfold followUnassign
  split
  · split
    · split <;> rfl
    · exact (onlyEntries_unassignAllUpdate l s).1
    · rfl
  · rfl

/-- Settles O39. -/
theorem sentCallEndsOk : Obligations.SentCallEndsOk := by
  intro l s st i x w live calling step reply holder slot line work waits
  have ends : StepEnds l s st i x (.frameSent l) .sent :=
    ⟨live, step, holder, slot, line, waits, .inl ⟨rfl, calling, reply, rfl⟩, by simp⟩
  obtain ⟨n, m, t, heard, over_, e, hm⟩ := callStep_ends ends work
  have untold := (reportStep_sent_collided l st.call st.allGarbled s).1
  have update := tableUpdate_followUnassign l w .sent
  have decides : callStepEnd i { x with tries := st.tries } w (st.afterTry .sent).allGarbled .sent n =
      decideSlot i { x with tries := st.tries } (.call { w with allGarbled := false }) .ok false
        (followUnassign l w .sent n) := by
    unfold callStepEnd
    simp only [Step.afterTry, Bool.and_false, line]
  rw [decides] at hm
  have rest := decideSlot_call_rest (i := i) (y := { x with tries := st.tries })
    (v := { w with allGarbled := false }) (n := followUnassign l w .sent n) (status := .ok)
  have nodes : m.nodes = (followUnassign l w .sent n).nodes := by
    rw [hm]
    exact (congrArg State.nodes rest :)
  have told : n.nodes = s.nodes := by rw [heard.nodes, untold]
  refine ⟨m, t, over_.run, over_.worked, over_.after, ?_, ?_, over_.otherSlot, fun idle => ?_,
    fun verb target => ?_, ?_, over_.queues⟩
  · rw [over_.engine]
    simp only [Bool.and_false, Bool.or_false]
  · have decided := call_decided (i := i) (y := { x with tries := st.tries }) (l := l) (e := e)
      (v := { w with allGarbled := false }) (status := .ok) rfl rfl
      ((update.resultRing n).trans heard.results) ((update.workRing n).trans heard.work)
    rw [← hm] at decided
    unfold callDetail at decided
    rw [flagBit_or_false] at decided
    exact decided
  · rw [nodes, followUnassign_idle, told]
    exact idle.imp_right fun other => ⟨fun _ _ _ => nofun, fun all => absurd all other⟩
  · have all := (followUnassign_spec l w .sent n _ rfl).2.1 verb target rfl
    refine ⟨fun a => ?_, fun k hk => ?_⟩
    · have here : m.entry l a = (followUnassign l w .sent n).entry l a := by
        simp only [State.entry, State.table, nodes]
      have before : n.entry l a = s.entry l a := by simp only [State.entry, State.table, told]
      rw [here, all.2.2 a, before]
    · have here : m.table k = (followUnassign l w .sent n).table k := by
        simp only [State.table, nodes]
      have before : n.table k = s.table k := by simp only [State.table, told]
      rw [here, all.2.1 k hk, before]
  · rw [hm]
    refine ((congrArg State.buffer rest :) : _).trans ?_
    refine ((congrArg State.buffer (followUnassign_buffer l w .sent n) :) : _).trans ?_
    rw [heard.buffer, untold]

/-! ## Valid replies -/

/-- A CALL with a valid reply in its detail. -/
def replied (r : Reply) (w : CallWork) : CallWork :=
  { w with lastReply := some r.status, noticePending := r.noticePending, data := r.data,
           allGarbled := false }

/-- The status of a CALL that a valid reply ends (R91, R92, R94). -/
def replyStatus : ReplyStatus → Status
  | .ok | .done => .ok
  | .refused => .refused
  | .locked => .protected_
  | .busy => .nodeBusy

/-- What a valid reply makes of a CALL, over the table that follows it. -/
theorem callStepEnd_replied (i : SlotId) (y : Slot) (w : CallWork) (st : Step) (r : Reply)
    (n : State) : callStepEnd i y w (st.afterTry (.replied r)).allGarbled (.replied r) n =
      if r.status = .busy ∧ w.busyRounds < w.busyLimit then
        if y.abortPending = true then
          decideSlot i y (.call (replied r w)) .aborted false (followUnassign y.line w (.replied r) n)
        else pauseSlot i y (.call { replied r w with busyRounds := w.busyRounds + 1 })
          (followUnassign y.line w (.replied r) n)
      else decideSlot i y (.call (replied r w)) (replyStatus r.status) false
        (followUnassign y.line w (.replied r) n) := by
  unfold callStepEnd
  simp only [Step.afterTry, Bool.and_false, CallWork.withReply]
  cases status : r.status with
  | busy =>
    by_cases more : w.busyRounds < w.busyLimit
    · simp only [more, and_self, if_true, replied, status]
    · simp only [more, and_false, if_false, replied, status, replyStatus]
  | _ => simp only [reduceCtorEq, false_and, if_false, replied, status, replyStatus]

theorem reportStep_lock {l : Line} {c : Call} {a : Addr} {g : Bool} {r : Reply} {s : State}
    (target : c.target = .node a) (reply : c.reply = true) (b : Addr) :
    ((reportStep l c g (.replied r) s).entry l b).lock = (s.entry l b).lock := by
  rw [reportStep_of_node target reply]
  exact hearReply_lock l a _ r s b

theorem carriesData_replyStatus (st : ReplyStatus) : carriesData (replyStatus st) = true := by
  cases st <;> rfl

theorem zeroDetail_replyStatus (st : ReplyStatus) {z : Slot} {w : CallWork}
    (work : z.work = .call w) : zeroDetail (replyStatus st) z = false := by
  unfold zeroDetail
  rw [work]
  cases st <;> rfl

/-- Settles O42. -/
theorem validReplyEndsTheCall : Obligations.ValidReplyEndsTheCall := by
  intro l s frame st i x w a r live receiving step target reply holder slot line work waits valid
  have ends : StepEnds l s st i x (.replyFrameEnd l frame) (.replied r) :=
    ⟨live, step, holder, slot, line, waits,
      .inr (.inr (.inr (.inr ⟨frame, rfl, receiving, by rw [valid]⟩))), by simp⟩
  obtain ⟨n, m, t, heard, over_, e, hm⟩ := callStep_ends ends work
  rw [callStepEnd_replied] at hm
  have update := tableUpdate_followUnassign l w (.replied r)
  generalize fol : followUnassign ({ x with tries := st.tries } : Slot).line w (.replied r) n = f at hm
  have follow : f = followUnassign l w (.replied r) n := by rw [← fol, ← line]
  have tables : f = withTables n (followUnassign l w (.replied r)
      (reportStep l st.call st.allGarbled (.replied r) s)) := by
    rw [follow]
    refine update.on _ ⟨?_, ?_⟩ heard.nodes heard.buffer heard.lost
    · exact heard.ms.trans ((tableUpdate_reportStep l _ _ _).msKept s).symm
    · rw [heard.config, (tableUpdate_reportStep l _ _ _).engine s]
  have fring : f.resultRing = s.resultRing := by
    rw [follow]; exact (update.resultRing n).trans heard.results
  have fwork : f.workRing = s.workRing := by
    rw [follow]; exact (update.workRing n).trans heard.work
  have rest : { m with slots := f.slots, results := f.results, lines := f.lines } = f := by
    rw [hm]
    split
    · split
      · exact congrArg (fun m : State => { m with lines := f.lines }) decideSlot_call_rest
      · rfl
    · exact congrArg (fun m : State => { m with lines := f.lines }) decideSlot_call_rest
  have nodes : m.nodes = (followUnassign l w (.replied r)
      (reportStep l st.call st.allGarbled (.replied r) s)).nodes := by
    refine ((congrArg State.nodes rest :) : _).trans ?_
    rw [tables]
    rfl
  have told : ∀ b, m.entry l b = (followUnassign l w (.replied r)
      (reportStep l st.call st.allGarbled (.replied r) s)).entry l b := fun b => by
    simp only [State.entry, State.table, nodes]
  refine ⟨m, t, over_.run, over_.worked, over_.after, ?_, over_.otherSlot, fun ping verb => ?_, nodes,
    ?_, ?_, fun verb node ok => ?_, fun busy more calm => ?_, fun busy more pending started => ?_,
    fun finished => ?_⟩
  · rw [over_.engine]
    simp only [Bool.and_false]
  · have entry : ∀ b, m.entry l b = if b = a then (s.entry l a).heard s.ms else s.entry l b := by
      intro b
      rw [told, followUnassign_idle (.inl verb), reportStep_entry target reply fun _ _ => ping]
      rfl
    exact ⟨(entry a).trans (if_pos rfl), fun b hb => (entry b).trans (if_neg hb)⟩
  · refine ((congrArg State.buffer rest :) : _).trans ?_
    rw [tables]
    exact (congrArg State.buffer (followUnassign_buffer l w (.replied r) _) :)
  · refine ((congrArg State.lost rest :) : _).trans ?_
    rw [tables]
    exact (congrArg State.lost (followUnassign_buffer l w (.replied r) _) :)
  · rw [told, (followUnassign_spec l w (.replied r) _ _ rfl).1 a verb node ⟨r, rfl, ok⟩,
      entry_setEntry_self, reportStep_lock target reply]
  · rw [if_pos ⟨busy, more⟩, if_neg (by rw [calm]; exact Bool.false_ne_true)] at hm
    refine ⟨{ x with
        tries := st.tries, state := .paused
        work := .call { replied r w with busyRounds := w.busyRounds + 1 }
        pollAt := some (f.after (f.engine x.line).config.pollInterval) },
      { replied r w with busyRounds := w.busyRounds + 1 }, ?_, rfl, rfl, rfl, rfl, ?_⟩
    · rw [hm]
      exact slot_setSlot_self f i _
    · have ms : f.ms = s.ms := by
        rw [follow]; exact (update.msKept n).trans heard.ms
      have config : (f.engine x.line).config = (s.engine l).config := by
        rw [follow, update.engine n, line]; exact heard.config
      show some (f.after (f.engine x.line).config.pollInterval) = _
      rw [State.after, ms, config]
  · rw [if_pos ⟨busy, more⟩, if_pos pending] at hm
    have decided := call_decided (i := i) (y := { x with tries := st.tries }) (l := l) (e := e)
      (v := replied r w) (status := .aborted) rfl (by simp [zeroDetail, started]) fring fwork
    rw [← hm] at decided
    unfold callDetail replied at decided
    rw [flagBit_or_false, busy] at decided
    exact decided
  · rw [if_neg (fun ⟨busy, more⟩ => finished.elim (fun other => other busy) fun less =>
      absurd more (Nat.not_lt.2 less))] at hm
    have decided := call_decided (i := i) (y := { x with tries := st.tries }) (l := l) (e := e)
      (v := replied r w) (status := replyStatus r.status) rfl (zeroDetail_replyStatus _ rfl) fring fwork
    rw [← hm] at decided
    unfold callDetail replied at decided
    rw [flagBit_or_false, carriesData_replyStatus] at decided
    cases status : r.status <;> rw [status] at decided <;> exact decided

end Sys2Proof.CallEnds

/-! Judgement: the reasons as propositions, what the judgement of one slot does, and why the judgement
of a line ends with every slot in the state that the reasons give it. -/

namespace Sys2Proof.Judgement

open Sys2Proof Sys2Proof.Machine Sys2Proof.Safety Sys2Proof.Laws Sys2Proof.FieldLines
  Sys2Proof.SlotEnds Sys2Proof.Steps

/-! ## The reasons -/

theorem anyOther_iff {s : State} {i : SlotId} {p : Slot → Bool} :
    anyOther s i p = true ↔ ∃ j y, j ≠ i ∧ s.slot j = some y ∧ p y = true := by
  unfold anyOther
  rw [List.any_eq_true]
  constructor
  · rintro ⟨j, -, h⟩
    rw [Bool.and_eq_true, bne_iff_ne] at h
    obtain ⟨ne, holds⟩ := h
    cases slot : s.slot j with
    | none => rw [slot] at holds; cases holds
    | some y =>
      rw [slot] at holds
      exact ⟨j, y, ne, slot, holds⟩
  · rintro ⟨j, y, ne, slot, holds⟩
    refine ⟨j, List.mem_finRange j, ?_⟩
    rw [Bool.and_eq_true, bne_iff_ne, slot]
    exact ⟨ne, holds⟩

theorem slotsIntersect_iff {s : State} {x y : Slot} : slotsIntersect s x y = true ↔
    ∃ a, inSlotTarget s x a = true ∧ inSlotTarget s y a = true := by
  unfold slotsIntersect
  simp [allAddrs, List.any_eq_true]

theorem lockedByOther_iff {s : State} {l : Line} {i : SlotId} {a : Addr} :
    lockedByOther s l i a = true ↔ ∃ j, (s.entry l a).lock = some j ∧ j ≠ i := by
  unfold lockedByOther
  cases (s.entry l a).lock <;> simp

theorem unfinished_iff {x : Slot} : x.unfinished = true ↔ x.state ≠ .finishing := by
  simp [Slot.unfinished]

theorem isParam_iff {x : Slot} : x.isParam = true ↔ ∃ w, x.work = .param w := by
  unfold Slot.isParam
  cases x.work <;> simp

theorem isDiscover_iff {x : Slot} : x.isDiscover = true ↔ ∃ w, x.work = .discover w := by
  unfold Slot.isDiscover
  cases x.work <;> simp

theorem applies_defer {s : State} {i : SlotId} {x : Slot} :
    Applies s i x .defer ↔ deferHolds x = true := by
  simp [Applies, deferHolds, Option.isSome_iff_ne_none]

theorem applies_line {s : State} {i : SlotId} {x : Slot} :
    Applies s i x .line ↔ lineHolds s x = true := by
  unfold Applies lineHolds LineState.usable
  cases (s.engine x.line).state <;> simp

theorem applies_settle {s : State} {i : SlotId} {x : Slot} :
    Applies s i x .settle ↔ settleHolds s x = true := by
  simp [Applies, settleHolds, isParam_iff, Option.isSome_iff_ne_none]

theorem applies_order {s : State} {i : SlotId} {x : Slot} :
    Applies s i x .order ↔ orderHolds s i x = true := by
  simp only [Applies, orderHolds, Bool.and_eq_true, Bool.not_eq_true', anyOther_iff, unfinished_iff,
    beq_iff_eq, slotsIntersect_iff]
  refine and_congr_right fun _ => ⟨?_, ?_⟩
  · rintro ⟨j, y, a, ne, slot, open_, ring, older, left, right⟩
    exact ⟨j, y, ne, slot, ⟨⟨open_, ring⟩, older⟩, a, left, right⟩
  · rintro ⟨j, y, ne, slot, ⟨⟨open_, ring⟩, older⟩, a, left, right⟩
    exact ⟨j, y, a, ne, slot, open_, ring, older, left, right⟩

theorem applies_lock {s : State} {i : SlotId} {x : Slot} :
    Applies s i x .lock ↔ lockHolds s i x = true := by
  have swap : ∀ p : Addr → Prop, (∃ a j, (s.entry x.line a).lock = some j ∧ j ≠ i ∧ p a) ↔
      ∃ a, p a ∧ lockedByOther s x.line i a = true := fun p => by
    simp only [lockedByOther_iff]
    exact exists_congr fun a => ⟨fun ⟨j, lock, ne, h⟩ => ⟨h, j, lock, ne⟩,
      fun ⟨h, j, lock, ne⟩ => ⟨j, lock, ne, h⟩⟩
  unfold Applies lockHolds
  dsimp only
  rw [swap]
  cases work : x.work with
  | call w => simp [inSlotTarget, work, allAddrs, List.any_eq_true]
  | param w => simp [inSlotTarget, work]
  | sweep w => cases step : w.step <;> simp [step]
  | discover w => cases phase : w.phase <;> cases candidate : w.candidate <;> simp [phase, candidate]
  | unknown => simp

theorem groupCall_iff {x : Slot} : x.isGroupCall = true ↔
    ∃ v, x.work = .call v ∧ (v.target = .all ∨ ∃ z, v.target = .zone z) := by
  unfold Slot.isGroupCall
  cases x.work with
  | call w => cases h : w.target <;> simp [h]
  | _ => simp

theorem applies_barrier {s : State} {i : SlotId} {x : Slot} :
    Applies s i x .barrier ↔ barrierHolds s i x = true := by
  unfold Applies barrierHolds
  dsimp only
  cases work : x.work with
  | param w =>
    simp only [Bool.and_eq_true, Bool.not_eq_true', anyOther_iff, unfinished_iff, beq_iff_eq,
      groupCall_iff]
    refine and_congr_right fun _ => ⟨?_, ?_⟩
    · rintro ⟨w', j, y, v, hw, ne, slot, open_, line, older, call, group, target⟩
      cases hw
      refine ⟨j, y, ne, slot, ⟨⟨⟨open_, v, call, group⟩, line⟩, older⟩, ?_⟩
      simpa [inSlotTarget, call, line] using target
    · rintro ⟨j, y, ne, slot, ⟨⟨⟨open_, v, call, group⟩, line⟩, older⟩, target⟩
      refine ⟨w, j, y, v, rfl, ne, slot, open_, line, older, call, group, ?_⟩
      simpa [inSlotTarget, call, line] using target
  | _ => simp

theorem applies_discovery {s : State} {i : SlotId} {x : Slot} :
    Applies s i x .discovery ↔ discoveryHolds s i x = true := by
  simp only [Applies, discoveryHolds, Bool.and_eq_true, Bool.not_eq_true', anyOther_iff,
    unfinished_iff, beq_iff_eq, isDiscover_iff]
  constructor
  · rintro ⟨fresh, kind, j, y, v, ne, slot, open_, started, line, work⟩
    exact ⟨⟨kind, fresh⟩, j, y, ne, slot, ⟨⟨open_, started⟩, v, work⟩, line⟩
  · rintro ⟨⟨kind, fresh⟩, j, y, ne, slot, ⟨⟨open_, started⟩, v, work⟩, line⟩
    exact ⟨fresh, kind, j, y, v, ne, slot, open_, started, line, work⟩

/-- What the first four reasons and the last three give, the first that applies. -/
theorem earlyReason_none {s : State} {i : SlotId} {x : Slot} :
    earlyReason s i x = none ↔ ∀ r, place r ≤ 4 → ¬Applies s i x r := by
  unfold earlyReason
  constructor
  · intro h r
    split at h <;> try cases h
    split at h <;> try cases h
    split at h <;> try cases h
    split at h <;> try cases h
    next defer line settle order =>
    cases r with
    | defer => exact fun _ => applies_defer.not.2 defer
    | line => exact fun _ => applies_line.not.2 line
    | settle => exact fun _ => applies_settle.not.2 settle
    | order => exact fun _ => applies_order.not.2 order
    | _ => exact fun late => absurd late (by decide)
  · intro h
    rw [if_neg (applies_defer.not.1 (h .defer (by decide))),
      if_neg (applies_line.not.1 (h .line (by decide))),
      if_neg (applies_settle.not.1 (h .settle (by decide))),
      if_neg (applies_order.not.1 (h .order (by decide)))]

theorem earlyReason_some {s : State} {i : SlotId} {x : Slot} {r : WaitReason}
    (h : earlyReason s i x = some r) :
    Applies s i x r ∧ ∀ r', place r' < place r → ¬Applies s i x r' := by
  unfold earlyReason at h
  split at h
  · next defer =>
    cases h
    exact ⟨applies_defer.2 defer, fun r' first => by cases r' <;> exact absurd first (by decide)⟩
  · next defer =>
    have no_defer : ¬Applies s i x .defer := applies_defer.not.2 defer
    split at h
    · next line =>
      cases h
      refine ⟨applies_line.2 line, fun r' first => ?_⟩
      cases r' with
      | defer => exact no_defer
      | _ => exact absurd first (by decide)
    · next line =>
      have no_line : ¬Applies s i x .line := applies_line.not.2 line
      split at h
      · next settle =>
        cases h
        refine ⟨applies_settle.2 settle, fun r' first => ?_⟩
        cases r' with
        | defer => exact no_defer
        | line => exact no_line
        | _ => exact absurd first (by decide)
      · next settle =>
        split at h
        · next order =>
          cases h
          refine ⟨applies_order.2 order, fun r' first => ?_⟩
          cases r' with
          | defer => exact no_defer
          | line => exact no_line
          | settle => exact applies_settle.not.2 settle
          | _ => exact absurd first (by decide)
        · cases h

theorem lateReason_none {s : State} {i : SlotId} {x : Slot} :
    lateReason s i x = none ↔ ∀ r, 4 < place r → ¬Applies s i x r := by
  unfold lateReason
  constructor
  · intro h r
    split at h <;> try cases h
    split at h <;> try cases h
    split at h <;> try cases h
    next lock barrier discovery =>
    cases r with
    | lock => exact fun _ => applies_lock.not.2 lock
    | barrier => exact fun _ => applies_barrier.not.2 barrier
    | discovery => exact fun _ => applies_discovery.not.2 discovery
    | _ => exact fun early => absurd early (by decide)
  · intro h
    rw [if_neg (applies_lock.not.1 (h .lock (by decide))),
      if_neg (applies_barrier.not.1 (h .barrier (by decide))),
      if_neg (applies_discovery.not.1 (h .discovery (by decide)))]

theorem lateReason_some {s : State} {i : SlotId} {x : Slot} {r : WaitReason}
    (h : lateReason s i x = some r) :
    4 < place r ∧ Applies s i x r ∧ ∀ r', 4 < place r' → place r' < place r → ¬Applies s i x r' := by
  unfold lateReason at h
  split at h
  · next lock =>
    cases h
    refine ⟨by decide, applies_lock.2 lock, fun r' late first => ?_⟩
    exact absurd first (Nat.not_lt.2 late)
  · next lock =>
    split at h
    · next barrier =>
      cases h
      refine ⟨by decide, applies_barrier.2 barrier, fun r' late first => ?_⟩
      cases r' with
      | lock => exact applies_lock.not.2 lock
      | barrier | discovery => exact absurd first (by decide)
      | _ => exact absurd late (by decide)
    · next barrier =>
      split at h
      · next discovery =>
        cases h
        refine ⟨by decide, applies_discovery.2 discovery, fun r' late first => ?_⟩
        cases r' with
        | lock => exact applies_lock.not.2 lock
        | barrier => exact applies_barrier.not.2 barrier
        | discovery => exact absurd first (by decide)
        | _ => exact absurd late (by decide)
      · cases h

end Sys2Proof.Judgement

/-! The judgement of a line settles: the last round leaves every slot of the line in the state that its
reasons give it, in the state after that round. -/

namespace Sys2Proof.Judgement

open Sys2Proof Sys2Proof.Machine Sys2Proof.Safety Sys2Proof.Laws Sys2Proof.FieldLines
  Sys2Proof.SlotEnds Sys2Proof.Steps

/-! ## What the reasons read -/

/-- Two slots are alike to the reasons, their own and those of other slots. -/
structure Alike (x y : Slot) : Prop where
  ring : y.ring = x.ring
  line : y.line = x.line
  seq : y.seq = x.seq
  started : y.started = x.started
  deferAt : y.deferAt = x.deferAt
  unfinished : y.unfinished = x.unfinished
  param : y.isParam = x.isParam
  discover : y.isDiscover = x.isDiscover
  group : y.isGroupCall = x.isGroupCall
  target : ∀ s a, inSlotTarget s y a = inSlotTarget s x a

/-- Two states are alike to the reasons. -/
structure SameReasons (s t : State) : Prop where
  lines : t.lines = s.lines
  nodes : t.nodes = s.nodes
  slot : ∀ j, (s.slot j = none ∧ t.slot j = none) ∨
    ∃ x y, s.slot j = some x ∧ t.slot j = some y ∧ Alike x y

theorem alike_refl (x : Slot) : Alike x x :=
  ⟨rfl, rfl, rfl, rfl, rfl, rfl, rfl, rfl, rfl, fun _ _ => rfl⟩

theorem Alike.trans {x y z : Slot} (h : Alike x y) (k : Alike y z) : Alike x z :=
  ⟨k.1.trans h.1, k.2.trans h.2, k.3.trans h.3, k.4.trans h.4, k.5.trans h.5, k.6.trans h.6,
    k.7.trans h.7, k.8.trans h.8, k.9.trans h.9, fun s a => (k.10 s a).trans (h.10 s a)⟩

theorem sameReasons_refl (s : State) : SameReasons s s := by
  refine ⟨rfl, rfl, fun j => ?_⟩
  cases h : s.slot j with
  | none => exact .inl ⟨rfl, rfl⟩
  | some x => exact .inr ⟨x, x, rfl, rfl, alike_refl x⟩

theorem SameReasons.trans {s m t : State} (h : SameReasons s m) (k : SameReasons m t) :
    SameReasons s t := by
  refine ⟨k.lines.trans h.lines, k.nodes.trans h.nodes, fun j => ?_⟩
  rcases h.slot j with ⟨none_, mid⟩ | ⟨x, y, hx, hy, alike⟩
  · rcases k.slot j with ⟨_, gone⟩ | ⟨y, z, hy, _, _⟩
    · exact .inl ⟨none_, gone⟩
    · rw [mid] at hy; cases hy
  · rcases k.slot j with ⟨gone, _⟩ | ⟨y', z, hy', hz, alike'⟩
    · rw [hy] at gone; cases gone
    · rw [hy] at hy'
      cases hy'
      exact .inr ⟨x, z, hx, hz, alike.trans alike'⟩

theorem sameReasons_setSlot {s : State} {i : SlotId} {x z : Slot} (hx : s.slot i = some x)
    (alike : Alike x z) : SameReasons s (s.setSlot i (some z)) := by
  refine ⟨rfl, rfl, fun j => ?_⟩
  by_cases same : j = i
  · subst same
    exact .inr ⟨x, z, hx, slot_setSlot_self s j _, alike⟩
  · rw [slot_setSlot_ne s _ same]
    exact (sameReasons_refl s).slot j

theorem SameReasons.anyOther {s t : State} (h : SameReasons s t) {i : SlotId} {p q : Slot → Bool}
    (agree : ∀ x y, Alike x y → q y = p x) : anyOther t i q = anyOther s i p := by
  unfold Machine.anyOther
  congr 1
  funext j
  rcases h.slot j with ⟨gone, gone'⟩ | ⟨x, y, hx, hy, alike⟩
  · rw [gone, gone']
  · rw [hx, hy]
    dsimp only
    rw [agree x y alike]

theorem SameReasons.target {s t : State} (h : SameReasons s t) (x : Slot) (a : Addr) :
    inSlotTarget t x a = inSlotTarget s x a := by
  unfold inSlotTarget inTarget
  simp only [State.entry, State.table, h.nodes]

theorem SameReasons.intersect {s t : State} (h : SameReasons s t) {x y x' y' : Slot}
    (hx : Alike x x') (hy : Alike y y') : slotsIntersect t x' y' = slotsIntersect s x y := by
  unfold slotsIntersect
  simp only [hx.target, hy.target, h.target]

/-- The early reasons are alike for alike slots in alike states. -/
theorem SameReasons.early {s t : State} (h : SameReasons s t) (i : SlotId) {x y : Slot}
    (alike : Alike x y) : earlyReason t i y = earlyReason s i x := by
  have defer : deferHolds y = deferHolds x := by
    unfold deferHolds
    rw [alike.started, alike.deferAt]
  have line : lineHolds t y = lineHolds s x := by
    unfold lineHolds State.engine
    rw [alike.line, h.lines]
  have settle : settleHolds t y = settleHolds s x := by
    unfold settleHolds State.engine
    rw [alike.param, alike.line, h.lines]
  have order : orderHolds t i y = orderHolds s i x := by
    unfold orderHolds
    rw [alike.started]
    congr 1
    refine h.anyOther fun z z' other => ?_
    rw [other.unfinished, other.ring, other.seq, alike.ring, alike.seq, h.intersect other alike]
  unfold earlyReason
  rw [defer, line, settle, order]

/-- The late reasons of a slot are the same in alike states. -/
theorem SameReasons.late {s t : State} (h : SameReasons s t) (i : SlotId) (x : Slot) :
    lateReason t i x = lateReason s i x := by
  have locked : ∀ l a, lockedByOther t l i a = lockedByOther s l i a := fun l a => by
    simp only [lockedByOther, State.entry, State.table, h.nodes]
  have inside : ∀ l target a, inTarget t l target a = inTarget s l target a := fun l target a => by
    simp only [inTarget, State.entry, State.table, h.nodes]
  have lock : lockHolds t i x = lockHolds s i x := by
    unfold lockHolds
    simp only [locked, inside]
  have barrier : barrierHolds t i x = barrierHolds s i x := by
    unfold barrierHolds
    cases x.work with
    | param w =>
      dsimp only
      congr 1
      refine h.anyOther fun z z' other => ?_
      rw [other.unfinished, other.group, other.line, other.seq, other.target, h.target]
    | _ => rfl
  have discovery : discoveryHolds t i x = discoveryHolds s i x := by
    unfold discoveryHolds
    congr 1
    refine h.anyOther fun z z' other => ?_
    rw [other.unfinished, other.started, other.discover, other.line]
  unfold lateReason
  rw [lock, barrier, discovery]

/-! ## The choice of a sweep's step address -/

theorem firstPass_open (locked : Addr → Bool) (marks : List (Addr × Mark)) :
    (firstPass locked marks).1.map (fun m => (m.1, m.2.open_)) =
      marks.map fun m => (m.1, m.2.open_) := by
  induction marks with
  | nil => rfl
  | cons m rest ih =>
    obtain ⟨a, k⟩ := m
    unfold firstPass
    split
    · rfl
    · dsimp only
      rw [List.map_cons, ih, List.map_cons]
      cases k <;> rfl

theorem secondVisit_open (locked : Addr → Bool) (marks : List (Addr × Mark)) :
    (secondVisit locked marks).1.countP (fun m => m.2.open_) ≤ marks.countP (fun m => m.2.open_) ∧
      ((secondVisit locked marks).1.countP (fun m => m.2.open_) = marks.countP (fun m => m.2.open_) →
        (secondVisit locked marks).1 = marks) := by
  induction marks with
  | nil => exact ⟨le_rfl, fun _ => rfl⟩
  | cons m rest ih =>
    obtain ⟨a, k⟩ := m
    obtain ⟨less, same⟩ := ih
    unfold secondVisit
    split
    · exact ⟨le_rfl, fun _ => rfl⟩
    · dsimp only
      rw [List.countP_cons, List.countP_cons]
      cases k with
      | aside =>
        simp only [if_true, show Mark.open_ .aside = true from rfl,
          show Mark.open_ .busy = false from rfl, Bool.false_eq_true, if_false]
        exact ⟨by omega, fun e => absurd e (by omega)⟩
      | _ =>
        simp only [reduceCtorEq, if_false]
        exact ⟨by omega, fun e => by rw [same (by omega)]⟩

theorem countP_of_map_open {u v : List (Addr × Mark)}
    (h : u.map (fun m => (m.1, m.2.open_)) = v.map fun m => (m.1, m.2.open_)) :
    u.countP (fun m => m.2.open_) = v.countP (fun m => m.2.open_) ∧
      ∀ a, u.any (fun m => m.1 == a && m.2.open_) = v.any fun m => m.1 == a && m.2.open_ := by
  have count : ∀ w : List (Addr × Mark), w.countP (fun m => m.2.open_) =
      (w.map fun m => (m.1, m.2.open_)).countP fun p => p.2 := fun w => by
    rw [List.countP_map]; rfl
  have any : ∀ (w : List (Addr × Mark)) (a : Addr), w.any (fun m => m.1 == a && m.2.open_) =
      (w.map fun m => (m.1, m.2.open_)).any fun p => p.1 == a && p.2 := fun w a => by
    rw [List.any_map]; rfl
  exact ⟨by rw [count, count, h], fun a => by rw [any, any, h]⟩

/-- The choice counts no address open that was not, and keeps the sweep's target set unless it counts
one busy. -/
theorem choose_open (locked : Addr → Bool) (w : SweepWork) :
    (w.choose locked).marks.countP (fun m => m.2.open_) ≤ w.marks.countP (fun m => m.2.open_) ∧
      ((w.choose locked).marks.countP (fun m => m.2.open_) = w.marks.countP (fun m => m.2.open_) →
        ∀ a, (w.choose locked).holds a = w.holds a) := by
  obtain ⟨count, any⟩ := countP_of_map_open (firstPass_open locked w.marks)
  unfold SweepWork.choose SweepWork.holds
  generalize firstPass locked w.marks = first at count any
  obtain ⟨marks, _ | a⟩ := first
  · obtain ⟨less, same⟩ := secondVisit_open locked marks
    dsimp only at count any ⊢
    refine ⟨less.trans count.le, fun e a => ?_⟩
    rw [same (e.trans count.symm)]
    exact any a
  · exact ⟨count.le, fun _ b => any b⟩

/-! ## The judgement of one slot -/

theorem withCandidate_pool (s : State) (l : Line) (w : DiscoverWork) :
    (w.withCandidate s l).poolFirst = w.poolFirst ∧ (w.withCandidate s l).poolLast = w.poolLast := by
  unfold DiscoverWork.withCandidate
  cases w.current with
  | none => exact ⟨rfl, rfl⟩
  | some c =>
    dsimp only
    cases chooseCandidate s l w c.identity <;> exact ⟨rfl, rfl⟩

theorem tested_pool (s : State) (l : Line) (w : DiscoverWork) :
    (w.tested s l).poolFirst = w.poolFirst ∧ (w.tested s l).poolLast = w.poolLast := by
  unfold DiscoverWork.tested
  split
  · split
    · exact ⟨rfl, rfl⟩
    · exact withCandidate_pool s l _
  · split
    · exact ⟨rfl, rfl⟩
    · exact withCandidate_pool s l _
  · exact ⟨rfl, rfl⟩

/-- A slot with its choice holds back no more, and is alike unless it holds back less. -/
theorem withChoice_holding (s : State) (i : SlotId) (x : Slot) :
    (x.withChoice s i).holding ≤ x.holding ∧
      (x.unfinished = true → (x.withChoice s i).holding = x.holding → Alike x (x.withChoice s i)) := by
  unfold Slot.withChoice
  cases work : x.work with
  | sweep w =>
    obtain ⟨less, same⟩ := choose_open (lockedByOther s x.line i) w
    by_cases open_ : x.unfinished = true
    · have left : ({ x with work := .sweep (w.choose (lockedByOther s x.line i)) } : Slot).holding =
          (w.choose (lockedByOther s x.line i)).marks.countP (fun m => m.2.open_) + 1 := if_pos open_
      have right : x.holding = w.marks.countP (fun m => m.2.open_) + 1 := by
        unfold Slot.holding
        rw [if_pos open_, work]
      dsimp only
      rw [left, right]
      refine ⟨by omega, fun _ e => ⟨rfl, rfl, rfl, rfl, rfl, rfl, ?_, ?_, ?_, fun n a => ?_⟩⟩
      · simp only [Slot.isParam, work]
      · simp only [Slot.isDiscover, work]
      · simp only [Slot.isGroupCall, work]
      · simp only [inSlotTarget, work, same (by omega)]
    · refine ⟨?_, fun h => absurd h open_⟩
      have gone : ({ x with work := .sweep (w.choose (lockedByOther s x.line i)) } : Slot).holding = 0 :=
        if_neg open_
      dsimp only
      rw [gone]
      exact Nat.zero_le _
  | discover w =>
    have holds : ({ x with work := .discover (w.tested s x.line) } : Slot).holding = x.holding := by
      unfold Slot.holding
      rw [work]
      rfl
    refine ⟨holds.le, fun _ _ => ⟨rfl, rfl, rfl, rfl, rfl, rfl, ?_, ?_, ?_, fun n a => ?_⟩⟩
    · simp only [Slot.isParam, work]
    · simp only [Slot.isDiscover, work]
    · simp only [Slot.isGroupCall, work]
    · obtain ⟨first, last⟩ := tested_pool s x.line w
      simp only [inSlotTarget, work, DiscoverWork.inPool, first, last]
  | _ => exact ⟨le_rfl, fun _ _ => alike_refl x⟩

/-- A slot stands as its reasons have it (R70). -/
def Placed (s : State) (i : SlotId) (z : Slot) : Prop :=
  (∀ r, z.state = .waiting r → earlyReason s i z = some r ∨
    (earlyReason s i z = none ∧ lateReason s i z = some r)) ∧
  (z.state = .ready → earlyReason s i z = none ∧ lateReason s i z = none)

theorem SameReasons.placed {s t : State} (h : SameReasons s t) {i : SlotId} {z : Slot}
    (placed : Placed s i z) : Placed t i z := by
  unfold Placed
  rw [h.early i (alike_refl z), h.late i z]
  exact placed

/-- A slot in another state of WAITING or READY. -/
theorem alike_state {x : Slot} {k : SlotState} (judged : x.judged = true) (open_ : k ≠ .finishing) :
    Alike x { x with state := k } := by
  refine ⟨rfl, rfl, rfl, rfl, rfl, ?_, rfl, rfl, rfl, fun _ _ => rfl⟩
  have unfinished : x.unfinished = true := by
    unfold Slot.judged at judged
    unfold Slot.unfinished
    cases h : x.state <;> rw [h] at judged <;> simp at judged ⊢
  rw [unfinished]
  simp [Slot.unfinished, open_]

theorem holding_state {x : Slot} {k : SlotState} (judged : x.judged = true) (open_ : k ≠ .finishing) :
    ({ x with state := k } : Slot).holding = x.holding := by
  have alike := (alike_state judged open_).unfinished
  unfold Slot.holding
  rw [alike]

theorem withChoice_state (s : State) (i : SlotId) (x : Slot) : (x.withChoice s i).state = x.state := by
  unfold Slot.withChoice
  cases x.work <;> rfl

/-- What the judgement of a WAITING or READY slot does: it ends the slot, or places it. -/
theorem judgeSlot_result {s : State} {i : SlotId} {x : Slot} (hx : s.slot i = some x)
    (judged : x.judged = true) :
    (∃ st narrow y, y.line = x.line ∧
      judgeSlot i s = endSlot i st narrow (s.setSlot i (some y))) ∨
    ∃ z, judgeSlot i s = s.setSlot i (some z) ∧ z.line = x.line ∧ z.holding ≤ x.holding ∧
      (z.holding = x.holding → Alike x z ∧ Placed s i z) := by
  have unfinished : x.unfinished = true := by
    unfold Slot.judged at judged
    unfold Slot.unfinished
    cases h : x.state <;> rw [h] at judged <;> simp at judged ⊢
  have same : s.setSlot i (some x) = s := setSlot_self hx
  have ends : ∀ st narrow, judgeSlot i s = endSlot i st narrow s →
      ∃ st narrow y, y.line = x.line ∧
        judgeSlot i s = endSlot i st narrow (s.setSlot i (some y)) := fun st narrow h =>
    ⟨st, narrow, x, rfl, by rw [same]; exact h⟩
  have form : judgeSlot i s = match earlyReason s i x with
      | some r => if x.inFinal then endTimedOut i s
          else s.setSlot i (some { x with state := .waiting r })
      | none => judgeLate i (x.withChoice s i) s := by
    unfold judgeSlot
    rw [hx]
    exact if_pos judged
  obtain ⟨less, alike⟩ := withChoice_holding s i x
  have choice : (x.withChoice s i).judged = true := by
    unfold Slot.judged
    rw [withChoice_state]
    exact judged
  have line := (withChoice_kept s i x).line
  cases early : earlyReason s i x with
  | some r =>
    rw [early] at form
    dsimp only at form
    split at form
    · have timed : endTimedOut i s =
          endSlot i (if x.abortPending then .aborted else .commitTimeout) true s := by
        unfold endTimedOut
        rw [hx]
      exact .inl (ends _ _ (form.trans timed))
    · refine .inr ⟨_, form, rfl, (holding_state judged (by nofun)).le, fun _ =>
        ⟨alike_state judged (by nofun), fun r' waits => .inl ?_, nofun⟩⟩
      cases waits
      rw [(sameReasons_refl s).early i (alike_state judged (by nofun)), early]
  | none =>
    rw [early] at form
    dsimp only at form
    have put : ∀ k, k ≠ .finishing →
        ({ x.withChoice s i with state := k } : Slot).holding = x.holding →
        Alike x { x.withChoice s i with state := k } ∧
          earlyReason s i { x.withChoice s i with state := k } = none := by
      intro k open_ e
      rw [holding_state choice open_] at e
      have all := (alike unfinished e).trans (alike_state choice open_)
      exact ⟨all, ((sameReasons_refl s).early i all).trans early⟩
    generalize x.withChoice s i = y at *
    unfold judgeLate at form
    split at form
    · exact .inl ⟨_, _, y, line, form⟩
    · split at form
      · next r late =>
        refine .inr ⟨_, form, line, (holding_state choice (by nofun)).le.trans less, fun e => ?_⟩
        obtain ⟨all, none_⟩ := put _ (by nofun) e
        refine ⟨all, fun r' waits => .inr ⟨none_, ?_⟩, nofun⟩
        cases waits
        exact late
      · next late =>
        split at form
        · exact .inl (ends _ _ form)
        · refine .inr ⟨_, form, line, (holding_state choice (by nofun)).le.trans less, fun e => ?_⟩
          obtain ⟨all, none_⟩ := put _ (by nofun) e
          exact ⟨all, nofun, fun _ => ⟨none_, late⟩⟩

/-! ## A round -/

/-- The end of a slot leaves it FINISHING, or FREE. -/
theorem endSlot_gone {s : State} {i : SlotId} {y : Slot} (hy : s.slot i = some y) (st : Status)
    (narrow : Bool) : (endSlot i st narrow s).slot i = none ∨
      ∃ z, (endSlot i st narrow s).slot i = some z ∧ z.state = .finishing := by
  have gone : ∀ (z : Slot) (d : List Byte) (m : State), (ended i z st d m).slot i = none ∨
      ∃ z', (ended i z st d m).slot i = some z' ∧ z'.state = .finishing := fun z d m => by
    rw [ended_slot_self]
    split
    · exact .inr ⟨_, rfl, rfl⟩
    · exact .inl rfl
  by_cases commit : ∃ w, y.work = .param w
  · obtain ⟨w, work⟩ := commit
    rcases Bool.eq_false_or_eq_true y.started with started | started
    · rw [endSlot_commit hy work started rfl]
      exact gone _ _ _
    · rw [endSlot_unstarted hy work started rfl]
      exact gone _ _ _
  · by_cases discovery : ∃ w, y.work = .discover w
    · obtain ⟨w, work⟩ := discovery
      rw [endSlot_discovery hy work]
      exact gone _ _ _
    · rw [endSlot_direct hy (not_exists.1 commit) (not_exists.1 discovery)]
      exact gone _ _ _

/-- What a slot of a line holds back. -/
def heldAt (l : Line) (s : State) (i : SlotId) : Nat :=
  match s.slot i with
  | none => 0
  | some x => if x.line = l then x.holding else 0

theorem holdingOn_eq (s : State) (l : Line) : holdingOn s l = (allSlots.map (heldAt l s)).sum := rfl

/-- The judgement of a slot of a line in a round. -/
def roundStep (l : Line) (s : State) (i : SlotId) : State :=
  if onLine s l i then judgeSlot i s else s

theorem judgeRound_eq (l : Line) (s : State) :
    judgeRound l s = allSlots.foldl (roundStep l) s := rfl

theorem roundStep_other (l : Line) (s : State) {i j : SlotId} (h : j ≠ i) :
    (roundStep l s i).slot j = s.slot j := by
  unfold roundStep
  split
  · exact judgeSlot_other s h
  · rfl

theorem onLine_iff {s : State} {l : Line} {i : SlotId} :
    onLine s l i = true ↔ ∃ x, s.slot i = some x ∧ x.line = l := by
  unfold onLine
  cases s.slot i <;> simp

/-- A slot of a line stands as its reasons have it. -/
def PlacedAt (l : Line) (s : State) (i : SlotId) : Prop :=
  ∀ x, s.slot i = some x → x.line = l → Placed s i x

theorem placed_of_not_judged {s : State} {i : SlotId} {x : Slot} (h : x.judged = false) :
    Placed s i x := by
  unfold Slot.judged at h
  refine ⟨fun r waits => ?_, fun ready => ?_⟩
  · rw [waits] at h; cases h
  · rw [ready] at h; cases h

theorem roundStep_places (l : Line) (s : State) (i : SlotId) :
    heldAt l (roundStep l s i) i ≤ heldAt l s i ∧
      (heldAt l (roundStep l s i) i = heldAt l s i →
        SameReasons s (roundStep l s i) ∧ PlacedAt l (roundStep l s i) i) := by
  unfold roundStep
  split
  · next on =>
    obtain ⟨x, hx, line⟩ := onLine_iff.1 on
    have before : heldAt l s i = x.holding := by
      unfold heldAt
      rw [hx]
      exact if_pos line
    by_cases judged : x.judged = true
    · rcases judgeSlot_result hx judged with ⟨st, narrow, y, yline, ends⟩ | ⟨z, put, zline, less, same⟩
      · have positive : 0 < x.holding := by
          have open_ : x.unfinished = true := by
            unfold Slot.judged at judged
            unfold Slot.unfinished
            cases h : x.state <;> rw [h] at judged <;> simp at judged ⊢
          unfold Slot.holding
          rw [if_pos open_]
          split <;> omega
        have gone : heldAt l (judgeSlot i s) i = 0 := by
          unfold heldAt
          rw [ends]
          rcases endSlot_gone (slot_setSlot_self s i (some y)) st narrow with free | ⟨z, held, over_⟩
          · rw [free]
          · rw [held]
            have none_ : z.holding = 0 := by
              unfold Slot.holding Slot.unfinished
              rw [over_]
              rfl
            dsimp only
            rw [none_, ite_self]
        rw [gone, before]
        exact ⟨Nat.zero_le _, fun e => absurd e (by omega)⟩
      · have after_ : heldAt l (judgeSlot i s) i = z.holding := by
          unfold heldAt
          rw [put, slot_setSlot_self]
          exact if_pos (zline.trans line)
        rw [after_, before]
        refine ⟨less, fun e => ?_⟩
        obtain ⟨alike, placed⟩ := same e
        rw [put]
        have reasons := sameReasons_setSlot hx alike
        refine ⟨reasons, fun z' hz' _ => ?_⟩
        rw [slot_setSlot_self] at hz'
        cases hz'
        exact reasons.placed placed
    · have still : judgeSlot i s = s := by
        unfold judgeSlot
        rw [hx]
        exact if_neg judged
      rw [still]
      refine ⟨le_rfl, fun _ => ⟨sameReasons_refl s, fun x' hx' _ => ?_⟩⟩
      rw [hx] at hx'
      cases hx'
      exact placed_of_not_judged (Bool.not_eq_true _ ▸ judged)
  · next off =>
    exact ⟨le_rfl, fun _ => ⟨sameReasons_refl s, fun x hx line =>
      absurd (onLine_iff.2 ⟨x, hx, line⟩) off⟩⟩

theorem round_places (l : Line) (is : List SlotId) (nodup : is.Nodup) (s : State) :
    (∀ j, heldAt l (is.foldl (roundStep l) s) j ≤ heldAt l s j) ∧
      (∀ j, j ∉ is → (is.foldl (roundStep l) s).slot j = s.slot j) ∧
      ((∀ j, heldAt l (is.foldl (roundStep l) s) j = heldAt l s j) →
        SameReasons s (is.foldl (roundStep l) s) ∧
          ∀ j ∈ is, PlacedAt l (is.foldl (roundStep l) s) j) := by
  induction is generalizing s with
  | nil => exact ⟨fun _ => le_rfl, fun _ _ => rfl, fun _ => ⟨sameReasons_refl s, nofun⟩⟩
  | cons i is ih =>
    obtain ⟨fresh, rest⟩ := List.nodup_cons.1 nodup
    obtain ⟨less, other, places⟩ := ih rest (roundStep l s i)
    obtain ⟨here, placed⟩ := roundStep_places l s i
    have step : ∀ j, heldAt l (roundStep l s i) j ≤ heldAt l s j := fun j => by
      by_cases same : j = i
      · exact same ▸ here
      · unfold heldAt
        rw [roundStep_other l s same]
    rw [List.foldl_cons]
    refine ⟨fun j => (less j).trans (step j), fun j hj => ?_, fun same => ?_⟩
    · rw [other j fun mem => hj (List.mem_cons_of_mem i mem)]
      exact roundStep_other l s fun e => hj (e ▸ List.mem_cons_self)
    · have later : ∀ j, heldAt l (is.foldl (roundStep l) (roundStep l s i)) j =
          heldAt l (roundStep l s i) j := fun j =>
        le_antisymm (less j) ((step j).trans (same j).ge)
      obtain ⟨reasons, others⟩ := places later
      obtain ⟨first, own⟩ := placed ((later i).symm.trans (same i))
      refine ⟨first.trans reasons, fun j hj => ?_⟩
      rcases List.mem_cons.1 hj with rfl | mem
      · intro x hx line
        rw [other j fresh] at hx
        exact reasons.placed (own x hx line)
      · exact others j mem

/-- A round that holds back no less leaves every slot of the line as its reasons have it. -/
theorem judgeRound_places {l : Line} {s : State}
    (same : ¬holdingOn (judgeRound l s) l < holdingOn s l) (i : SlotId) :
    PlacedAt l (judgeRound l s) i := by
  obtain ⟨less, -, places⟩ := round_places l allSlots (List.nodup_finRange 24) s
  rw [judgeRound_eq] at same ⊢
  refine (places fun j => ?_).2 i (List.mem_finRange i)
  by_contra ne
  refine same ?_
  rw [holdingOn_eq, holdingOn_eq]
  exact List.sum_lt_sum _ _ (fun k _ => less k)
    ⟨j, List.mem_finRange j, lt_of_le_of_ne (less j) ne⟩

theorem judgeLoop_places (n : Nat) (l : Line) (s : State) (enough : holdingOn s l < n) (i : SlotId) :
    PlacedAt l (judgeLoop n l s) i := by
  induction n generalizing s with
  | zero => exact absurd enough (Nat.not_lt_zero _)
  | succ n ih =>
    unfold judgeLoop
    dsimp only
    split
    · next less => exact ih _ (by omega)
    · next same => exact judgeRound_places same i

/-- After the judgement of a line every slot of it stands as its reasons have it. -/
theorem judgeLine_places (l : Line) (s : State) (i : SlotId) : PlacedAt l (judgeLine l s) i :=
  judgeLoop_places _ l s (Nat.lt_succ_self _) i

theorem settleLine_places (l : Line) (s : State) (i : SlotId) : PlacedAt l (settleLine l s) i :=
  judgeLine_places l _ i

/-- Settles O53. -/
theorem readySlotsHaveNoReason : Obligations.ReadySlotsHaveNoReason :=
  fun l s i x hx line ready => (settleLine_places l s i x hx line).2 ready

end Sys2Proof.Judgement

/-! The judgement of a line by the reasons of R70, the CLASH refusal, the target sets, and the order of
the arbiter. -/

namespace Sys2Proof.Judgement

open Sys2Proof Sys2Proof.Machine Sys2Proof.Safety Sys2Proof.Laws Sys2Proof.FieldLines
  Sys2Proof.SlotEnds Sys2Proof.Steps

/-! ## The reasons of a placed slot -/

theorem place_cases (r : WaitReason) : place r ≤ 4 ∨ 4 < place r := by omega

/-- A WAITING slot that is placed waits with the first reason that applies. -/
theorem Placed.waiting {s : State} {i : SlotId} {x : Slot} (h : Placed s i x) {r : WaitReason}
    (waits : x.state = .waiting r) :
    Applies s i x r ∧ ∀ r', place r' < place r → ¬Applies s i x r' := by
  rcases h.1 r waits with early | ⟨early, late⟩
  · exact earlyReason_some early
  · obtain ⟨_, applies, first⟩ := lateReason_some late
    refine ⟨applies, fun r' before => ?_⟩
    rcases place_cases r' with le | lt
    · exact earlyReason_none.1 early r' le
    · exact first r' lt before

/-- To a READY slot that is placed no reason applies. -/
theorem Placed.ready {s : State} {i : SlotId} {x : Slot} (h : Placed s i x)
    (ready : x.state = .ready) (r : WaitReason) : ¬Applies s i x r := by
  obtain ⟨early, late⟩ := h.2 ready
  rcases place_cases r with le | lt
  · exact earlyReason_none.1 early r le
  · exact lateReason_none.1 late r lt

/-! ## The CLASH refusal -/

theorem judgeLate_clash {s : State} {i : SlotId} {x : Slot} (busy : x.exhausted = false)
    (late : lateReason s i x = none) (clash : clashRefused s x = true) :
    judgeLate i x s = endSlot i .nodeClash false s := by
  unfold judgeLate
  rw [if_neg (by rw [busy]; exact Bool.false_ne_true), late]
  exact if_pos clash

theorem judgeSlot_clash {s : State} {i : SlotId} {x : Slot} (hx : s.slot i = some x)
    (waits : ∃ r, x.state = .waiting r) (free : ∀ r, ¬Applies s i x r)
    (choice : x.withChoice s i = x) (busy : x.exhausted = false)
    (clash : clashRefused s x = true) : judgeSlot i s = endSlot i .nodeClash false s := by
  obtain ⟨r, waits⟩ := waits
  have judged : x.judged = true := by
    unfold Slot.judged
    rw [waits]
  unfold judgeSlot
  rw [hx]
  dsimp only
  rw [if_pos judged, earlyReason_none.2 fun r _ => free r, choice]
  exact judgeLate_clash busy (lateReason_none.2 fun r _ => free r) clash

/-- A slot that is refused for a CLASH ends so, with a detail of zero. -/
theorem clash_ends {s : State} {i : SlotId} {x : Slot} {a : Addr} (hx : s.slot i = some x)
    (started : x.started = false) (force : x.force = false) (waits : ∃ r, x.state = .waiting r)
    (kind : (∃ w, x.work = .call w ∧ w.target = .node a) ∨ ∃ w, x.work = .param w ∧ w.addr = a)
    (clash : (s.entry x.line a).state = .clash) (lock : (s.entry x.line a).lock = none)
    (free : ∀ r, ¬Applies s i x r) :
    ∃ v, ((∀ w, x.work = .call w → v = x.work) ∧
      judgeSlot i s = ended i { x with work := v } .nodeClash [] s) := by
  have unready : (x.state != .ready) = true := by
    obtain ⟨r, waits⟩ := waits
    rw [waits]
    rfl
  rcases kind with ⟨w, work, target⟩ | ⟨w, work, rfl⟩
  · have refused : clashRefused s x = true := by
      unfold clashRefused
      rw [started, unready, force, work]
      simp [target, clash]
    refine ⟨x.work, fun _ _ => rfl, ?_⟩
    rw [judgeSlot_clash hx waits free (by unfold Slot.withChoice; rw [work])
      (by unfold Slot.exhausted; rw [work]) refused,
      endSlot_direct hx (fun v h => by rw [work] at h; cases h) (fun v h => by rw [work] at h; cases h)]
    rfl
  · have refused : clashRefused s x = true := by
      unfold clashRefused
      rw [started, unready, force, work]
      simp [clash]
    have unlocked : releaseLock x.line w.addr i s = s := by
      unfold releaseLock
      rw [lock]
      exact if_neg (by nofun)
    refine ⟨.param { w with outcome := commitOutcome .nodeClash false w }, fun v h => ?_, ?_⟩
    · rw [work] at h; cases h
    · rw [judgeSlot_clash hx waits free (by unfold Slot.withChoice; rw [work])
        (by unfold Slot.exhausted; rw [work]) refused, endSlot_unstarted hx work started rfl]
      dsimp only
      rw [unlocked]
      rfl

/-- Settles O17. -/
theorem judgementFollowsTheReasons : Obligations.JudgementFollowsTheReasons := by
  refine ⟨fun l s i x hx line => ?_, fun s i x a hx started force waits kind clash lock free =>
    clash_ends hx started force waits kind clash lock free, fun s x a => ?_⟩
  · have placed := settleLine_places l s i x hx line
    exact ⟨fun r => placed.waiting, placed.ready⟩
  · unfold inSlotTarget
    cases x.work with
    | call w =>
      dsimp only [inTarget]
      cases w.target with
      | zone z =>
        unfold NodeEntry.inZone
        cases (s.entry x.line a).zones <;> simp
      | _ => simp
    | param w => simp
    | sweep w =>
      simp only [SweepWork.holds, List.any_eq_true, Bool.and_eq_true, beq_iff_eq]
      constructor
      · rintro ⟨⟨b, m⟩, mem, rfl, open_⟩
        cases m with
        | unvisited => exact .inl mem
        | aside => exact .inr mem
        | _ => cases open_
      · rintro (mem | mem)
        · exact ⟨(a, .unvisited), mem, rfl, rfl⟩
        · exact ⟨(a, .aside), mem, rfl, rfl⟩
    | discover w =>
      simp only [DiscoverWork.inPool, Bool.and_eq_true, decide_eq_true_eq]
      exact Iff.rfl
    | unknown => simp

/-! ## The order of the arbiter -/

/-- A slot comes before another one, or they are level (R35), with fetch sequences counted from a base
that lies within half their range. -/
def NotAfter (base : Word) (x y : Slot) : Prop :=
  x.rank < y.rank ∨ (x.rank = y.rank ∧ (x.seq - base).toNat ≤ (y.seq - base).toNat)

theorem NotAfter.trans {base : Word} {x y z : Slot} (h : NotAfter base x y) (k : NotAfter base y z) :
    NotAfter base x z := by
  unfold NotAfter at *
  omega

theorem olderSeq_iff {x y base : Word} (hx : (x - base).toNat < 2 ^ 31)
    (hy : (y - base).toNat < 2 ^ 31) :
    olderSeq x y = true ↔ (x - base).toNat < (y - base).toNat := by
  have apart : y - x = (y - base) - (x - base) := (sub_sub_sub_cancel_right y x base).symm
  simp only [olderSeq, Bool.and_eq_true, decide_eq_true_eq]
  rw [apart]
  generalize x - base = u at *
  generalize y - base = v at *
  rw [BitVec.toNat_sub]
  omega

theorem comesBefore_iff {base : Word} {x y : Slot} (hx : (x.seq - base).toNat < 2 ^ 31)
    (hy : (y.seq - base).toNat < 2 ^ 31) :
    comesBefore x y = true ↔ ¬NotAfter base y x := by
  simp only [comesBefore, Bool.or_eq_true, decide_eq_true_eq, Bool.and_eq_true, beq_iff_eq,
    olderSeq_iff hx hy]
  unfold NotAfter
  omega

theorem notAfter_refl (base : Word) (x : Slot) : NotAfter base x x := .inr ⟨rfl, le_rfl⟩

theorem notAfter_of_not {base : Word} {x y : Slot} (h : ¬NotAfter base y x) : NotAfter base x y := by
  unfold NotAfter at *
  omega

/-- The best slot so far is a slot of the state. -/
def Held (s : State) (best : Option (SlotId × Slot)) : Prop :=
  ∀ b, best = some b → s.slot b.1 = some b.2

/-- A best slot comes after none other that has been seen. -/
def Beats (base : Word) (best : Option (SlotId × Slot)) (x : Slot) : Prop :=
  ∃ r, best = some r ∧ NotAfter base r.2 x

/-- Fetch sequences lie within half their range. -/
def Near (base : Word) (s : State) : Prop :=
  ∀ i x, s.slot i = some x → (x.seq - base).toNat < 2 ^ 31

theorem betterSlot_held {s : State} {l : Line} {best : Option (SlotId × Slot)} (held : Held s best)
    (i : SlotId) : Held s (betterSlot s l best i) := by
  unfold betterSlot
  cases hx : s.slot i with
  | none => exact held
  | some x =>
    have new : Held s (some (i, x)) := fun b hb => by cases hb; exact hx
    dsimp only
    split
    · cases best with
      | none => exact new
      | some b =>
        dsimp only
        split
        · exact new
        · exact held
    · exact held

/-- A further slot leaves a best one that comes after neither. -/
theorem betterSlot_beats {s : State} {l : Line} {base : Word} (near : Near base s)
    {best : Option (SlotId × Slot)} (held : Held s best) (i : SlotId) :
    (∀ b, best = some b → Beats base (betterSlot s l best i) b.2) ∧
      ∀ x, s.slot i = some x → x.state = .ready → x.line = l →
        Beats base (betterSlot s l best i) x := by
  have keeps : ∀ b, best = some b → Beats base best b.2 := fun b hb => ⟨b, hb, notAfter_refl base b.2⟩
  unfold betterSlot
  cases hx : s.slot i with
  | none => exact ⟨keeps, fun x h => absurd h (by simp)⟩
  | some x =>
    have own : Beats base (some (i, x)) x := ⟨(i, x), rfl, notAfter_refl base x⟩
    dsimp only
    split
    · cases best with
      | none => exact ⟨fun b hb => absurd hb (by simp), fun y hy _ _ => Option.some.inj hy ▸ own⟩
      | some b =>
        have before := comesBefore_iff (near i x hx) (near _ _ (held b rfl))
        dsimp only
        split
        · next first =>
          exact ⟨fun b' hb' => Option.some.inj hb' ▸ ⟨(i, x), rfl, notAfter_of_not (before.1 first)⟩,
            fun y hy _ _ => Option.some.inj hy ▸ own⟩
        · next later =>
          exact ⟨keeps, fun y hy _ _ => Option.some.inj hy ▸ ⟨b, rfl, not_not.1 (before.not.1 later)⟩⟩
    · next other =>
      exact ⟨keeps, fun y hy ready line => absurd (Option.some.inj hy ▸ ⟨ready, line⟩) other⟩

/-- The fold of the arbiter gives a slot that comes after none that it has seen. -/
theorem foldl_betterSlot {s : State} {l : Line} {base : Word} (near : Near base s)
    (is : List SlotId) (best : Option (SlotId × Slot)) (held : Held s best) :
    (∀ b, best = some b → Beats base (is.foldl (betterSlot s l) best) b.2) ∧
    ∀ i ∈ is, ∀ x, s.slot i = some x → x.state = .ready → x.line = l →
      Beats base (is.foldl (betterSlot s l) best) x := by
  induction is generalizing best with
  | nil => exact ⟨fun b hb => ⟨b, hb, notAfter_refl base b.2⟩, fun _ h => absurd h (by simp)⟩
  | cons i is ih =>
    obtain ⟨kept, seen⟩ := betterSlot_beats (l := l) near held i
    obtain ⟨first, rest⟩ := ih (betterSlot s l best i) (betterSlot_held held i)
    have later : ∀ x, Beats base (betterSlot s l best i) x →
        Beats base (is.foldl (betterSlot s l) (betterSlot s l best i)) x := by
      rintro x ⟨r, hr, le⟩
      obtain ⟨r', hr', le'⟩ := first r hr
      exact ⟨r', hr', le'.trans le⟩
    rw [List.foldl_cons]
    refine ⟨fun b hb => later _ (kept b hb), fun j hj x hx ready line => ?_⟩
    rcases List.mem_cons.1 hj with rfl | mem
    · exact later x (seen x hx ready line)
    · exact rest j mem x hx ready line

/-- Settles O54. -/
theorem arbiterGrantsToTheFirstSlot : Obligations.ArbiterGrantsToTheFirstSlot := by
  intro l s base rank near rank_eq
  have ranks : ∀ x, rank x = x.rank := fun x => by
    rw [rank_eq]
    unfold Slot.rank
    cases x.cls <;> rfl
  have seen := (foldl_betterSlot (l := l) near allSlots none fun b h => absurd h (by simp)).2
  refine ⟨⟨fun none_ i x hx line ready => ?_, fun absent => ?_⟩, fun i x chosen => ?_⟩
  · obtain ⟨r, hr, _⟩ := seen i (List.mem_finRange i) x hx ready line
    rw [chooseSlot, hr] at none_
    cases none_
  · cases h : chooseSlot s l with
    | none => rfl
    | some p =>
      obtain ⟨hx, ready, line⟩ := chooseSlot_ready h
      exact absurd ready (absent _ _ hx line)
  · obtain ⟨hx, ready, line⟩ := chooseSlot_ready chosen
    refine ⟨hx, ready, line, fun j y hy yline yready => ?_⟩
    obtain ⟨r, hr, le⟩ := seen j (List.mem_finRange j) y hy yready yline
    rw [chooseSlot, hr] at chosen
    cases chosen
    rw [ranks, ranks]
    exact le

end Sys2Proof.Judgement

/-! The ends of the steps of a SWEEP and of a DISCOVER, the choice of a sweep's step address, and what a
discovery's outcome makes of it. -/

namespace Sys2Proof.Rounds

open Sys2Proof Sys2Proof.Machine Sys2Proof.Safety Sys2Proof.Laws Sys2Proof.NodeTable
  Sys2Proof.FieldLines Sys2Proof.SlotEnds Sys2Proof.Reports Sys2Proof.Steps Sys2Proof.CallEnds
  Sys2Proof.Judgement

/-! ## Lists -/

/-- The first element of a range that meets a condition. -/
theorem find?_finRange {n : Nat} {p : Fin n → Bool} {a : Fin n} (holds : p a = true)
    (first : ∀ b, b < a → p b = false) : (List.finRange n).find? p = some a := by
  obtain ⟨pre, post, split_⟩ := List.append_of_mem (List.mem_finRange a)
  refine List.find?_eq_some_iff_append.2 ⟨holds, pre, post, split_, fun b mem => ?_⟩
  have sorted := List.pairwise_lt_finRange n
  rw [split_, List.pairwise_append] at sorted
  rw [first b (sorted.2.2 b mem a List.mem_cons_self)]
  rfl

theorem find?_append_first {α : Type} {p : α → Bool} {pre post : List α} {a : α}
    (holds : p a = true) (before : ∀ b ∈ pre, p b = false) :
    (pre ++ a :: post).find? p = some a :=
  List.find?_eq_some_iff_append.2 ⟨holds, pre, post, rfl, fun b mem => by rw [before b mem]; rfl⟩

/-! ## SWEEP -/

theorem decideSlot_discovery {i : SlotId} {y z : Slot} {w : DiscoverWork} {st : Status}
    (put : z = { y with work := .discover (w.endedBy st) }) (narrow : Bool) (s : State) :
    decideSlot i y (.discover w) st narrow s = ended i z st (slotDetail s st z) s := by
  unfold decideSlot
  rw [endSlot_discovery (slot_setSlot_self s i _) rfl, ended_setSlot, slotDetail_setSlot]
  subst put
  rfl

theorem sweep_no_commit (w : SweepWork) (v : ParamWork) : Work.sweep w ≠ .param v := by nofun

theorem sweep_no_discovery (w : SweepWork) (v : DiscoverWork) : Work.sweep w ≠ .discover v := by nofun

theorem noted_plain {x : Slot} (h : ∀ w, x.work ≠ .param w) (o : TryOutcome) : noted o x = x := by
  unfold noted
  cases work : x.work with
  | param w => exact absurd work (h w)
  | _ => cases o <;> rfl

/-- A pinged address is marked (R100). -/
theorem pinged_eq {w : SweepWork} {a : Addr} (step : w.step = some a) : w.pinged = { w with
    step := none
    marks := w.marks.map fun p => if p.1 = a then (a, .pinged) else p } := by
  unfold SweepWork.pinged
  rw [step]
  dsimp only
  congr 1
  refine List.map_congr_left fun p _ => ?_
  split
  · next same => rw [same]
  · rfl

theorem sweepStep_ends {l : Line} {s : State} {st : Step} {i : SlotId} {x : Slot} {c : Instr}
    {o : TryOutcome} {w : SweepWork} (h : StepEnds l s st i x c o) (work : x.work = .sweep w) :
    ∃ n m t, StepHeard l s st i x o n ∧ StepOver l s i c o m t ∧
      ∃ e, m = (sweepStepEnd i { x with tries := st.tries } w n).setEngine l e := by
  obtain ⟨n, m, t, heard, over_, e, rfl⟩ := stepEnds_over h
  refine ⟨n, _, t, heard, over_, e, ?_⟩
  have slot := heard.slot
  rw [noted_plain fun v e => by rw [work] at e; cases e] at slot
  unfold slotStepEnd
  rw [slot]
  dsimp only
  rw [work]
  rfl

/-- The end of a SWEEP's ping (R85, R100). -/
theorem sweep_stepEnds {l : Line} {s : State} {st : Step} {i : SlotId} {x : Slot} {c : Instr}
    {o : TryOutcome} {w w' : SweepWork} {a : Addr} (h : StepEnds l s st i x c o)
    (work : x.work = .sweep w) (step : w.step = some a) (started : x.started = true)
    (hw : w' = { w with
      step := none
      marks := w.marks.map fun p => if p.1 = a then (a, .pinged) else p }) :
    ∃ m t, StepOver l s i c o m t ∧
      m.nodes = (reportStep l st.call st.allGarbled o s).nodes ∧
      m.buffer = (reportStep l st.call st.allGarbled o s).buffer ∧
      (if x.abortPending = true then
        Decided i { x with tries := st.tries, work := .sweep w' } .aborted
          (sweepDetail (m.table l) w') s m
      else m.slot i = some { x with state := .ready, tries := st.tries, work := .sweep w' }) := by
  obtain ⟨n, m, t, heard, over_, e, hm⟩ := sweepStep_ends h work
  unfold sweepStepEnd at hm
  rw [pinged_eq step, ← hw] at hm
  refine ⟨m, t, over_, ?_⟩
  split at hm
  · next pending =>
    generalize put : ({ x with tries := st.tries, work := .sweep w' } : Slot) = z
    have zwork : z.work = .sweep w' := by rw [← put]
    have detail : slotDetail n .aborted z = sweepDetail (n.table l) w' := by
      have counted : zeroDetail .aborted z = false := by
        unfold zeroDetail
        rw [zwork]
        dsimp only
        rw [← put, started]
        rfl
      have line : z.line = l := by rw [← put]; exact h.line
      unfold slotDetail
      rw [counted, zwork, line]
      rfl
    rw [decideSlot_direct put.symm (sweep_no_commit w') (sweep_no_discovery w'), detail] at hm
    have table : m.table l = n.table l := by
      rw [hm, setEngine_table, ended_table]
    rw [if_pos pending, table]
    refine ⟨?_, ?_, hm ▸ ended_decided_on heard.results heard.work⟩
    · rw [hm, setEngine_nodes, ended_nodes, heard.nodes]
    · rw [hm, setEngine_buffer, ended_buffer, heard.buffer]
  · next calm =>
    rw [if_neg calm, hm]
    exact ⟨heard.nodes, heard.buffer, slot_setSlot_self n i _⟩

/-! ## The choice of a step address -/

/-- The marks of locked addresses after the first pass. -/
def asideMarks (v : List (Addr × Mark)) : List (Addr × Mark) :=
  v.map fun p => if p.2 = .unvisited then (p.1, .aside) else p

/-- The marks of locked addresses after the second visit. -/
def busyMarks (v : List (Addr × Mark)) : List (Addr × Mark) :=
  v.map fun p => if p.2 = .aside then (p.1, .busy) else p

theorem firstPass_found {locked : Addr → Bool} {pre post : List (Addr × Mark)} {a : Addr}
    (before : ∀ b, (b, Mark.unvisited) ∈ pre → locked b = true) (free : locked a = false) :
    firstPass locked (pre ++ (a, .unvisited) :: post) =
      (asideMarks pre ++ (a, .unvisited) :: post, some a) := by
  induction pre with
  | nil =>
    rw [List.nil_append]
    unfold firstPass
    rw [if_pos ⟨rfl, by rw [free]; rfl⟩]
    rfl
  | cons p pre ih =>
    obtain ⟨b, m⟩ := p
    rw [List.cons_append]
    unfold firstPass
    rw [if_neg (fun ⟨unvisited, open_⟩ => by
      rw [before b (unvisited ▸ List.mem_cons_self)] at open_; cases open_),
      ih fun c mem => before c (List.mem_cons_of_mem _ mem)]
    unfold asideMarks
    rw [List.map_cons, List.cons_append]
    split <;> rfl

theorem firstPass_none {locked : Addr → Bool} {marks : List (Addr × Mark)}
    (all : ∀ b, (b, Mark.unvisited) ∈ marks → locked b = true) :
    firstPass locked marks = (asideMarks marks, none) := by
  induction marks with
  | nil => rfl
  | cons p rest ih =>
    obtain ⟨b, m⟩ := p
    unfold firstPass
    rw [if_neg (fun ⟨unvisited, open_⟩ => by
      rw [all b (unvisited ▸ List.mem_cons_self)] at open_; cases open_),
      ih fun c mem => all c (List.mem_cons_of_mem _ mem)]
    unfold asideMarks
    rw [List.map_cons]
    split <;> rfl

theorem secondVisit_found {locked : Addr → Bool} {pre post : List (Addr × Mark)} {a : Addr}
    (before : ∀ b, (b, Mark.aside) ∈ pre → locked b = true) (free : locked a = false) :
    secondVisit locked (pre ++ (a, .aside) :: post) =
      (busyMarks pre ++ (a, .aside) :: post, some a) := by
  induction pre with
  | nil =>
    rw [List.nil_append]
    unfold secondVisit
    rw [if_pos ⟨rfl, by rw [free]; rfl⟩]
    rfl
  | cons p pre ih =>
    obtain ⟨b, m⟩ := p
    rw [List.cons_append]
    unfold secondVisit
    rw [if_neg (fun ⟨aside, open_⟩ => by
      rw [before b (aside ▸ List.mem_cons_self)] at open_; cases open_),
      ih fun c mem => before c (List.mem_cons_of_mem _ mem)]
    unfold busyMarks
    rw [List.map_cons, List.cons_append]
    split <;> rfl

theorem secondVisit_none {locked : Addr → Bool} {marks : List (Addr × Mark)}
    (all : ∀ b, (b, Mark.aside) ∈ marks → locked b = true) :
    secondVisit locked marks = (busyMarks marks, none) := by
  induction marks with
  | nil => rfl
  | cons p rest ih =>
    obtain ⟨b, m⟩ := p
    unfold secondVisit
    rw [if_neg (fun ⟨aside, open_⟩ => by
      rw [all b (aside ▸ List.mem_cons_self)] at open_; cases open_),
      ih fun c mem => all c (List.mem_cons_of_mem _ mem)]
    unfold busyMarks
    rw [List.map_cons]
    split <;> rfl

/-- A sweep that no early reason holds back is judged by its choice. -/
theorem judgeSlot_sweep {s : State} {i : SlotId} {x : Slot} {w : SweepWork}
    (hx : s.slot i = some x) (work : x.work = .sweep w)
    (judged : x.state = .ready ∨ ∃ r, x.state = .waiting r)
    (free : ∀ r, place r ≤ 4 → ¬Applies s i x r) : judgeSlot i s =
      judgeLate i { x with work := .sweep (w.choose (lockedByOther s x.line i)) } s := by
  have judged' : x.judged = true := by
    unfold Slot.judged
    rcases judged with h | ⟨r, h⟩ <;> rw [h]
  have choice : x.withChoice s i = { x with work := .sweep (w.choose (lockedByOther s x.line i)) } := by
    unfold Slot.withChoice
    rw [work]
  unfold judgeSlot
  rw [hx]
  dsimp only
  rw [if_pos judged', earlyReason_none.2 free, choice]

/-- A sweep with a step address that is not locked is READY. -/
theorem judgeLate_sweep {s : State} {i : SlotId} {y : Slot} {w : SweepWork} {a : Addr}
    (work : y.work = .sweep w) (step : w.step = some a) (free : lockedByOther s y.line i a = false) :
    judgeLate i y s = s.setSlot i (some { y with state := .ready }) := by
  have late : lateReason s i y = none := by
    unfold lateReason lockHolds barrierHolds discoveryHolds Slot.isDiscover
    simp [work, step, free]
  unfold judgeLate Slot.exhausted clashRefused
  rw [late]
  simp [work, step]

/-- A sweep without a step address has nothing left to do (R99). -/
theorem judgeLate_swept {s : State} {i : SlotId} {y : Slot} {w : SweepWork}
    (work : y.work = .sweep w) (step : w.step = none) :
    judgeLate i y s = ended i y .ok (sweepDetail (s.table y.line) w) s := by
  have done : y.exhausted = true := by
    unfold Slot.exhausted
    rw [work]
    dsimp only
    rw [step]
    rfl
  have detail : slotDetail s .ok y = sweepDetail (s.table y.line) w := by
    have counted : zeroDetail .ok y = false := by
      unfold zeroDetail
      rw [work]
    unfold slotDetail
    rw [counted, work]
    rfl
  unfold judgeLate
  rw [if_pos done, endSlot_direct (slot_setSlot_self s i _) (by rw [work]; exact sweep_no_commit w)
    (by rw [work]; exact sweep_no_discovery w), slotDetail_setSlot, ended_setSlot, detail]

theorem sweep_chooses (s : State) (i : SlotId) (x : Slot) (w : SweepWork) (locked : Addr → Prop)
    (hx : s.slot i = some x) (work : x.work = .sweep w)
    (judged : x.state = .ready ∨ ∃ r, x.state = .waiting r)
    (free : ∀ r, place r ≤ 4 → ¬Applies s i x r)
    (hlocked : ∀ a, locked a ↔ ∃ j, (s.entry x.line a).lock = some j ∧ j ≠ i) :
    (∀ pre a post, w.marks = pre ++ (a, .unvisited) :: post →
      (∀ b, (b, Mark.unvisited) ∈ pre → locked b) → ¬locked a →
      judgeSlot i s = s.setSlot i (some { x with
        state := .ready
        work := .sweep { w with
          marks := asideMarks pre ++ (a, .unvisited) :: post, step := some a } })) ∧
    (∀ pre a post, (∀ b, (b, Mark.unvisited) ∈ w.marks → locked b) →
      asideMarks w.marks = pre ++ (a, .aside) :: post →
      (∀ b, (b, Mark.aside) ∈ pre → locked b) → ¬locked a →
      judgeSlot i s = s.setSlot i (some { x with
        state := .ready
        work := .sweep { w with marks := busyMarks pre ++ (a, .aside) :: post, step := some a } })) ∧
    ((∀ b, (b, Mark.unvisited) ∈ w.marks ∨ (b, Mark.aside) ∈ w.marks → locked b) →
      ∀ w', w' = { w with marks := busyMarks (asideMarks w.marks), step := none } →
      judgeSlot i s = ended i { x with work := .sweep w' } .ok
        (sweepDetail (s.table x.line) w') s) := by
  have yes : ∀ a, locked a → lockedByOther s x.line i a = true := fun a h =>
    lockedByOther_iff.2 ((hlocked a).1 h)
  have no : ∀ a, ¬locked a → lockedByOther s x.line i a = false := fun a h =>
    Bool.eq_false_iff.2 fun e => h ((hlocked a).2 (lockedByOther_iff.1 e))
  rw [judgeSlot_sweep hx work judged free]
  refine ⟨fun pre a post marks before open_ => ?_, fun pre a post all marks before open_ => ?_,
    fun all w' hw => ?_⟩
  · have chosen : w.choose (lockedByOther s x.line i) = { w with
        marks := asideMarks pre ++ (a, .unvisited) :: post, step := some a } := by
      unfold SweepWork.choose
      rw [marks, firstPass_found (fun b mem => yes b (before b mem)) (no a open_)]
    rw [chosen]
    exact judgeLate_sweep (y := { x with work := .sweep { w with
      marks := asideMarks pre ++ (a, .unvisited) :: post, step := some a } }) rfl rfl (no a open_)
  · have chosen : w.choose (lockedByOther s x.line i) = { w with
        marks := busyMarks pre ++ (a, .aside) :: post, step := some a } := by
      unfold SweepWork.choose
      rw [firstPass_none fun b mem => yes b (all b mem)]
      dsimp only
      rw [marks, secondVisit_found (fun b mem => yes b (before b mem)) (no a open_)]
    rw [chosen]
    exact judgeLate_sweep (y := { x with work := .sweep { w with
      marks := busyMarks pre ++ (a, .aside) :: post, step := some a } }) rfl rfl (no a open_)
  · have asides : ∀ b, (b, Mark.aside) ∈ asideMarks w.marks → locked b := by
      intro b mem
      obtain ⟨⟨c, m⟩, held, e⟩ := List.mem_map.1 mem
      dsimp only at e
      split at e
      · next unvisited =>
        cases e
        subst unvisited
        exact all b (.inl held)
      · cases e
        exact all b (.inr held)
    have chosen : w.choose (lockedByOther s x.line i) = w' := by
      unfold SweepWork.choose
      rw [firstPass_none fun b mem => yes b (all b (.inl mem))]
      dsimp only
      rw [secondVisit_none fun b mem => yes b (asides b mem), hw]
    rw [chosen]
    exact judgeLate_swept (y := { x with work := .sweep w' }) rfl (by rw [hw])

end Sys2Proof.Rounds

/-! What the outcome of a step makes of a discovery, and the bytes of the two details. -/

namespace Sys2Proof.Discoveries

open Sys2Proof Sys2Proof.Machine Sys2Proof.Safety Sys2Proof.Laws Sys2Proof.NodeTable
  Sys2Proof.FieldLines Sys2Proof.SlotEnds Sys2Proof.Reports Sys2Proof.Steps Sys2Proof.CallEnds
  Sys2Proof.Judgement Sys2Proof.Rounds

/-! ## Candidates -/

/-- A pool address that is not avoided. -/
def eligible (w : DiscoverWork) (a : Addr) : Bool := w.inPool a && !w.avoid.contains a

/-- A candidate that the identity has held before (R132). -/
def isFormer (s : State) (l : Line) (identity : UnitNo) (a : Addr) : Bool :=
  (s.entry l a).identity == some identity && (s.entry l a).state != .clash

def isVacant (s : State) (l : Line) (a : Addr) : Bool := (s.entry l a).state == .vacant

theorem eligible_iff {w : DiscoverWork} {a : Addr} :
    eligible w a = true ↔ w.poolFirst ≤ a ∧ a ≤ w.poolLast ∧ a ∉ w.avoid := by
  unfold eligible DiscoverWork.inPool
  rw [Bool.and_eq_true, Bool.and_eq_true, decide_eq_true_iff, decide_eq_true_iff,
    Bool.not_eq_true', List.contains_eq_mem, decide_eq_false_iff_not, and_assoc, Fin.le_def,
    Fin.le_def]

theorem isFormer_iff {s : State} {l : Line} {u : UnitNo} {a : Addr} :
    isFormer s l u a = true ↔ (s.entry l a).identity = some u ∧ (s.entry l a).state ≠ .clash := by
  unfold isFormer
  simp

theorem isVacant_iff {s : State} {l : Line} {a : Addr} :
    isVacant s l a = true ↔ (s.entry l a).state = .vacant := by
  unfold isVacant
  simp

theorem chooseCandidate_eq (s : State) (l : Line) (w : DiscoverWork) (u : UnitNo) :
    chooseCandidate s l w u =
      ((List.finRange 80).find? fun a => eligible w a && isFormer s l u a).or
        ((List.finRange 80).find? fun a => eligible w a && isVacant s l a) := by
  have both : ∀ q : Addr → Bool, ((List.finRange 80).filter (eligible w)).find? q =
      (List.finRange 80).find? fun a => eligible w a && q a := fun q => by
    rw [List.find?_filter]
    simp only [Bool.decide_and, Bool.decide_eq_true]
  rw [← both, ← both]
  unfold chooseCandidate
  change (match ((List.finRange 80).filter (eligible w)).find? (isFormer s l u) with
    | some a => some a
    | none => ((List.finRange 80).filter (eligible w)).find? (isVacant s l)) = _
  cases ((List.finRange 80).filter (eligible w)).find? (isFormer s l u) <;> rfl

/-- The candidate is chosen from the table's entries. -/
theorem withCandidate_on {m n : State} {l : Line} (entry : m.entry l = n.entry l)
    (w : DiscoverWork) : w.withCandidate m l = w.withCandidate n l := by
  unfold DiscoverWork.withCandidate chooseCandidate
  rw [entry]

theorem takeNext_on {m n : State} {l : Line} (entry : m.entry l = n.entry l)
    (w : DiscoverWork) : w.takeNext m l = w.takeNext n l := by
  unfold DiscoverWork.takeNext
  simp only [withCandidate_on entry]

theorem judgedStep_on {m n : State} {l : Line} (entry : m.entry l = n.entry l) (o : TryOutcome)
    (w : DiscoverWork) : w.judgedStep m l o = w.judgedStep n l o := by
  unfold DiscoverWork.judgedStep DiscoverWork.afterPick DiscoverWork.checked
  simp only [withCandidate_on entry, takeNext_on entry]

/-! ## The end of a DISCOVER's step -/

theorem discoverDetail_of {s : State} {st : Status} {z : Slot} {w : DiscoverWork}
    (counted : st = .aborted ∨ st = .ok) (work : z.work = .discover w) :
    slotDetail s st z = discoverDetail w := by
  have whole : zeroDetail st z = false := by
    unfold zeroDetail
    rw [work]
    rcases counted with rfl | rfl <;> rfl
  unfold slotDetail
  rw [whole, work]
  rfl

theorem discoverStep_ends {l : Line} {s : State} {st : Step} {i : SlotId} {x : Slot} {c : Instr}
    {o : TryOutcome} {w : DiscoverWork} (h : StepEnds l s st i x c o)
    (work : x.work = .discover w) :
    ∃ n m t, StepHeard l s st i x o n ∧ StepOver l s i c o m t ∧
      ∃ e, m = (discoverStepEnd i { x with tries := st.tries } w o n).setEngine l e := by
  obtain ⟨n, m, t, heard, over_, e, rfl⟩ := stepEnds_over h
  refine ⟨n, _, t, heard, over_, e, ?_⟩
  have slot := heard.slot
  rw [noted_plain fun v e => by rw [work] at e; cases e] at slot
  unfold slotStepEnd
  rw [slot]
  dsimp only
  rw [work]
  rfl

/-- What the table holds after a DISCOVER's step: the report, and an ASSIGN that was answered OK. -/
theorem heard_followed {l : Line} {s n : State} {st : Step} {i : SlotId} {x : Slot}
    {o : TryOutcome} (heard : StepHeard l s st i x o n) (w : DiscoverWork) :
    followAssign l w o n =
      withTables n (followAssign l w o (reportStep l st.call st.allGarbled o s)) := by
  have kept := tableUpdate_reportStep l st.call st.allGarbled o
  have reads : Reads l n (reportStep l st.call st.allGarbled o s) :=
    ⟨heard.ms.trans (kept.msKept s).symm, by rw [heard.config, kept.engine]⟩
  exact (tableUpdate_followAssign l w o).on _ reads heard.nodes heard.buffer heard.lost

theorem discoverStepEnd_eq {i : SlotId} {y : Slot} {l : Line} (line : y.line = l)
    (w : DiscoverWork) (o : TryOutcome) (s : State) : discoverStepEnd i y w o s =
      if y.abortPending = true then
        decideSlot i y (.discover (w.judgedStep (followAssign l w o s) l o)) .aborted false
          (followAssign l w o s)
      else discoverContinues i y (w.judgedStep (followAssign l w o s) l o)
        (followAssign l w o s) := by
  subst line
  rfl

/-- The end of a DISCOVER's step (R129 to R137, R140). -/
theorem discover_stepEnds (l : Line) (s : State) (st : Step) (i : SlotId) (x : Slot) (c : Instr)
    (o : TryOutcome) (w : DiscoverWork) (h : StepEnds l s st i x c o)
    (work : x.work = .discover w) :
    ∃ (m t s' : State) (w' : DiscoverWork), StepOver l s i c o m t ∧
      s' = followAssign l w o (reportStep l st.call st.allGarbled o s) ∧
      m.nodes = s'.nodes ∧ m.buffer = s'.buffer ∧ w' = w.judgedStep s' l o ∧
      (if x.abortPending = true then
        Decided i { x with
            tries := st.tries, work := .discover { w' with endReason := .aborted } } .aborted
          (discoverDetail { w' with endReason := .aborted }) s m
      else if w'.endReason = .none then
        m.slot i = some { x with state := .ready, tries := st.tries, work := .discover w' }
      else
        Decided i { x with tries := st.tries, work := .discover w' } .ok (discoverDetail w')
          s m) := by
  obtain ⟨n, m, t, heard, over_, e, hm⟩ := discoverStep_ends h work
  obtain ⟨y, hy⟩ : ∃ y, y = { x with tries := st.tries } := ⟨_, rfl⟩
  rw [← hy, discoverStepEnd_eq (y := y) (l := l) (by rw [hy]; exact h.line)] at hm
  have pending_iff : y.abortPending = x.abortPending := by rw [hy]
  have after := heard_followed heard w
  generalize hs' : followAssign l w o (reportStep l st.call st.allGarbled o s) = s' at after
  generalize hn' : followAssign l w o n = n' at hm after
  have results : n'.resultRing = s.resultRing := by rw [after]; exact heard.results
  have rings : n'.workRing = s.workRing := by rw [after]; exact heard.work
  have nodes : n'.nodes = s'.nodes := by rw [after]; rfl
  have buffer : n'.buffer = s'.buffer := by rw [after]; rfl
  have entry : n'.entry l = s'.entry l := by
    funext a
    simp only [State.entry, State.table, nodes]
  rw [judgedStep_on entry] at hm
  generalize hw : w.judgedStep s' l o = w' at hm
  refine ⟨m, t, s', w', over_, rfl, ?_⟩
  split at hm
  · next pending =>
    generalize put : ({ x with
      tries := st.tries, work := .discover { w' with endReason := .aborted } } : Slot) = z
    rw [decideSlot_discovery (z := z) (by rw [← put, hy]; rfl), discoverDetail_of (w := { w' with
      endReason := .aborted }) (.inl rfl) (by rw [← put])] at hm
    rw [if_pos (pending_iff ▸ pending)]
    exact ⟨by rw [hm, setEngine_nodes, ended_nodes, nodes],
      by rw [hm, setEngine_buffer, ended_buffer, buffer], hw.symm, hm ▸ ended_decided_on results rings⟩
  · next calm =>
    rw [if_neg (pending_iff ▸ calm)]
    unfold discoverContinues at hm
    split at hm
    · next going =>
      rw [if_pos going, hm, hy]
      exact ⟨nodes, buffer, hw.symm, slot_setSlot_self n' i _⟩
    · next over' =>
      rw [if_neg over']
      generalize put : ({ x with tries := st.tries, work := .discover w' } : Slot) = z
      rw [decideSlot_discovery (z := z) (by rw [← put, hy]; rfl), discoverDetail_of (w := w') (.inr rfl)
        (by rw [← put])] at hm
      exact ⟨by rw [hm, setEngine_nodes, ended_nodes, nodes],
        by rw [hm, setEngine_buffer, ended_buffer, buffer], hw.symm,
        hm ▸ ended_decided_on results rings⟩

/-! ## The outcome of a step -/

theorem classed_eq (o : TryOutcome) (w : DiscoverWork) : w.classed o = pickClassed o w := by
  cases o with
  | replied r =>
    unfold DiscoverWork.classed pickClassed DiscoverWork.cleanIdentity
    dsimp only
    cases status : r.status with
    | ok =>
      dsimp only
      rw [if_pos rfl]
      cases pickIdentity r.data with
      | none => rfl
      | some u =>
        dsimp only
        have held : (w.clean.any fun c => c.identity == u) = true ↔ ∃ p ∈ w.clean, p.identity = u := by
          simp
        by_cases known : ∃ p ∈ w.clean, p.identity = u
        · rw [if_pos (held.2 known), if_pos known]
          rfl
        · rw [if_neg (mt held.1 known), if_neg known]
          rfl
    | _ => rfl
  | _ => rfl

theorem placed_taken {w : DiscoverWork} {c : CleanPosition} {a : Addr} {o : TryOutcome}
    (taken : (assignData o).map (fun d => d.1) = some c.identity) :
    w.placed c a o = assignSettled c a true w := by
  unfold DiscoverWork.placed assignSettled DiscoverWork.marked DiscoverWork.avoided
  rw [if_pos taken]
  rfl

theorem placed_lost {w : DiscoverWork} {c : CleanPosition} {a : Addr} {o : TryOutcome}
    (lost : (assignData o).map (fun d => d.1) ≠ some c.identity) :
    w.placed c a o = assignSettled c a false w := by
  unfold DiscoverWork.placed assignSettled DiscoverWork.marked DiscoverWork.avoided
  rw [if_neg lost]
  rfl

theorem assignData_some {o : TryOutcome} {d : UnitNo × Byte × ZoneSet} :
    assignData o = some d ↔ ∃ r, o = .replied r ∧ r.status = .ok ∧ pingData r.data = some d := by
  cases o with
  | replied r =>
    unfold assignData
    dsimp only
    split
    · next ok =>
      exact ⟨fun h => ⟨r, rfl, ok, h⟩, by rintro ⟨r', e, _, h⟩; cases e; exact h⟩
    · next bad =>
      exact ⟨fun h => absurd h (by simp), by rintro ⟨r', e, ok, _⟩; cases e; exact absurd ok bad⟩
  | _ => exact ⟨fun h => absurd h (by simp [assignData]), by rintro ⟨_, e, _⟩; cases e⟩

theorem checked_eq {w : DiscoverWork} {s : State} {l : Line} {o : TryOutcome} {a : Addr}
    (candidate : w.candidate = some a) : w.checked s l o =
      if o = .noReply then { w with phase := .assign }
      else ({ w with avoid := w.avoid ++ [a] }).withCandidate s l := by
  unfold DiscoverWork.checked
  rw [candidate]
  cases o <;> simp [DiscoverWork.avoided, candidate]

theorem judgedStep_phases (w : DiscoverWork) (s : State) (l : Line) (o : TryOutcome) (a : Addr)
    (c : CleanPosition) (w1 : DiscoverWork) :
    (w.phase = .roll → w.judgedStep s l .sent = { w with phase := .pick } ∧
      w.judgedStep s l .collided = w.roundEnd false) ∧
    (w.phase = .pick →
      w1 = pickClassed o w →
      w.judgedStep s l o =
        if w.nextPosition + 1 < w.positions then { w1 with nextPosition := w.nextPosition + 1 }
        else ({ w1 with nextPosition := w.nextPosition + 1 }).takeNext s l) ∧
    (w.phase = .check → w.candidate = some a →
      w.judgedStep s l o =
        if o = .noReply then { w with phase := .assign }
        else ({ w with avoid := w.avoid ++ [a] }).withCandidate s l) ∧
    (w.phase = .assign → w.candidate = some a → w.current = some c →
      ((∀ r d, o = .replied r → r.status = .ok → pingData r.data = some d → d.1 ≠ c.identity) →
        w.judgedStep s l o = (assignSettled c a false w).takeNext s l) ∧
      ∀ r d, o = .replied r → r.status = .ok → pingData r.data = some d → d.1 = c.identity →
        w.judgedStep s l o = (assignSettled c a true w).takeNext s l) := by
  refine ⟨fun phase => ?_, fun phase hw => ?_, fun phase candidate => ?_,
    fun phase candidate current => ?_⟩
  · unfold DiscoverWork.judgedStep
    rw [phase]
    exact ⟨rfl, rfl⟩
  · have sizes : w1.nextPosition = w.nextPosition ∧ w1.positions = w.positions := by
      rw [hw]
      unfold pickClassed
      split <;> (try split) <;> (try split) <;> exact ⟨rfl, rfl⟩
    unfold DiscoverWork.judgedStep
    rw [phase]
    dsimp only
    rw [classed_eq, ← hw]
    unfold DiscoverWork.afterPick
    rw [sizes.1]
    dsimp only
    rw [sizes.2]
  · have step : w.judgedStep s l o = w.checked s l o := by
      unfold DiscoverWork.judgedStep
      rw [phase]
    rw [step, checked_eq candidate]
  · have step : w.judgedStep s l o = (w.placed c a o).takeNext s l := by
      unfold DiscoverWork.judgedStep
      rw [phase]
      dsimp only
      rw [current, candidate]
    rw [step]
    refine ⟨fun other => ?_, fun r d replied ok data same => ?_⟩
    · rw [placed_lost fun h => ?_]
      obtain ⟨d, held, same⟩ := Option.map_eq_some_iff.1 h
      obtain ⟨r, replied, ok, data⟩ := assignData_some.1 held
      exact other r d replied ok data same
    · rw [placed_taken]
      rw [assignData_some.2 ⟨r, replied, ok, data⟩, Option.map_some, same]

/-! ## The clean list and the round's end -/

theorem roundEnd_eq (w : DiscoverWork) (quiet : Bool) : w.roundEnd quiet =
    (if quiet = true ∧ w.roundCollided = 0 ∧ w.clean = [] then
      { w with current := none, candidate := none, endReason := .quiet }
    else if w.rounds = w.roundLimit then
      { w with current := none, candidate := none, endReason := .roundLimit }
    else { w with current := none, candidate := none, phase := .roll }) := rfl

theorem takeNext_none {w : DiscoverWork} {s : State} {l : Line}
    (all : ∀ p ∈ w.clean, p.mark ≠ .pending) : w.takeNext s l = w.roundEnd true := by
  unfold DiscoverWork.takeNext
  rw [List.find?_eq_none.2 fun p mem => by simpa using all p mem]

theorem takeNext_first {w : DiscoverWork} {s : State} {l : Line} {pre post : List CleanPosition}
    {c : CleanPosition} (clean : w.clean = pre ++ c :: post)
    (before : ∀ p ∈ pre, p.mark ≠ .pending) (pending : c.mark = .pending) :
    w.takeNext s l = ({ w with current := some c, candidate := none }).withCandidate s l := by
  unfold DiscoverWork.takeNext
  rw [clean, find?_append_first (by simpa using pending) fun p mem => by simpa using before p mem]

theorem withCandidate_eq {w : DiscoverWork} {s : State} {l : Line} {c : CleanPosition}
    (current : w.current = some c) : w.withCandidate s l =
      match chooseCandidate s l w c.identity with
      | some a => { w with phase := .check, candidate := some a }
      | none => { w with candidate := none, endReason := .poolExhausted } := by
  unfold DiscoverWork.withCandidate
  rw [current] <;> rfl

theorem find?_range_none {p : Addr → Bool} (h : ∀ b, p b = false) :
    (List.finRange 80).find? p = none :=
  List.find?_eq_none.2 fun b _ => by rw [h b]; exact Bool.false_ne_true

/-- The candidate of a position (R132). -/
theorem withCandidate_chooses (w : DiscoverWork) (s : State) (l : Line) (c : CleanPosition)
    (former free : Addr → Prop) (current : w.current = some c)
    (hformer : ∀ a, former a ↔ w.poolFirst ≤ a ∧ a ≤ w.poolLast ∧ a ∉ w.avoid ∧
      (s.entry l a).identity = some c.identity ∧ (s.entry l a).state ≠ .clash)
    (hfree : ∀ a, free a ↔ w.poolFirst ≤ a ∧ a ≤ w.poolLast ∧ a ∉ w.avoid ∧
      (s.entry l a).state = .vacant) :
    (∀ a, former a → (∀ b, b < a → ¬former b) →
      w.withCandidate s l = { w with phase := .check, candidate := some a }) ∧
    (∀ a, (∀ b, ¬former b) → free a → (∀ b, b < a → ¬free b) →
      w.withCandidate s l = { w with phase := .check, candidate := some a }) ∧
    ((∀ b, ¬former b) → (∀ b, ¬free b) →
      w.withCandidate s l = { w with candidate := none, endReason := .poolExhausted }) := by
  have formerB : ∀ a, (eligible w a && isFormer s l c.identity a) = true ↔ former a := fun a => by
    rw [Bool.and_eq_true, eligible_iff, isFormer_iff, hformer, and_assoc, and_assoc]
  have freeB : ∀ a, (eligible w a && isVacant s l a) = true ↔ free a := fun a => by
    rw [Bool.and_eq_true, eligible_iff, isVacant_iff, hfree, and_assoc, and_assoc]
  have noFormer : ∀ b, ¬former b → (eligible w b && isFormer s l c.identity b) = false :=
    fun b h => Bool.eq_false_iff.2 fun e => h ((formerB b).1 e)
  have noFree : ∀ b, ¬free b → (eligible w b && isVacant s l b) = false :=
    fun b h => Bool.eq_false_iff.2 fun e => h ((freeB b).1 e)
  rw [withCandidate_eq current, chooseCandidate_eq]
  refine ⟨fun a held first => ?_, fun a none held first => ?_, fun none none' => ?_⟩
  · rw [find?_finRange ((formerB a).2 held) fun b lt => noFormer b (first b lt)]
    rfl
  · rw [find?_range_none fun b => noFormer b (none b),
      find?_finRange ((freeB a).2 held) fun b lt => noFree b (first b lt)]
    rfl
  · rw [find?_range_none fun b => noFormer b (none b), find?_range_none fun b => noFree b (none' b)]
    rfl

/-! ## The details -/

theorem sweepDetail_counts (w : SweepWork) (table : Vector NodeEntry 80)
    (count : (Addr × Mark → Bool) → Byte)
    (h : ∀ p, count p = byteOf (w.marks.countP p)) : sweepDetail table w =
      [count fun m => m.2 == .pinged,
        count fun m => m.2 == .pinged && table[m.1].state == .present,
        count fun m => m.2 == .pinged && table[m.1].state == .silent,
        count fun m => m.2 == .pinged && table[m.1].state == .clash,
        count fun m => m.2 == .busy] := by
  unfold sweepDetail countPinged
  simp only [h, List.countP_eq_length_filter]

theorem discoverDetail_bytes (w : DiscoverWork) : discoverDetail w =
    [(match w.endReason with
      | .none => 0 | .quiet => 1 | .roundLimit => 2 | .poolExhausted => 3 | .aborted => 4
      | .cut => 5),
      byteOf w.rounds, byteOf w.assigned, byteOf w.lost, byteOf w.cleanTotal,
      byteOf w.collidedTotal, byteOf w.roundCollided] := by
  unfold discoverDetail
  cases w.endReason <;> rfl

/-- Settles O46. -/
theorem sweepAndDiscoverStepsEnd : Obligations.SweepAndDiscoverStepsEnd := by
  refine ⟨fun _ _ _ _ _ _ _ _ _ _ h work step started hw => sweep_stepEnds h work step started hw,
    fun s i x w locked aside busy hx work judged free hlocked haside hbusy => ?_,
    discover_stepEnds, judgedStep_phases, fun w s l quiet => ⟨roundEnd_eq w quiet, takeNext_none,
      fun _ _ _ => takeNext_first, withCandidate_chooses w s l⟩, sweepDetail_counts,
    discoverDetail_bytes⟩
  obtain rfl : aside = asideMarks := funext haside
  obtain rfl : busy = busyMarks := funext hbusy
  exact sweep_chooses s i x w locked hx work judged free hlocked

end Sys2Proof.Discoveries

/-! Tries that are repeated, and the windows of a listen series. -/

namespace Sys2Proof.Windows

open Sys2Proof Sys2Proof.Machine Sys2Proof.Safety Sys2Proof.Laws Sys2Proof.NodeTable
  Sys2Proof.Registers Sys2Proof.FieldLines Sys2Proof.SlotEnds Sys2Proof.Reports Sys2Proof.Steps
  Sys2Proof.CallEnds

/-! ## Repeated tries -/

theorem stepOver_goes {e : LineEngine} {st : Step} {o : TryOutcome}
    (failed : o = .noReply ∨ o = .garbled ∨ o = .collided) (left : st.tries ≤ st.retryLimit)
    (normal : e.headEnd = .normal) : stepOver e (st.afterTry o) o = false := by
  have more : ¬(st.afterTry o).retryLimit + 1 ≤ (st.afterTry o).tries := by
    show ¬st.retryLimit + 1 ≤ st.tries
    omega
  unfold stepOver
  rcases failed with rfl | rfl | rfl <;> simp [more, normal]

theorem waitForTry_collided (l : Line) (s : State) : waitForTry l .collided s =
    { s.setEngine l { s.engine l with next := .backoff ((Config.backoff s.draws).val + 1) } with
      draws := s.draws + 1 } := by
  cases l <;> rfl

/-- A commit of the holder in phase COMMIT takes the unverified mark, and no other slot changes. -/
theorem tried_marks {l : Line} {s : State} (st : Step) {o : TryOutcome}
    (lost : o = .noReply ∨ o = .garbled) :
    (∀ i x w, (s.engine l).holder = .slot i → s.slot i = some x → x.work = .param w →
      w.phase = some .commit →
      (tried l st o s).slot i = some { x with work := .param { w with unverified := true } }) ∧
    ∀ j, ¬((s.engine l).holder = .slot j ∧ ∃ x w, s.slot j = some x ∧ x.work = .param w ∧
      w.phase = some .commit) → (tried l st o s).slot j = s.slot j := by
  refine ⟨fun i x w holder slot work phase => ?_, fun j other => ?_⟩
  · rw [tried_slot holder slot, slot_setSlot_self]
    unfold noted
    rw [work]
    rcases lost with rfl | rfl <;> simp only [phase, if_true]
  · by_cases held : ∃ i x, (s.engine l).holder = .slot i ∧ s.slot i = some x
    · obtain ⟨i, x, holder, slot⟩ := held
      rw [tried_slot holder slot]
      by_cases same : j = i
      · subst same
        rw [slot_setSlot_self, slot]
        congr 1
        unfold noted
        cases work : x.work with
        | param w =>
          have phase : w.phase ≠ some .commit := fun e => other ⟨holder, x, w, slot, work, e⟩
          rcases lost with rfl | rfl <;> exact if_neg phase
        | _ => rcases lost with rfl | rfl <;> rfl
      · exact slot_setSlot_ne _ _ same
    · have none : tried l st o s = s.setEngine l ((s.engine l).afterTry (st.afterTry o) o) := by
        unfold tried noteLostCommit markUnverified
        rcases lost with rfl | rfl
        all_goals
          dsimp only
          rw [engine_setEngine_self]
          split
          · next i holder =>
            split
            · next x slot => exact absurd ⟨i, x, holder, slot⟩ held
            · rfl
          all_goals rfl
      rw [none]
      rfl

theorem tried_engine (l : Line) (st : Step) (o : TryOutcome) (s : State) :
    (tried l st o s).engine l = (s.engine l).afterTry (st.afterTry o) o := by
  have rest : (tried l st o s).lines = (s.setEngine l _).lines :=
    (congrArg State.lines (tried_rest l st o s) :)
  unfold State.engine at rest ⊢
  rw [rest]
  exact engine_setEngine_self s l _

/-- The failed try of a step that goes on: the next one waits for the gap, or begins. -/
theorem failedTry {l : Line} {s : State} {st : Step} {c : Instr} {o : TryOutcome}
    (live : s.device ≠ .halted) (step : (s.engine l).step = some st)
    (left : st.tries ≤ st.retryLimit) (normal : (s.engine l).headEnd = .normal)
    (cut : noCut s l = true) (ends : TryEnds l s st c o) (lost : o = .noReply ∨ o = .garbled) :
    exec c s = .next (afterLine l (afterGap l (tried l st o s))) := by
  have over_ : stepOver (s.engine l) (st.afterTry o) o = false :=
    stepOver_goes (lost.elim .inl fun h => .inr (.inl h)) left normal
  rw [tryEnds_exec live step ends
      (fun _ sent => absurd sent (by rcases lost with rfl | rfl <;> simp)),
    endTry_waits step cut over_]
  rcases lost with rfl | rfl <;> rfl

theorem afterGap_rest (l : Line) (s : State) :
    ∃ e, afterGap l s = s.setEngine l e := by
  unfold afterGap beginTry
  split
  · dsimp only
    split
    · exact ⟨_, (setEngine_self s l).symm⟩
    · exact ⟨_, rfl⟩
  · exact ⟨_, rfl⟩

/-- What a try without reply, or a garbled one, leaves before the next one. -/
theorem failedTry_leaves (l : Line) (st : Step) {o : TryOutcome} (s : State)
    (lost : o = .noReply ∨ o = .garbled) {m : State} (hm : m = afterGap l (tried l st o s)) :
    Worked s m ∧ m.nodes = s.nodes ∧ m.buffer = s.buffer ∧
      (∀ i x w, (s.engine l).holder = .slot i → s.slot i = some x → x.work = .param w →
        w.phase = some .commit →
        m.slot i = some { x with work := .param { w with unverified := true } }) ∧
      ∀ j, ¬((s.engine l).holder = .slot j ∧ ∃ x w, s.slot j = some x ∧ x.work = .param w ∧
        w.phase = some .commit) → m.slot j = s.slot j := by
  obtain ⟨e, he⟩ := afterGap_rest l (tried l st o s)
  have marks := tried_marks (s := s) (l := l) st lost
  have rest := tried_rest l st o s
  have worked : Worked s (tried l st o s) :=
    worked_noteLostCommit (worked_setEngine (worked_refl s) l _) l o
  refine ⟨hm ▸ worked_afterGap worked l, ?_, ?_, ?_, ?_⟩
  · rw [hm, he]
    exact (congrArg State.nodes rest :)
  · rw [hm, he]
    exact (congrArg State.buffer rest :)
  · rw [hm, he]
    exact marks.1
  · rw [hm, he]
    exact marks.2

/-- Settles O40. -/
theorem failedTriesAreRepeated : Obligations.FailedTriesAreRepeated := by
  refine ⟨fun l s st live calling step left normal cut => ?_,
    fun l s st marked live step left normal cut hmarked => ⟨fun awaiting => ?_,
      fun c receiving hc => ?_⟩⟩
  · refine ⟨(Config.backoff s.draws).val + 1, _, ?_, by omega, by omega, afterLine_after l _⟩
    rw [tryEnds_exec (o := .collided) live step (.inr (.inl ⟨rfl, calling, rfl⟩))
      (fun _ h => by cases h), endTry_waits step cut (stepOver_goes (.inr (.inr rfl)) left normal)]
    congr 2
    rw [waitForTry_collided, show tried l st .collided s = s.setEngine l
      ((s.engine l).afterTry (st.afterTry .collided) .collided) from rfl, setEngine_setEngine,
      engine_setEngine_self]
    simp only [LineEngine.afterTry, Step.afterTry, Bool.and_false]
    rfl
  · have run := failedTry live step left normal cut (o := .noReply) (c := .replyWindowTimeout l)
      (.inr (.inr (.inl ⟨rfl, awaiting, rfl⟩))) (.inl rfl)
    obtain ⟨worked, nodes, buffer, commit, others⟩ := failedTry_leaves l st s (.inl rfl) rfl
    refine ⟨_, _, run, worked, afterLine_after l _, nodes, buffer, (hmarked _).2 ⟨commit, others⟩, ?_⟩
    have engine := tried_engine l st .noReply s
    split
    · next quiet =>
      rw [afterGap_quiet (by rw [engine]; exact Bool.and_eq_true_iff.2 ⟨quiet, rfl⟩),
        beginTry_eq (st := st.afterTry .noReply) (by rw [engine]; rfl), engine_setEngine_self, engine]
      simp only [LineEngine.afterTry, Step.afterTry, Bool.and_false]
    · next noisy =>
      rw [afterGap_waits (by rw [engine]; exact Bool.and_eq_false_iff.2 (.inl (by simpa using noisy))),
        engine_setEngine_self, engine]
      simp only [LineEngine.afterTry, Step.afterTry, Bool.and_false, Bool.and_true]
  · have ends : TryEnds l s st c .garbled := by
      rcases hc with rfl | ⟨frame, rfl, bad⟩
      · exact .inr (.inr (.inr (.inl ⟨rfl, receiving, rfl⟩)))
      · exact .inr (.inr (.inr (.inr ⟨frame, rfl, receiving, by rw [bad]⟩)))
    have run := failedTry live step left normal cut ends (.inr rfl)
    obtain ⟨worked, nodes, buffer, commit, others⟩ := failedTry_leaves l st s (.inr rfl) rfl
    refine ⟨_, _, run, worked, afterLine_after l _, nodes, buffer, (hmarked _).2 ⟨commit, others⟩, ?_⟩
    have engine := tried_engine l st .garbled s
    rw [afterGap_waits (by rw [engine]; exact Bool.and_false _), engine_setEngine_self, engine]
    simp only [LineEngine.afterTry, Step.afterTry, Bool.and_false, Bool.and_true]
    rw [← step]

/-! ## The ends of windows -/

/-- A series is over, and the listen interval timer starts (R38, R146). -/
def seriesOver (now : Word) (e : LineEngine) : LineEngine :=
  { e with series := none, listenTimer := some (now + BitVec.ofNat 32 e.config.listenInterval) }

/-- What the end of a window makes of the engine (R146). -/
def windowOver (out : WindowOutcome) (sr : Series) (now : Word) (e : LineEngine) : LineEngine :=
  if out = .empty then seriesOver now e
  else if 4 ≤ sr.window then seriesOver now { e with listenDue := true }
  else if sr.stopping = true then seriesOver now e
  else { e with series := some { sr with last := some out, ack := none } }

theorem windowOver_valid (sr : Series) (now : Word) (e : LineEngine) :
    windowOver .valid sr now e =
      if 4 ≤ sr.window then seriesOver now { e with listenDue := true }
      else if sr.stopping = true then seriesOver now e
      else { e with series := some { sr with last := some .valid, ack := none } } :=
  if_neg (by simp)

theorem endSeries_eq (l : Line) (s : State) :
    endSeries l s = s.setEngine l (seriesOver s.ms (s.engine l)) := rfl

theorem windowEnd_eq {l : Line} {s : State} {sr : Series} (series : (s.engine l).series = some sr)
    (out : WindowOutcome) :
    windowEnd l out s = s.setEngine l (windowOver out sr s.ms (s.engine l)) := by
  unfold windowEnd windowOver
  dsimp only
  split
  · next none => exact absurd (series.symm.trans none) (by simp)
  · next sr' held =>
    obtain rfl : sr = sr' := Option.some.inj (series.symm.trans held)
    split
    · rfl
    · split
      · rw [endSeries_eq, setEngine_setEngine, engine_setEngine_self]
        rfl
      · split <;> rfl

/-- The grant of a window ends with it. -/
theorem grantEnded_windowEnd {l : Line} {s : State} {sr : Series}
    (series : (s.engine l).series = some sr) (waits : noWaiting s l = true) (out : WindowOutcome) :
    grantEnded l (windowEnd l out s) =
      s.setEngine l (grantOver (windowOver out sr s.ms (s.engine l))) := by
  rw [windowEnd_eq series, grantEnded_noWaiting (s := s.setEngine l _) waits, setEngine_setEngine,
    engine_setEngine_self]

theorem endWindow_eq {l : Line} {s : State} {sr : Series} (series : (s.engine l).series = some sr)
    (waits : noWaiting s l = true) (out : WindowOutcome) :
    endWindow l out s = s.setEngine l (grantOver (windowOver out sr s.ms { s.engine l with
      state := .idle, frameStarted := false, quiet := (s.engine l).quiet && out == .empty })) := by
  have goes : s.cutting l = false := by
    rw [cutting_iff, noCut_of_noWaiting waits]
    rfl
  unfold endWindow
  dsimp only
  generalize he : ({ s.engine l with
    state := .idle, frameStarted := false, quiet := (s.engine l).quiet && out == .empty }
      : LineEngine) = e
  have cut : (s.setEngine l e).cutting l = false := goes
  rw [cut, if_neg Bool.false_ne_true,
    grantEnded_windowEnd (s := s.setEngine l e)
      (by rw [engine_setEngine_self, ← he]; exact series) waits, setEngine_setEngine,
    engine_setEngine_self]
  rfl

/-- A listen window ends without a start. -/
theorem exec_windowEmpty {l : Line} {s : State} (live : s.device ≠ .halted)
    (listening : (s.engine l).state = .listening) (none : (s.engine l).frameStarted = false) :
    exec (.listenWindowEmpty l) s = .next (afterLine l (endWindow l .empty s)) := by
  show Host.Outcome.next (windowEmpties l s) = _
  unfold windowEmpties
  dsimp only
  rw [if_pos ⟨live_of_ne live, listening, by rw [none]; rfl⟩]

/-- A listen window ends garbled, or with a frame that is no valid notice. -/
theorem exec_windowGarbled {l : Line} {s : State} {c : Instr} (live : s.device ≠ .halted)
    (listening : (s.engine l).state = .listening) (started : (s.engine l).frameStarted = true)
    (hc : c = .garbledReception l ∨
      ∃ frame, c = .noticeFrameEnd l frame ∧ judgeNotice frame = none) :
    exec c s = .next (afterLine l (endWindow l .garbled s)) := by
  rcases hc with rfl | ⟨frame, rfl, bad⟩
  · show Host.Outcome.next (receptionGarbles l s) = _
    simp only [receptionGarbles, live_of_ne live, listening, started, if_true]
  · show Host.Outcome.next (noticeEnds l frame s) = _
    unfold noticeEnds
    dsimp only
    rw [if_pos ⟨live_of_ne live, listening, started⟩, bad]

/-- A LISTEN that ends COLLIDED ends the series (R145). -/
theorem listen_collides {l : Line} {s : State} {sr : Series} {st : Step}
    (live : s.device ≠ .halted) (calling : (s.engine l).state = .calling)
    (holder : (s.engine l).holder = .series) (series : (s.engine l).series = some sr)
    (ack : sr.ack = none) (step : (s.engine l).step = some st) (last : st.retryLimit < st.tries)
    (waits : noWaiting s l = true) :
    ∃ t, exec (.collisionDetected l) s = .next t ∧
      After l (s.setEngine l (grantOver { s.engine l with
        state := .idle, quiet := false, series := none
        listenTimer := some (s.ms + BitVec.ofNat 32 (s.engine l).config.listenInterval) })) t := by
  have over_ : stepOver (s.engine l) (st.afterTry .collided) .collided = true :=
    Bool.or_eq_true_iff.2 (.inl (decide_eq_true last))
  refine ⟨_, tryEnds_exec (o := .collided) live step (.inr (.inl ⟨rfl, calling, rfl⟩))
    (fun _ h => by cases h), ?_⟩
  rw [endTry_over step (noCut_of_noWaiting waits) over_,
    tried_other fun i => by rw [holder]; exact fun h => by cases h]
  unfold endStep
  rw [engine_setEngine_self, show ((s.engine l).afterTry (st.afterTry .collided) .collided).holder =
    .series from holder, show ((s.engine l).afterTry (st.afterTry .collided) .collided).series =
    some sr from series]
  dsimp only
  rw [ack]
  dsimp only
  rw [grantEnded_windowEnd (s := s.setEngine l _) (by rw [engine_setEngine_self]; exact series) waits,
    setEngine_setEngine, engine_setEngine_self]
  unfold windowOver seriesOver LineEngine.afterTry
  rw [if_pos rfl, Bool.and_false]
  exact afterLine_after l _

/-- The end of a TAKEN (R146, R148). -/
theorem taken_ends {l : Line} {s : State} {sr : Series} {st : Step} {a : Addr} {q : BitVec 4}
    {c : Instr} {o : TryOutcome} {e : LineEngine} (live : s.device ≠ .halted)
    (holder : (s.engine l).holder = .series) (series : (s.engine l).series = some sr)
    (ack : sr.ack = some (a, q)) (step : (s.engine l).step = some st)
    (call : st.call = { target := .node a, verb := 9, reply := true, args := [q.setWidth 8] })
    (he : e = { s.engine l with
      state := .idle
      quiet := (s.engine l).quiet && (match o with | .noReply => true | _ => false)
      listenDue := (s.engine l).listenDue ||
        (match o with | .replied r => r.noticePending | _ => false) })
    (ends : TryEnds l s st c o)
    (last : o = .noReply ∨ o = .garbled ∨ o = .collided → st.retryLimit < st.tries)
    (waits : noWaiting s l = true) :
    exec c s = .next (afterLine l ((reportStep l st.call st.allGarbled o s).setEngine l
      (grantOver (windowOver .valid sr s.ms e)))) := by
  have over_ : stepOver (s.engine l) (st.afterTry o) o = true := by
    unfold stepOver
    cases o with
    | sent => rfl
    | replied r => rfl
    | noReply => exact Bool.or_eq_true_iff.2 (.inl (decide_eq_true (last (.inl rfl))))
    | garbled => exact Bool.or_eq_true_iff.2 (.inl (decide_eq_true (last (.inr (.inl rfl)))))
    | collided => exact Bool.or_eq_true_iff.2 (.inl (decide_eq_true (last (.inr (.inr rfl)))))
  have noSlot : ∀ i, (s.engine l).holder ≠ .slot i := fun i => by
    rw [holder]
    exact fun h => by cases h
  have update := tableUpdate_reportStep l st.call st.allGarbled o
  have held : ((tried l st o s).engine l).holder = .series := by
    rw [tried_engine]
    exact holder
  have series' : ((tried l st o s).engine l).series = some sr := by
    rw [tried_engine]
    exact series
  rw [tryEnds_exec live step ends (fun silent => by rw [call] at silent; cases silent),
    endTry_over step (noCut_of_noWaiting waits) over_]
  congr 2
  unfold endStep
  rw [held, series']
  dsimp only
  rw [ack]
  dsimp only
  show grantEnded l (windowEnd l .valid (reported l st o s)) = _
  rw [reported_other noSlot, grantEnded_windowEnd
      (s := (reportStep l st.call st.allGarbled o s).setEngine l (overEngine st o (s.engine l)))
      (by rw [engine_setEngine_self]; exact series)
      (noWaiting_admin (update.admin s) waits),
    setEngine_setEngine, engine_setEngine_self]
  congr 1
  rw [show ((reportStep l st.call st.allGarbled o s).setEngine l
    (overEngine st o (s.engine l))).ms = s.ms from update.msKept s, he]
  rw [windowOver_valid, windowOver_valid]
  unfold overEngine LineEngine.afterTry asksListen
  split
  · cases o <;> rfl
  · split <;> cases o <;> rfl

/-- Settles O43. -/
theorem listenWindowsEndTheirGrant : Obligations.ListenWindowsEndTheirGrant := by
  refine ⟨fun l s sr c live listening series waits hc => ⟨fun none => ?_, fun started few going => ?_,
      fun started few stopping => ?_, fun started many => ?_⟩,
    fun l s sr st live calling holder series ack step last waits =>
      listen_collides live calling holder series ack step last waits,
    fun l s sr st a q c o e live holder series ack step call ends last waits he => ?_⟩
  · refine ⟨_, exec_windowEmpty live listening none, ?_⟩
    rw [endWindow_eq series waits]
    unfold windowOver
    rw [if_pos rfl, show ((s.engine l).quiet && WindowOutcome.empty == .empty) = (s.engine l).quiet
      from Bool.and_true _]
    exact afterLine_after l _
  · refine ⟨_, exec_windowGarbled live listening started hc, ?_⟩
    rw [endWindow_eq series waits]
    unfold windowOver
    rw [if_neg (by simp), if_neg (by omega), if_neg (by rw [going]; exact Bool.false_ne_true),
      show ((s.engine l).quiet && WindowOutcome.garbled == .empty) = false from Bool.and_false _]
    exact afterLine_after l _
  · refine ⟨_, exec_windowGarbled live listening started hc, ?_⟩
    rw [endWindow_eq series waits]
    unfold windowOver
    rw [if_neg (by simp), if_neg (by omega), if_pos stopping,
      show ((s.engine l).quiet && WindowOutcome.garbled == .empty) = false from Bool.and_false _]
    exact afterLine_after l _
  · refine ⟨_, exec_windowGarbled live listening started hc, ?_⟩
    rw [endWindow_eq series waits]
    unfold windowOver
    rw [if_neg (by simp), if_pos many,
      show ((s.engine l).quiet && WindowOutcome.garbled == .empty) = false from Bool.and_false _]
    exact afterLine_after l _
  · have entry := fun b => reportStep_entry (l := l) (c := st.call) (a := a) (g := st.allGarbled)
      (o := o) (s := s) (by rw [call]) (by rw [call])
      (fun _ _ => by rw [call]; exact (by decide : (9 : BitVec 6) ≠ verbPing)) b
    refine ⟨_, _, taken_ends live holder series ack step call he ends last waits,
      afterLine_after l _, ?_, ?_, fun b other => ?_⟩
    · subst he
      rw [windowOver_valid]
      rfl
    · refine (entry a).trans ((if_pos rfl).trans ?_)
      cases o <;> rfl
    · exact (entry b).trans (if_neg other)

end Sys2Proof.Windows

/-! The firing of reflexes, the delivery of a valid notice, and the end of a reflex call. -/

namespace Sys2Proof.Firings

open Sys2Proof Sys2Proof.Machine Sys2Proof.Safety Sys2Proof.Laws Sys2Proof.NodeTable
  Sys2Proof.Registers Sys2Proof.RingFaults Sys2Proof.FieldLines Sys2Proof.SlotEnds
  Sys2Proof.Reports Sys2Proof.Steps Sys2Proof.CallEnds Sys2Proof.Windows

/-! ## What a firing reads and changes -/

/-- A state with the reflexes, the queues and the notices of another one. -/
def withFirings (n s : State) : State :=
  { n with reflexes := s.reflexes, queues := s.queues, buffer := s.buffer, lost := s.lost }

/-- A state agrees with another one on what firings read beside what they change. -/
structure FiringReads (n s : State) : Prop where
  device : n.device = s.device
  ms : n.ms = s.ms
  usable : ∀ k, (n.engine k).state.usable = (s.engine k).state.usable

/-- An update that is one of reflexes, queues and notices. -/
def FiringUpdate (f : State → State) : Prop :=
  ∀ n s, FiringReads n s → f (withFirings n s) = withFirings n (f s)

theorem firingReads_refl (s : State) : FiringReads s s := ⟨rfl, rfl, fun _ => rfl⟩

theorem FiringUpdate.frame {f : State → State} (h : FiringUpdate f) (s : State) :
    f s = withFirings s (f s) := h s s (firingReads_refl s)

theorem FiringReads.after {f : State → State} (h : FiringUpdate f) {n s : State}
    (r : FiringReads n s) : FiringReads n (f s) := by
  rw [h.frame s]
  exact ⟨r.device, r.ms, r.usable⟩

theorem FiringUpdate.comp {f g : State → State} (hg : FiringUpdate g) (hf : FiringUpdate f) :
    FiringUpdate fun s => g (f s) := fun n s r =>
  (congrArg g (hf n s r)).trans (hg n _ (r.after hf))

theorem firingUpdate_id : FiringUpdate fun s => s := fun _ _ _ => rfl

theorem firingUpdate_foldl {α : Type} {f : State → α → State}
    (h : ∀ x, FiringUpdate fun s => f s x) (xs : List α) :
    FiringUpdate fun s => xs.foldl f s := by
  induction xs with
  | nil => exact firingUpdate_id
  | cons x xs ih => exact ih.comp (h x)

theorem firingUpdate_setReflex (k : ReflexId) (e : ReflexEntry) :
    FiringUpdate fun s => s.setReflex k e := fun _ _ _ => rfl

theorem firingUpdate_enqueue (l : Line) (c : QueuedCall) :
    FiringUpdate fun s => s.setQueue l (s.queue l ++ [c]) := fun _ _ _ => rfl

theorem firingUpdate_createNotice (k : Option Line) (b : NoticeBody) :
    FiringUpdate (createNotice k b) := by
  intro n s r
  unfold createNotice withFirings
  by_cases room : s.buffer.length < 16
  · simp only [room, if_true, r.ms]
  · simp only [room, if_false]

theorem firingUpdate_ite {c : State → Prop} [∀ s, Decidable (c s)] {f g : State → State}
    (same : ∀ n s, FiringReads n s → (c (withFirings n s) ↔ c s)) (hf : FiringUpdate f)
    (hg : FiringUpdate g) : FiringUpdate fun s => if c s then f s else g s := by
  intro n s r
  by_cases h : c s
  · simp only [h, (same n s r).2 h, if_true]
    exact hf n s r
  · simp only [h, mt (same n s r).1 h, if_false]
    exact hg n s r

theorem firingUpdate_placeFiring (k : ReflexId) (e : ReflexEntry) :
    FiringUpdate (placeFiring k e) := by
  refine firingUpdate_ite (c := fun s => (!(s.engine e.actionLine).state.usable) = true)
    (fun n s r => ?_) (firingUpdate_createNotice _ _)
    (firingUpdate_ite (c := fun s => 4 ≤ (s.queue e.actionLine).length) (fun n s r => Iff.rfl)
      (firingUpdate_createNotice _ _) ?_)
  · exact Bool.eq_iff_iff.1 (congrArg Bool.not (r.usable e.actionLine))
  · by_cases report : e.report = true
    · simp only [report, if_true]
      exact (firingUpdate_createNotice (some e.actionLine) (.reflexFired k e.fireCount)).comp
        (firingUpdate_enqueue e.actionLine e.queuedCall)
    · simp only [report]
      exact firingUpdate_enqueue e.actionLine e.queuedCall

theorem firingUpdate_matchReflex (l : Line) (n : NodeNotice) (k : ReflexId) :
    FiringUpdate fun s => matchReflex l n s k := by
  intro m s r
  have entry : (withFirings m s).reflex k = s.reflex k := rfl
  have ms : (withFirings m s).ms = s.ms := r.ms
  unfold matchReflex
  dsimp only
  rw [entry, ms]
  split
  · exact ((firingUpdate_placeFiring k _).comp (firingUpdate_setReflex k _)) m s r
  · rfl

theorem firingUpdate_matchReflexes (l : Line) (n : NodeNotice) :
    FiringUpdate (matchReflexes l n) :=
  firingUpdate_ite (c := fun s => s.device = .running)
    (fun m s r => by rw [show (withFirings m s).device = s.device from r.device])
    (firingUpdate_foldl (firingUpdate_matchReflex l n) allReflexes) firingUpdate_id

/-! ## Notices are appended -/

/-- The buffer has grown at its end. -/
def Appends (s t : State) : Prop := ∃ more, t.buffer = s.buffer ++ more

theorem appends_refl (s : State) : Appends s s := ⟨[], (List.append_nil _).symm⟩

theorem Appends.trans {s m t : State} (h : Appends s m) (k : Appends m t) : Appends s t := by
  obtain ⟨more, hm⟩ := h
  obtain ⟨rest, ht⟩ := k
  exact ⟨more ++ rest, by rw [ht, hm, List.append_assoc]⟩

theorem appends_createNotice (k : Option Line) (b : NoticeBody) (s : State) :
    Appends s (createNotice k b s) := by
  unfold createNotice
  split
  · exact ⟨_, rfl⟩
  · exact appends_refl s

theorem appends_matchReflex (l : Line) (n : NodeNotice) (s : State) (k : ReflexId) :
    Appends s (matchReflex l n s k) := by
  have placed : ∀ e m, Appends m (placeFiring k e m) := by
    intro e m
    unfold placeFiring
    dsimp only
    split
    · exact appends_createNotice _ _ m
    · split
      · exact appends_createNotice _ _ m
      · split
        · exact appends_createNotice _ _ (m.setQueue e.actionLine _)
        · exact appends_refl m
  unfold matchReflex
  dsimp only
  split
  · exact placed _ (s.setReflex k _)
  · exact appends_refl s

theorem appends_matchReflexes (l : Line) (n : NodeNotice) (s : State) :
    Appends s (matchReflexes l n s) := by
  have all : ∀ (ks : List ReflexId) m, Appends m (ks.foldl (matchReflex l n) m) := by
    intro ks
    induction ks with
    | nil => exact appends_refl
    | cons k ks ih => exact fun m => (appends_matchReflex l n m k).trans (ih _)
  unfold matchReflexes
  split
  · exact all _ s
  · exact appends_refl s

/-! ## A notice that is heard -/

theorem heard_lastSeq (t : Word) (e : NodeEntry) : (e.heard t).lastSeq = e.lastSeq := by
  unfold NodeEntry.heard
  split <;> rfl

/-- A repeat is heard, and not delivered (R147). -/
theorem hearNotice_repeat {l : Line} {n : NodeNotice} {s : State}
    (same : (s.entry l n.source).lastSeq = some n.seq) :
    hearNotice l n s = hear l n.source s := by
  unfold hearNotice noticeVerdict
  dsimp only
  rw [hear_entry, heard_lastSeq, if_pos same]

/-- A notice that is kept as its source's last one. -/
def kept (l : Line) (n : NodeNotice) (s : State) : State :=
  (hear l n.source s).setEntry l n.source
    { (s.entry l n.source).heard s.ms with lastSeq := some n.seq }

theorem hearNotice_fresh {l : Line} {n : NodeNotice} {s : State}
    (fresh : (s.entry l n.source).lastSeq ≠ some n.seq) : hearNotice l n s =
      matchReflexes l n (createNotice (some l) (.nodeNotice n) (kept l n s)) := by
  unfold hearNotice noticeVerdict
  dsimp only
  rw [hear_entry, heard_lastSeq, if_neg fresh]
  rfl

theorem kept_frame (l : Line) (n : NodeNotice) (s : State) :
    kept l n s = withTables s (kept l n s) := by
  unfold kept
  rw [(tableUpdate_hear l n.source).frame s]
  rfl

theorem kept_entry (l : Line) (n : NodeNotice) (s : State) (b : Addr) :
    (kept l n s).entry l b = if b = n.source then
      { (s.entry l n.source).heard s.ms with lastSeq := some n.seq } else s.entry l b := by
  unfold kept
  by_cases same : b = n.source
  · subst same
    rw [entry_setEntry_self, if_pos rfl]
  · rw [entry_setEntry_ne _ _ _ same, hear_entry_ne l s same, if_neg same]

/-- The notices of a hearing do not depend on the entries' other fields. -/
theorem hear_notices (l : Line) (a : Addr) (s : State) :
    (hear l a s).buffer = (if (s.entry l a).state = .silent then
      createNotice (some l) (.nodeBack a (s.entry l a).identity) s else s).buffer ∧
    (hear l a s).lost = (if (s.entry l a).state = .silent then
      createNotice (some l) (.nodeBack a (s.entry l a).identity) s else s).lost := by
  rw [hear_eq]
  split
  · unfold createNotice
    simp only [setEntry_buffer]
    split <;> exact ⟨rfl, rfl⟩
  · exact ⟨rfl, rfl⟩

/-- What the delivery of a notice leaves unchanged. -/
theorem hearNotice_rest (l : Line) (n : NodeNotice) (s : State) :
    { hearNotice l n s with
      nodes := s.nodes, reflexes := s.reflexes, queues := s.queues, buffer := s.buffer,
      lost := s.lost } = s := by
  by_cases same : (s.entry l n.source).lastSeq = some n.seq
  · rw [hearNotice_repeat same, (tableUpdate_hear l n.source).frame s]
    rfl
  · rw [hearNotice_fresh same, (firingUpdate_matchReflexes l n).frame,
      (firingUpdate_createNotice (some l) (.nodeNotice n)).frame, kept_frame]
    rfl

/-- Both a fresh notice and a repeat stand as the last one from their source (R147). -/
theorem hearNotice_entry (l : Line) (n : NodeNotice) (s : State) (b : Addr) :
    (hearNotice l n s).entry l b = if b = n.source then
      { (s.entry l n.source).heard s.ms with lastSeq := some n.seq } else s.entry l b := by
  by_cases same : (s.entry l n.source).lastSeq = some n.seq
  · rw [hearNotice_repeat same]
    by_cases source : b = n.source
    · subst source
      rw [hear_entry, if_pos rfl, ← same, ← heard_lastSeq s.ms]
    · rw [hear_entry_ne l s source, if_neg source]
  · rw [hearNotice_fresh same, (firingUpdate_matchReflexes l n).frame,
      (firingUpdate_createNotice (some l) (.nodeNotice n)).frame]
    exact kept_entry l n s b

/-! ## The end of the window -/

/-- The engine at the end of a window with a valid notice: TAKEN follows under the same grant. -/
def takingEngine (n : NodeNotice) (e : LineEngine) : LineEngine :=
  { e with
    state := .idle, frameStarted := false, quiet := false, next := .gap
    series := e.series.map fun sr => { sr with last := some .valid, ack := some (n.source, n.seq) }
    step := some { call := takenCall n.source n.seq, retryLimit := e.config.retryLimit, tries := 0,
                   allGarbled := true } }

/-- The line when the window has ended. -/
def windowClosed (l : Line) (s : State) : State :=
  s.setEngine l { s.engine l with state := .idle, frameStarted := false, quiet := false }

theorem hearNotice_engine (l : Line) (n : NodeNotice) (s : State) (k : Line) :
    (hearNotice l n s).engine k = s.engine k := by
  have rest := (congrArg State.lines (hearNotice_rest l n s) :)
  unfold State.engine
  rw [show (hearNotice l n s).lines = s.lines from rest]

/-- TAKEN follows after the gap, the line not having been high for one. -/
theorem takingFollows {l : Line} {n : NodeNotice} {s : State}
    (noisy : (s.engine l).quiet = false) :
    beginStep l (takenCall n.source n.seq) (s.engine l).config.retryLimit
      (s.setEngine l { s.engine l with
        series := (s.engine l).series.map fun sr =>
          { sr with last := some .valid, ack := some (n.source, n.seq) } }) =
      s.setEngine l { s.engine l with
        series := (s.engine l).series.map fun sr =>
          { sr with last := some .valid, ack := some (n.source, n.seq) }
        next := .gap
        step := some { call := takenCall n.source n.seq
                       retryLimit := (s.engine l).config.retryLimit
                       tries := 0, allGarbled := true } } := by
  unfold beginStep
  rw [setEngine_setEngine, engine_setEngine_self,
    afterGap_waits (by rw [engine_setEngine_self]; exact noisy), setEngine_setEngine,
    engine_setEngine_self]

theorem endWindowValid_eq {l : Line} {n : NodeNotice} {s : State} (cut : noCut s l = true) :
    endWindowValid l n s =
      (hearNotice l n (windowClosed l s)).setEngine l (takingEngine n (s.engine l)) := by
  have admin : (hearNotice l n (windowClosed l s)).admin = s.admin :=
    (congrArg State.admin (hearNotice_rest l n (windowClosed l s)) :)
  have goes : (hearNotice l n (windowClosed l s)).cutting l = false := by
    rw [cutting_iff]
    unfold noCut at cut ⊢
    rw [admin, cut]
    rfl
  have engine : (hearNotice l n (windowClosed l s)).engine l =
      { s.engine l with state := .idle, frameStarted := false, quiet := false } := by
    rw [hearNotice_engine]
    exact engine_setEngine_self s l _
  unfold endWindowValid
  dsimp only
  rw [← windowClosed, goes, if_neg Bool.false_ne_true, takingFollows (by rw [engine]), engine]
  rfl

theorem exec_noticeFrameEnd {l : Line} {n : NodeNotice} {s : State} {frame : List Byte}
    (live : s.device ≠ .halted) (listening : (s.engine l).state = .listening)
    (started : (s.engine l).frameStarted = true) (cut : noCut s l = true)
    (valid : judgeNotice frame = some n) :
    exec (.noticeFrameEnd l frame) s = .next (afterBoth
      ((hearNotice l n (windowClosed l s)).setEngine l (takingEngine n (s.engine l)))) := by
  show Host.Outcome.next (noticeEnds l frame s) = _
  unfold noticeEnds
  dsimp only
  rw [if_pos ⟨live_of_ne live, listening, started⟩, valid]
  dsimp only
  rw [endWindowValid_eq cut]

/-- A state that differs in the table, the reflexes, the queues, the notices and the engines is made
by work alone, but for the reflexes. -/
theorem worked_delivered {s t : State} (h : { t with
    lines := s.lines, nodes := s.nodes, reflexes := s.reflexes, queues := s.queues,
    buffer := s.buffer, lost := s.lost } = s) :
    Worked { s with reflexes := t.reflexes } t := by
  have form : t = { s with
      lines := t.lines, nodes := t.nodes, reflexes := t.reflexes, queues := t.queues,
      buffer := t.buffer, lost := t.lost } := by
    rw [← h]
  rw [form]
  exact { worked_refl s with reflexes := rfl }

/-- Settles O44. -/
theorem validNoticeIsDeliveredAndTaken : Obligations.ValidNoticeIsDeliveredAndTaken := by
  intro l s frame sr n live listening started series cut valid
  have rest := hearNotice_rest l n (windowClosed l s)
  have tabled : ∀ b, (windowClosed l s).entry l b = s.entry l b := fun _ => rfl
  refine ⟨_, _, exec_noticeFrameEnd live listening started cut valid, afterBoth_after _,
    worked_delivered ?_, ?_, ?_, ?_, ?_, fun same => ?_, fun fresh awake room => ?_⟩
  · exact (congrArg (fun m : State => { m with lines := s.lines }) rest :)
  · rw [engine_setEngine_self]
    unfold takingEngine
    rw [series]
    rfl
  · intro i
    have slots := (congrArg State.slots rest :)
    exact congrArg (fun v : Vector (Option Slot) 24 => v[i]) slots
  · exact fun b other => (hearNotice_entry l n _ b).trans (if_neg other)
  · exact (hearNotice_entry l n _ n.source).trans (if_pos rfl)
  · have heard := hearNotice_repeat (s := windowClosed l s) same
    have frame := (tableUpdate_hear l n.source).frame (windowClosed l s)
    have notices := (hear_notices l n.source (windowClosed l s)).1
    rw [heard]
    refine ⟨(congrArg State.reflexes frame :), (congrArg State.queues frame :), fun awake => ?_⟩
    rw [if_neg (show ((windowClosed l s).entry l n.source).state ≠ .silent from awake)] at notices
    exact notices
  · have notices := hear_notices l n.source (windowClosed l s)
    rw [if_neg (show ((windowClosed l s).entry l n.source).state ≠ .silent from awake)] at notices
    have buffer : (kept l n (windowClosed l s)).buffer = s.buffer := notices.1
    have lost : (kept l n (windowClosed l s)).lost = s.lost := notices.2
    have ms : (kept l n (windowClosed l s)).ms = s.ms :=
      (congrArg State.ms (kept_frame l n (windowClosed l s)) :)
    obtain ⟨more, grown⟩ := appends_matchReflexes l n
      (createNotice (some l) (.nodeNotice n) (kept l n (windowClosed l s)))
    rw [createNotice_buffer (by rw [buffer]; exact room), buffer, lost, ms, List.append_assoc] at grown
    rw [hearNotice_fresh (s := windowClosed l s) fresh]
    exact ⟨more, grown⟩

/-! ## The firing of an entry -/

theorem unusable_iff (l : Line) (s : State) :
    (s.engine l).state ∈ [LineState.off, .restoring, .down] ↔
      (!(s.engine l).state.usable) = true := by
  cases (s.engine l).state <;> simp [LineState.usable]

theorem head_iff {α : Type} (xs : List α) (b : α) :
    xs.head? = some b ↔ ∃ c rest, xs = c :: rest ∧ b = c := by
  cases xs with
  | nil => simp
  | cons x xs => simp

theorem matchesNotice_iff {l : Line} {n : NodeNotice} {e : ReflexEntry} :
    e.matchesNotice l n = true ↔ e.armed = true ∧ e.matchLine = l ∧
      (e.matchSource = none ∨ e.matchSource = some n.source) ∧ e.matchKind = n.kind ∧
      (e.matchArg = none ∨ ∃ b rest, n.arg = b :: rest ∧ e.matchArg = some b) := by
  unfold ReflexEntry.matchesNotice
  cases e.matchSource <;> cases e.matchArg <;>
    simp only [Bool.and_eq_true, beq_iff_eq, head_iff, Option.some.injEq, reduceCtorEq,
      false_or, true_or, true_and, and_true, and_assoc]

theorem fired_eq (now : Word) (e : ReflexEntry) : e.fired now = { e with
    fireCount := min 65535 (e.fireCount + 1)
    quietUntil := if e.holdoff = 0 then none else some (now + BitVec.ofNat 32 e.holdoff) } := by
  unfold ReflexEntry.fired
  by_cases none : e.holdoff = 0
  · rw [none]
    rfl
  · rw [if_neg none, if_pos (Nat.pos_of_ne_zero none)]

/-- Where the firing of an entry is placed (R162, R163). -/
theorem placeFiring_eq (k : ReflexId) (e : ReflexEntry) (s : State) : placeFiring k e s =
    if (s.engine e.actionLine).state ∈ [LineState.off, .restoring, .down] then
      createNotice (some e.actionLine) (.reflexDropped k .lineUnavailable) s
    else if 4 ≤ (s.queue e.actionLine).length then
      createNotice (some e.actionLine) (.reflexDropped k .queueFull) s
    else if e.report = true then
      createNotice (some e.actionLine) (.reflexFired k e.fireCount)
        (s.setQueue e.actionLine (s.queue e.actionLine ++ [e.queuedCall]))
    else s.setQueue e.actionLine (s.queue e.actionLine ++ [e.queuedCall]) := by
  simp only [unusable_iff]
  rfl

/-- An entry that matches and is not quiet fires (R160, R161). -/
theorem matchReflex_fires {l : Line} {n : NodeNotice} {s : State} {k : ReflexId}
    (fits : (s.reflex k).matchesNotice l n = true) (calm : (s.reflex k).quietUntil = none) :
    matchReflex l n s k = placeFiring k ((s.reflex k).fired s.ms)
      (s.setReflex k ((s.reflex k).fired s.ms)) := by
  unfold matchReflex
  dsimp only
  rw [if_pos ⟨fits, by rw [calm]; rfl⟩]

/-- The delivery of a fresh notice, by what it finds of the reflexes, the queues and the notices. -/
theorem delivered_on {l : Line} {n : NodeNotice} {s s' : State}
    (listening : (s.engine l).state = .listening)
    (hs' : s' = createNotice (some l) (.nodeNotice n) (if (s.entry l n.source).state = .silent then
      createNotice (some l) (.nodeBack n.source (s.entry l n.source).identity) s else s)) :
    matchReflexes l n (createNotice (some l) (.nodeNotice n) (kept l n (windowClosed l s))) =
      withFirings (createNotice (some l) (.nodeNotice n) (kept l n (windowClosed l s)))
        (matchReflexes l n s') := by
  have frame := kept_frame l n (windowClosed l s)
  have notices := hear_notices l n.source (windowClosed l s)
  generalize hq : (if (s.entry l n.source).state = .silent then
      createNotice (some l) (.nodeBack n.source (s.entry l n.source).identity) s else s) = q at hs'
  have rest : { q with buffer := s.buffer, lost := s.lost } = s := by
    rw [← hq]
    split
    · exact createNotice_rest _ _ s
    · rfl
  have back : ∀ b, (createNotice (some l) b (windowClosed l s)).buffer =
      (createNotice (some l) b s).buffer ∧
      (createNotice (some l) b (windowClosed l s)).lost = (createNotice (some l) b s).lost := by
    intro b
    unfold createNotice windowClosed
    by_cases room : s.buffer.length < 16 <;> simp [room]
  have same : (kept l n (windowClosed l s)).buffer = q.buffer ∧
      (kept l n (windowClosed l s)).lost = q.lost := by
    rw [← hq]
    refine ⟨notices.1.trans ?_, notices.2.trans ?_⟩
    · rw [show ((windowClosed l s).entry l n.source) = s.entry l n.source from rfl]
      split
      · exact (back _).1
      · rfl
    · rw [show ((windowClosed l s).entry l n.source) = s.entry l n.source from rfl]
      split
      · exact (back _).2
      · rfl
  have usable : ∀ k, ((kept l n (windowClosed l s)).engine k).state.usable =
      (q.engine k).state.usable := by
    intro k
    have lines : (kept l n (windowClosed l s)).engine k = (windowClosed l s).engine k := by
      rw [frame]
      rfl
    have before : q.engine k = s.engine k := by
      rw [← rest]
      rfl
    rw [lines, before]
    by_cases h : k = l
    · subst h
      unfold windowClosed
      rw [engine_setEngine_self, listening]
      rfl
    · unfold windowClosed
      rw [engine_setEngine_other _ _ h]
  have reads : FiringReads (kept l n (windowClosed l s)) q :=
    ⟨(congrArg State.device frame :).trans (congrArg State.device rest :).symm,
      (congrArg State.ms frame :).trans (congrArg State.ms rest :).symm, usable⟩
  have start : kept l n (windowClosed l s) = withFirings (kept l n (windowClosed l s)) q := by
    have reflexes : (kept l n (windowClosed l s)).reflexes = q.reflexes :=
      (congrArg State.reflexes frame :).trans (congrArg State.reflexes rest :).symm
    have queues : (kept l n (windowClosed l s)).queues = q.queues :=
      (congrArg State.queues frame :).trans (congrArg State.queues rest :).symm
    unfold withFirings
    rw [← same.1, ← same.2, ← reflexes, ← queues]
  generalize kept l n (windowClosed l s) = p at reads start
  have update := (firingUpdate_matchReflexes l n).comp
    (firingUpdate_createNotice (some l) (.nodeNotice n))
  rw [hs']
  calc matchReflexes l n (createNotice (some l) (.nodeNotice n) p)
      = matchReflexes l n (createNotice (some l) (.nodeNotice n) (withFirings p q)) := by
        rw [← start]
    _ = withFirings p (matchReflexes l n (createNotice (some l) (.nodeNotice n) q)) :=
        update p q reads
    _ = _ := by
        rw [(firingUpdate_createNotice (some l) (.nodeNotice n)).frame p]
        rfl

/-! ## The end of a reflex call -/

theorem setQueue_self (s : State) (l : Line) : s.setQueue l (s.queue l) = s := by
  cases l <;> rfl

/-- What the end of the head's grant leaves of the queue (R165, R168). -/
def queueLeft (h : HeadEnd) (q : List QueuedCall) : List QueuedCall :=
  match h with
  | .normal => q.tail
  | .emptyQueue => []
  | .leaveQueue => q

theorem queueAfterGrant_eq (l : Line) (s : State) : queueAfterGrant l s =
    s.setQueue l (queueLeft (s.engine l).headEnd (s.queue l)) := by
  unfold queueAfterGrant queueLeft
  cases (s.engine l).headEnd with
  | leaveQueue => exact (setQueue_self s l).symm
  | _ => rfl

/-- The tries of a reflex call are over. -/
theorem reflexEnds {l : Line} {s : State} {st : Step} {c : Instr} {o : TryOutcome}
    (live : s.device ≠ .halted) (holder : (s.engine l).holder = .reflex)
    (step : (s.engine l).step = some st) (waits : noWaiting s l = true)
    (ends : TryEnds l s st c o) (over_ : stepOver (s.engine l) (st.afterTry o) o = true) :
    exec c s = .next (afterLine l ((s.setEngine l
      (grantOver ((s.engine l).afterTry (st.afterTry o) o))).setQueue l
        (queueLeft (s.engine l).headEnd (s.queue l)))) := by
  have noSlot : ∀ i, (s.engine l).holder ≠ .slot i := fun i => by
    rw [holder]
    exact fun h => by cases h
  rw [tryEnds_exec live step ends (fun _ _ => by rw [holder]; exact fun h => by cases h),
    endTry_over step (noCut_of_noWaiting waits) over_, tried_other noSlot]
  congr 2
  generalize he : (s.engine l).afterTry (st.afterTry o) o = e
  have reflex : e.holder = .reflex := he ▸ holder
  have headEnd : e.headEnd = (s.engine l).headEnd := he ▸ rfl
  unfold endStep
  rw [engine_setEngine_self, reflex]
  dsimp only
  rw [queueAfterGrant_eq, grantEnded_noWaiting (s := (s.setEngine l e).setQueue l _) waits,
    engine_setEngine_self, headEnd]
  have engine : ((s.setEngine l e).setQueue l
      (queueLeft (s.engine l).headEnd ((s.setEngine l e).queue l))).engine l = e :=
    engine_setEngine_self s l e
  rw [engine]
  exact congrArg (fun m : State => m.setQueue l (queueLeft (s.engine l).headEnd (s.queue l)))
    (setEngine_setEngine s l e (grantOver e))

/-- Settles O23. -/
theorem reflexesFireInOrder : Obligations.ReflexesFireInOrder := by
  refine ⟨?_, fun l n s => rfl, ?_, ?_⟩
  · rintro l n s k e f al quiet rfl rfl rfl rfl
    refine ⟨fun apart => ?_, fun muted => ?_, fun armed line source kind arg calm => ?_⟩
    · unfold matchReflex
      exact if_neg fun h => apart (matchesNotice_iff.1 h.1)
    · unfold matchReflex
      exact if_neg fun h => muted (Option.isNone_iff_eq_none.1 h.2)
    · rw [matchReflex_fires (matchesNotice_iff.2 ⟨armed, line, source, kind, arg⟩) calm,
        placeFiring_eq, fired_eq]
      rfl
  · intro l s s' frame n live listening started cut valid fresh hs'
    have run := exec_noticeFrameEnd live listening started cut valid
    rw [hearNotice_fresh (s := windowClosed l s) fresh] at run
    have delivered := delivered_on listening hs'
    generalize hp : createNotice (some l) (.nodeNotice n) (kept l n (windowClosed l s)) = p
      at run delivered
    have after := afterBoth_after ((matchReflexes l n p).setEngine l (takingEngine n (s.engine l)))
    rw [delivered] at run after
    obtain ⟨a, b, first, second, served⟩ := after
    refine ⟨_, _, run, ⟨a, b, first, second, served⟩, rfl, rfl, rfl, rfl, ?_, ?_, ?_⟩
    · rw [served.reflexes, second.kept.reflexes, first.kept.reflexes]
    · rw [served.queues, second.kept.queues, first.kept.queues]
    · rw [served.buffer, second.kept.buffer, first.kept.buffer]
  · intro l s st c live calling holder step waits hc
    have ends : ∃ o, TryEnds l s st c o ∧ stepOver (s.engine l) (st.afterTry o) o = true ∧
        (s.engine l).afterTry (st.afterTry o) o = { s.engine l with
          state := .idle, frame := [], frameStarted := false, step := some (st.afterTry o),
          quiet := false } := by
      rcases hc with ⟨rfl, reply⟩ | ⟨rfl, last⟩
      · exact ⟨.sent, .inl ⟨rfl, calling, reply, rfl⟩, rfl,
          by unfold LineEngine.afterTry; rw [Bool.and_false]⟩
      · refine ⟨.collided, .inr (.inl ⟨rfl, calling, rfl⟩), ?_,
          by unfold LineEngine.afterTry; rw [Bool.and_false]⟩
        unfold stepOver
        rcases last with spent | stopped
        · exact Bool.or_eq_true_iff.2 (.inl (decide_eq_true spent))
        · exact Bool.or_eq_true_iff.2 (.inr (by simpa using stopped))
    obtain ⟨o, ends, over_, engine⟩ := ends
    refine ⟨_, reflexEnds live holder step waits ends over_, ?_⟩
    rw [engine]
    exact afterLine_after l _

end Sys2Proof.Firings

/-! The ends of a commit's steps. -/

namespace Sys2Proof.CommitSteps

open Sys2Proof Sys2Proof.Machine Sys2Proof.Safety Sys2Proof.Laws Sys2Proof.NodeTable
  Sys2Proof.FieldLines Sys2Proof.SlotEnds Sys2Proof.Reports Sys2Proof.Steps Sys2Proof.CallEnds

/-! ## Outcomes -/

/-- The outcome of a commit that ends without a verdict of its last step. -/
theorem commitOutcome_kept {st : Status} (fails : st ≠ .verifyFail) (narrow : Bool)
    (w : ParamWork) :
    commitOutcome st narrow w = outcomeOf (!(narrow || narrowStatus st)) w := by
  unfold commitOutcome outcomeOf
  simp only [fails, or_false, and_comm]

theorem commitOutcome_narrow {st : Status} (narrow : narrowStatus st = true) (b : Bool)
    (w : ParamWork) : commitOutcome st b w = outcomeOf false w := by
  rw [commitOutcome_kept (fun h => by rw [h] at narrow; cases narrow), narrow, Bool.or_true]
  rfl

theorem outcomeOf_final {w : ParamWork} {kept : Bool} (verified : w.verified = false)
    (final : w.finalFlag = true) (noMismatch : kept = false) : outcomeOf kept w = .unknown := by
  unfold outcomeOf
  simp [verified, final, noMismatch]

/-- The outcome of a commit whose attempts have failed (R114, R120). -/
theorem commitOutcome_verifyFail {w : ParamWork} (verified : w.verified = false) :
    commitOutcome .verifyFail false w = if w.mismatch = true then .mismatch else .unknown := by
  unfold commitOutcome
  simp [verified, narrowStatus]

theorem commitOutcome_verified {w : ParamWork} (verified : w.verified = true) (st : Status)
    (b : Bool) : commitOutcome st b w = .verified := by
  unfold commitOutcome
  rw [if_pos verified]

/-! ## The detail -/

theorem paramDetail_bytes (now elapsed : Word) (digest : Half) (w : ParamWork)
    (hElapsed : elapsed.toNat = (match w.firstGrant with
      | none => 0
      | some t => min 65535 (now - t).toNat))
    (hDigest : digest = (match w.readback with | some d => d | none => 0)) :
    paramDetail now w =
      [if w.firstGrant = none then 0 else byteOf w.attempt,
        (match w.outcome with | .none => 0 | .verified => 1 | .mismatch => 2 | .unknown => 3),
        (match w.lastReply with | none => 0xFF | some st => replyStatusCode st),
        (if w.preludeUsed = true then 1 else 0) + (if w.readback = none then 0 else 2),
        digest.extractLsb' 0 8, digest.extractLsb' 8 8, byteOf w.polls, 0,
        elapsed.extractLsb' 0 8, elapsed.extractLsb' 8 8, byteOf w.replyData.length] ++
      w.replyData ++ List.replicate (8 - w.replyData.length) 0 := by
  have attempts : byteOf (if w.firstGrant.isSome then w.attempt else 0) =
      if w.firstGrant = none then 0 else byteOf w.attempt := by
    cases w.firstGrant <;> rfl
  have outcome : commitOutcomeByte w.outcome = (match w.outcome with
      | .none => 0 | .verified => 1 | .mismatch => 2 | .unknown => 3) := by
    cases w.outcome <;> rfl
  have reply : lastReplyByte w.lastReply =
      (match w.lastReply with | none => 0xFF | some st => replyStatusCode st) := by
    cases w.lastReply <;> rfl
  have flags : flagBit w.preludeUsed 0 ||| flagBit w.readback.isSome 1 =
      (if w.preludeUsed = true then 1 else 0) + (if w.readback = none then 0 else 2) := by
    cases w.preludeUsed <;> cases w.readback <;> simp [flagBit, byteOf]
  have read : w.readback.getD 0 = digest := by
    rw [hDigest]
    cases w.readback <;> rfl
  have bytes : ∀ k : Nat, elapsed.toNat = k →
      le16 (BitVec.ofNat 16 k) = [elapsed.extractLsb' 0 8, elapsed.extractLsb' 8 8] := by
    rintro k rfl
    rw [BitVec.ofNat_toNat]
    unfold le16
    congr 1
    · ext k hk
      simp
      omega
    · congr 1
      ext k hk
      simp
      omega
  unfold paramDetail
  dsimp only
  rw [attempts, outcome, reply, flags, read]
  unfold padTo
  cases grant : w.firstGrant <;> rw [grant] at hElapsed
  all_goals
    rw [bytes _ hElapsed]
    unfold le16
    simp only [List.cons_append, List.nil_append]

/-! ## The end of a commit's result -/

theorem decideSlot_commit {i : SlotId} {y : Slot} {w v : ParamWork} {st : Status} {narrow : Bool}
    {l : Line} (line : y.line = l) (started : y.started = true)
    (outcome : v = { w with outcome := commitOutcome st narrow w }) (n : State) :
    decideSlot i y (.param w) st narrow n = ended i { y with work := .param v } st
      (slotDetail n st { y with work := .param v })
      (n.setEntry l v.addr (committed i v (n.entry l v.addr))) := by
  subst line
  unfold decideSlot
  rw [endSlot_commit (x := { y with work := .param w }) (slot_setSlot_self n i _) rfl started
    outcome, slotDetail_setSlot]
  exact ended_setSlot i _ st _ (n.setEntry y.line v.addr (committed i v (n.entry y.line v.addr))) _

theorem slotDetail_started {n s : State} {z : Slot} {v : ParamWork} {st : Status}
    (ms : n.ms = s.ms) (work : z.work = .param v) (started : z.started = true)
    (counted : st ≠ .expired ∧ st ≠ .nodeClash ∧ st ≠ .badRecord) :
    slotDetail n st z = paramDetail s.ms v := by
  have whole : zeroDetail st z = false := by
    obtain ⟨expired, clash, bad⟩ := counted
    unfold zeroDetail
    rw [work, started]
    cases st with
    | expired => exact absurd rfl expired
    | nodeClash => exact absurd rfl clash
    | badRecord => exact absurd rfl bad
    | _ => rfl
  unfold slotDetail
  rw [whole, work, ← ms]
  rfl

/-- A commit has ended over the entry that its step left. -/
theorem commitEnds_decided {l : Line} {s n m : State} {st : Step} {i : SlotId} {x y : Slot}
    {o : TryOutcome} {w v : ParamWork} {status : Status} {narrow : Bool} {e : LineEngine}
    (heard : StepHeard l s st i x o n) (line : y.line = l) (started : y.started = true)
    (outcome : v = { w with outcome := commitOutcome status narrow w })
    (counted : status ≠ .expired ∧ status ≠ .nodeClash ∧ status ≠ .badRecord)
    (hm : m = (decideSlot i y (.param w) status narrow n).setEngine l e) :
    CommitEnds l i y v status (n.entry l w.addr) s m := by
  have addr : v.addr = w.addr := by rw [outcome]
  rw [decideSlot_commit line started outcome] at hm
  generalize put : ({ y with work := .param v } : Slot) = z at hm
  rw [slotDetail_started heard.ms (z := z) (by rw [← put]) (by rw [← put]; exact started) counted]
    at hm
  refine ⟨?_, ?_⟩
  · rw [put, hm]
    exact ended_decided_on (n := n.setEntry l v.addr (committed i v (n.entry l v.addr)))
      heard.results heard.work
  · rw [hm, setEngine_entry, ended_entry, entry_setEntry_self, addr]

/-! ## What the judgement of a step leaves -/

/-- Of the table, no entry but the commit's changes, and no notice is created. -/
structure CommitLeaves (l : Line) (a : Addr) (n m : State) : Prop where
  entry : ∀ b, b ≠ a → m.entry l b = n.entry l b
  buffer : m.buffer = n.buffer

theorem commitLeaves_decided {l : Line} {i : SlotId} {y : Slot} {w : ParamWork} {st : Status}
    {narrow : Bool} (line : y.line = l) (started : y.started = true) (n : State) :
    CommitLeaves l w.addr n (decideSlot i y (.param w) st narrow n) := by
  rw [decideSlot_commit line started rfl]
  refine ⟨fun b other => ?_, ?_⟩
  · rw [ended_entry, entry_setEntry_ne _ _ _ other]
  · rw [ended_buffer]
    rfl

theorem commitLeaves_put (l : Line) (a : Addr) (i : SlotId) (y : Option Slot) (n : State) :
    CommitLeaves l a n (n.setSlot i y) := ⟨fun _ _ => rfl, rfl⟩

section

variable {l : Line} {i : SlotId} {y : Slot} (line : y.line = l) (started : y.started = true)

include line started

theorem commitLeaves_continues (w : ParamWork) (polled : Bool) (c : CommitCont) (n : State) :
    CommitLeaves l w.addr n (commitContinues i y w polled c n) := by
  have decided : ∀ v : ParamWork, v.addr = w.addr → ∀ st narrow,
      CommitLeaves l w.addr n (decideSlot i y (.param v) st narrow n) := fun v same st narrow =>
    same ▸ commitLeaves_decided line started n
  have goes : ∀ v : ParamWork, v.addr = w.addr → CommitLeaves l w.addr n
      (if v.budgetPassed then decideSlot i y (.param v) .commitTimeout true n
       else stepFollows i y (.param v) n) := fun v same => by
    split
    · exact decided v same _ _
    · exact commitLeaves_put l _ i _ n
  unfold commitContinues
  cases c with
  | result st data =>
    exact decided { w with replyData := if st = .refused ∨ st = .protected_ then data else [] } rfl _ _
  | pause =>
    dsimp only
    split
    · unfold pausePastBudget
      split
      · exact decided { w with finalFlag := true } rfl _ _
      · exact commitLeaves_put l _ i _ n
    · exact commitLeaves_put l _ i _ n
  | step => exact goes w rfl
  | failed =>
    dsimp only
    unfold ParamWork.nextAttempt
    split
    · next v some =>
      split at some
      · cases some
        exact goes { w with attempt := w.attempt + 1, phase := _ } rfl
      · cases some
    · exact decided w rfl _ _

theorem commitLeaves_aborts (w : ParamWork) (narrow : Bool) (c : CommitCont) (n : State) :
    CommitLeaves l w.addr n (commitAborts i y w narrow c n) := by
  have decided : ∀ v : ParamWork, v.addr = w.addr → ∀ st narrow,
      CommitLeaves l w.addr n (decideSlot i y (.param v) st narrow n) := fun v same st narrow =>
    same ▸ commitLeaves_decided line started n
  unfold commitAborts
  cases c with
  | pause =>
    dsimp only
    split
    · exact decided { w with finalFlag := true } rfl _ _
    · exact commitLeaves_put l _ i _ n
  | _ => exact decided w rfl _ _

end

/-! ## What follows a judged step -/

/-- What a commit does after a step, by what the phase's rule asks for. -/
def Continues (l : Line) (i : SlotId) (y : Slot) (w : ParamWork) (kept polled : Bool)
    (e : NodeEntry) (s m : State) : CommitCont → Prop
  | .step => CommitGoesOn l i y w kept e s m
  | .pause => CommitPauses l i y w polled e s m
  | .failed => AttemptFails l i y w kept e s m
  | .result st data => CommitResult l i y w kept (if st = .refused ∨ st = .protected_ then data else [])
      (commitOutcome st false w) st e s m

/-- A result that a step can decide. -/
def CommitCont.counted : CommitCont → Prop
  | .result st _ => st ≠ .expired ∧ st ≠ .nodeClash ∧ st ≠ .badRecord
  | _ => True

section

variable {l : Line} {s n m : State} {st : Step} {i : SlotId} {x y : Slot} {o : TryOutcome}
  {w : ParamWork} {eng : LineEngine} (heard : StepHeard l s st i x o n) (line : y.line = l)
  (started : y.started = true)

include heard line started

/-- An abort takes the place of what the step has decided (R85, R122). -/
theorem commitAborted_decided {narrow : Bool}
    (hm : m = (decideSlot i y (.param w) .aborted narrow n).setEngine l eng) :
    CommitAborted l i y w (!narrow) (n.entry l w.addr) s m := by
  have outcome : commitOutcome .aborted narrow w = outcomeOf (!narrow) w := by
    rw [commitOutcome_kept (by simp)]
    cases narrow <;> rfl
  exact commitEnds_decided heard line started (by rw [outcome]) (by simp) hm

theorem goesOn_decided (calm : y.abortPending = false) (kept : Bool)
    (hm : m = (if w.budgetPassed then decideSlot i y (.param w) .commitTimeout true n
      else stepFollows i y (.param w) n).setEngine l eng) :
    CommitGoesOn l i y w kept (n.entry l w.addr) s m := by
  unfold CommitGoesOn
  rw [if_neg (by rw [calm]; exact Bool.false_ne_true)]
  split at hm
  · next passed =>
    rw [if_pos passed]
    exact commitEnds_decided heard line started
      (by rw [commitOutcome_narrow rfl]) (by simp) hm
  · next running =>
    rw [if_neg running, hm]
    exact ⟨slot_setSlot_self n i _, rfl⟩

theorem pauses_decided (verified : w.verified = false) (polled : Bool)
    (hm : m = (if y.abortPending then commitAborts i y w false .pause n
      else commitContinues i y w polled .pause n).setEngine l eng) :
    CommitPauses l i y w polled (n.entry l w.addr) s m := by
  have unknown : ∀ st narrow, narrow = true ∨ narrowStatus st = true → st ≠ .verifyFail →
      commitOutcome st narrow { w with finalFlag := true } = .unknown := by
    intro st narrow h fails
    rw [commitOutcome_kept fails]
    refine outcomeOf_final verified rfl ?_
    rcases h with h | h <;> simp [h]
  have paused : m = (pauseSlot i y (.param w) n).setEngine l eng → m.slot i = some { y with
      state := .paused, work := .param w
      pollAt := some (s.ms + BitVec.ofNat 32 (s.engine l).config.pollInterval) } ∧
      m.entry l w.addr = n.entry l w.addr := by
    intro hm
    rw [hm]
    refine ⟨(slot_setSlot_self n i _).trans ?_, rfl⟩
    rw [line, State.after, heard.ms, heard.config]
  unfold CommitPauses
  unfold commitAborts commitContinues pausePastBudget at hm
  dsimp only at hm
  by_cases passed : w.budgetPassed = true
  · rw [if_neg (by rw [passed]; exact Bool.noConfusion)]
    rw [if_pos passed, if_pos passed] at hm
    by_cases pending : y.abortPending = true
    · rw [if_pos pending] at hm ⊢
      exact commitEnds_decided (w := { w with finalFlag := true }) heard line started
        (by rw [unknown _ _ (.inl rfl) (by simp)]) (by simp) hm
    · rw [if_neg pending] at hm ⊢
      cases polled with
      | true =>
        rw [if_pos rfl] at hm ⊢
        exact commitEnds_decided (w := { w with finalFlag := true }) heard line started
          (by rw [unknown _ _ (.inl rfl) (by simp)]) (by simp) hm
      | false =>
        rw [if_neg Bool.false_ne_true] at hm ⊢
        rw [hm]
        exact ⟨slot_setSlot_self n i _, rfl⟩
  · rw [if_pos (Bool.eq_false_iff.2 passed)]
    rw [if_neg passed, if_neg passed, ite_self] at hm
    exact paused hm

/-- What follows the judgement of a commit's step. -/
theorem continues_decided {narrow polled : Bool} {c : CommitCont} (counted : CommitCont.counted c)
    (verified : c = .pause ∨ c = .failed → w.verified = false)
    (hm : m = (if y.abortPending then commitAborts i y w narrow c n
      else commitContinues i y w polled c n).setEngine l eng) :
    Continues l i y w (!narrow) polled (n.entry l w.addr) s m c := by
  by_cases pending : y.abortPending = true
  · have aborted : c ≠ .pause → CommitAborted l i y w (!narrow) (n.entry l w.addr) s m := by
      intro other
      rw [if_pos pending] at hm
      cases c with
      | pause => exact absurd rfl other
      | _ => exact commitAborted_decided heard line started hm
    cases c with
    | step => exact (if_pos pending).mpr (aborted (by simp))
    | pause => exact pauses_decided heard line started (verified (.inl rfl)) polled hm
    | failed => exact (if_pos pending).mpr (aborted (by simp))
    | result st data => exact (if_pos pending).mpr (aborted (by simp))
  · have calm : y.abortPending = false := Bool.eq_false_iff.2 pending
    cases c with
    | step =>
      rw [if_neg pending] at hm
      exact goesOn_decided heard line started calm _ hm
    | pause => exact pauses_decided heard line started (verified (.inl rfl)) polled hm
    | failed =>
      rw [if_neg pending] at hm
      unfold commitContinues ParamWork.nextAttempt at hm
      dsimp only [Continues]
      unfold AttemptFails
      rw [if_neg pending]
      dsimp only at hm
      by_cases left : w.attempt < w.attempts
      · rw [if_pos left] at hm ⊢
        exact goesOn_decided (w := { w with attempt := w.attempt + 1, phase := some .stage1 }) heard
          line started calm _ hm
      · rw [if_neg left] at hm ⊢
        exact commitEnds_decided heard line started
          (by rw [commitOutcome_verifyFail (verified (.inr rfl))]) (by simp) hm
    | result st data =>
      rw [if_neg pending] at hm
      exact (if_neg pending).mpr (commitEnds_decided (narrow := false) (w := { w with
        replyData := if st = .refused ∨ st = .protected_ then data else [] }) heard line started rfl
        counted hm)

end

/-! ## The judged step -/

/-- A commit whose COMMIT try may have been taken without a reply (R108). -/
def lostCommit (p : Phase) (o : TryOutcome) (w : ParamWork) : ParamWork :=
  match o with
  | .noReply | .garbled => { w with unverified := w.unverified || p == .commit }
  | .sent | .replied _ | .collided => w

theorem noted_commit {x : Slot} {w : ParamWork} {p : Phase} (work : x.work = .param w)
    (phase : w.phase = some p) (o : TryOutcome) :
    noted o x = { x with work := .param (lostCommit p o w) } := by
  have same : x = { x with work := .param w } := by rw [← work]
  have marked : (if w.phase = some .commit then
      ({ x with work := .param { w with unverified := true } } : Slot) else x) =
      { x with work := .param { w with unverified := w.unverified || p == .commit } } := by
    by_cases commit : p = .commit
    · rw [if_pos (by rw [phase, commit]), commit, beq_self_eq_true, Bool.or_true]
    · rw [if_neg (fun e => commit (Option.some.inj (phase.symm.trans e))),
        beq_false_of_ne commit, Bool.or_false]
      exact same
  unfold noted lostCommit
  rw [work]
  cases o with
  | noReply => exact marked
  | garbled => exact marked
  | _ => exact same

/-- A step of phase POLL or FINAL. -/
def polls (p : Phase) : Bool := p == .poll || p == .final

/-- Where a mismatch seen before counts for a commit that ends with its step (R85, R122). -/
def keeps (w : ParamWork) (p : Phase) (o : TryOutcome) : Bool :=
  !(w.programming && !polledDone (polls p) o)

theorem preludeReply_addr (r : Reply) (w : ParamWork) : (preludeReply r w).1.addr = w.addr := by
  unfold preludeReply
  cases r.status <;> rfl

theorem stageReply_addr (p : Phase) (r : Reply) (w : ParamWork) :
    (stageReply p r w).1.addr = w.addr := by
  unfold stageReply
  cases r.status <;> rfl

theorem commitReply_addr (r : Reply) (w : ParamWork) : (commitReply r w).1.addr = w.addr := by
  unfold commitReply
  cases r.status with
  | done => dsimp only; split <;> rfl
  | _ => rfl

theorem pollReply_addr (r : Reply) (w : ParamWork) : (pollReply r w).1.addr = w.addr := by
  unfold pollReply
  cases r.status with
  | done => dsimp only; split <;> rfl
  | _ => rfl

theorem finalReply_addr (r : Reply) (w : ParamWork) : (finalReply r w).1.addr = w.addr := by
  unfold finalReply
  cases r.status with
  | done => dsimp only; split <;> rfl
  | _ => rfl

theorem phaseReply_addr (p : Phase) (r : Reply) (w : ParamWork) :
    (phaseReply p r w).1.addr = w.addr := by
  unfold phaseReply
  cases p with
  | prelude => exact preludeReply_addr r _
  | stage1 => exact stageReply_addr _ r _
  | stage2 => exact stageReply_addr _ r _
  | commit => exact commitReply_addr r _
  | poll => exact pollReply_addr r _
  | final => exact finalReply_addr r _

theorem phaseOutcome_addr (p : Phase) (o : TryOutcome) (w : ParamWork) :
    (phaseOutcome p o w).1.addr = w.addr := by
  cases o with
  | replied r => exact phaseReply_addr p r w
  | _ => rfl

theorem countPoll_addr (w : ParamWork) : w.countPoll.addr = w.addr := by
  unfold ParamWork.countPoll
  split <;> rfl

theorem lostCommit_same (p : Phase) (o : TryOutcome) (w : ParamWork) :
    (lostCommit p o w).addr = w.addr ∧ (lostCommit p o w).phase = w.phase ∧
      (lostCommit p o w).programming = w.programming := by
  unfold lostCommit
  cases o <;> exact ⟨rfl, rfl, rfl⟩

/-- The end of a commit's step, judged by its phase over the table as the report left it. -/
theorem commitStep_judged {l : Line} {s : State} {st : Step} {i : SlotId} {x x' : Slot} {c : Instr}
    {o : TryOutcome} {w w2 : ParamWork} {p : Phase} {cont : CommitCont}
    (h : StepEnds l s st i x c o) (work : x.work = .param w) (phase : w.phase = some p)
    (started : x.started = true) (hx' : x' = { x with tries := st.tries })
    (next : phaseOutcome p o (lostCommit p o w).countPoll = (w2, cont))
    (counted : CommitCont.counted cont)
    (verified : cont = .pause ∨ cont = .failed → w2.verified = false) :
    ∃ n m t, StepHeard l s st i x o n ∧ StepOver l s i c o m t ∧ CommitLeaves l w.addr n m ∧
      Continues l i x' w2 (keeps w p o) (polls p) (n.entry l w.addr) s m cont := by
  obtain ⟨n, m, t, heard, over_, e, hm⟩ := stepEnds_over h
  refine ⟨n, m, t, heard, over_, ?_⟩
  obtain ⟨addr, phase', programming⟩ := lostCommit_same p o w
  have addr2 : w2.addr = w.addr := by
    have same := phaseOutcome_addr p o (lostCommit p o w).countPoll
    rw [next, countPoll_addr, addr] at same
    exact same
  obtain ⟨y, hy⟩ : ∃ y, y = { x' with work := .param (lostCommit p o w) } := ⟨_, rfl⟩
  have line : y.line = l := by rw [hy, hx']; exact h.line
  have started' : y.started = true := by rw [hy, hx']; exact started
  have judged : slotStepEnd i (st.afterTry o) o n =
      if y.abortPending then commitAborts i y w2 (!keeps w p o) cont n
      else commitContinues i y w2 (polls p) cont n := by
    have slot := heard.slot
    rw [noted_commit work phase] at slot
    have step : slotStepEnd i (st.afterTry o) o n = commitStepEnd i y (lostCommit p o w) o n := by
      unfold slotStepEnd
      rw [slot, hy, hx']
      rfl
    rw [step]
    unfold commitStepEnd
    rw [phase', phase]
    dsimp only
    rw [next, programming]
    unfold keeps polls
    rw [Bool.not_not]
  rw [judged] at hm
  have leaves : CommitLeaves l w.addr n (if y.abortPending then
      commitAborts i y w2 (!keeps w p o) cont n
      else commitContinues i y w2 (polls p) cont n) := by
    rw [← addr2]
    split
    · exact commitLeaves_aborts line started' w2 _ cont n
    · exact commitLeaves_continues line started' w2 _ cont n
  refine ⟨⟨fun b other => ?_, ?_⟩, ?_⟩
  · rw [hm]
    exact leaves.entry b other
  · rw [hm]
    exact leaves.buffer
  · have after := continues_decided heard line started' counted verified hm
    rw [Bool.not_not, addr2] at after
    subst hy
    cases cont <;> exact after

/-! ## The table after the step -/

theorem phaseCall_node (p : Phase) (w : ParamWork) :
    (phaseCall p w).target = .node w.addr ∧ (phaseCall p w).reply = true ∧
      (phaseCall p w).verb ≠ verbPing := by
  refine ⟨by cases p <;> rfl, by cases p <;> rfl, ?_⟩
  cases p <;> simp [phaseCall, checkCall, stageCall, commitCall, verbPing, verbCheck, verbStage,
    verbCommit]

/-- The entries after a commit's step was reported. -/
theorem commitStep_entry {l : Line} {s n m : State} {st : Step} {i : SlotId} {x : Slot}
    {o : TryOutcome} {w : ParamWork} {p : Phase} (call : st.call = phaseCall p w)
    (heard : StepHeard l s st i x o n) (leaves : CommitLeaves l w.addr n m) :
    n.entry l w.addr = afterReport s l w.addr st.allGarbled o ∧
      ∀ a, a ≠ w.addr → m.entry l a = s.entry l a := by
  obtain ⟨target, reply, verb⟩ := phaseCall_node p w
  have same : ∀ a, n.entry l a = (reportStep l st.call st.allGarbled o s).entry l a := fun a => by
    simp only [State.entry, State.table, heard.nodes]
  have entry := fun a => reportStep_entry (l := l) (c := st.call) (a := w.addr)
    (g := st.allGarbled) (o := o) (s := s) (by rw [call]; exact target) (by rw [call]; exact reply)
    (fun _ _ => by rw [call]; exact verb) a
  exact ⟨(same _).trans ((entry _).trans (if_pos rfl)),
    fun a other => (leaves.entry a other).trans ((same a).trans ((entry a).trans (if_neg other)))⟩

/-- The notices of a commit's reply are those of a hearing. -/
theorem commitStep_buffer {l : Line} {s n m : State} {st : Step} {i : SlotId} {x : Slot}
    {r : Reply} {w : ParamWork} {p : Phase} (call : st.call = phaseCall p w)
    (heard : StepHeard l s st i x (.replied r) n) (leaves : CommitLeaves l w.addr n m) :
    m.buffer = (hear l w.addr s).buffer := by
  obtain ⟨target, reply, verb⟩ := phaseCall_node p w
  rw [leaves.buffer, heard.buffer, call, reportStep_of_node target reply]
  exact congrArg State.buffer (hearReply_eq_hear (.inl verb))

/-! ## The outcome of a commit without a verdict -/

theorem countPoll_eq {w : ParamWork} {p : Phase} (phase : w.phase = some p) :
    w.countPoll = { w with
      polls := if p = .poll ∨ p = .final then min 255 (w.polls + 1) else w.polls } := by
  unfold ParamWork.countPoll
  rw [phase]
  cases p <;> simp [← phase]

/-- What the reply keeps of itself (R104). -/
theorem phaseReply_eq {w w1 : ParamWork} {p : Phase} {r : Reply} {k : Nat}
    (hw1 : w1 = { w with
      lastReply := some r.status, polls := k
      readback := if r.status = .done then replyDigest r.data else w.readback }) :
    phaseReply p r { w with polls := k } = match p with
      | .prelude => preludeReply r w1
      | .stage1 => stageReply (if w1.length ≤ 4 then .commit else .stage2) r w1
      | .stage2 => stageReply .commit r w1
      | .commit => commitReply r w1
      | .poll => pollReply r w1
      | .final => finalReply r w1 := by
  rw [hw1]
  cases p <;> rfl

/-- Whether a mismatch seen before counts, by the phase and by whether its CHECK was answered DONE. -/
def keptBy (p : Phase) (done : Bool) (w : ParamWork) : Bool :=
  match p with
  | .poll | .final => done
  | .prelude => !w.preludeBusy
  | .stage1 | .stage2 | .commit => true

theorem keptBy_eq (p : Phase) (done : Bool) (w : ParamWork) : keptBy p done w = (match p with
    | .poll | .final => done
    | .prelude => !w.preludeBusy
    | _ => true) := by
  cases p <;> rfl

theorem keeps_replied {w : ParamWork} {p : Phase} (phase : w.phase = some p) (r : Reply) :
    keeps w p (.replied r) = keptBy p (r.status == .done) w := by
  unfold keeps polls polledDone ParamWork.programming
  rw [phase]
  cases p <;> simp [keptBy]

theorem keeps_failed {w : ParamWork} {p : Phase} {o : TryOutcome} (phase : w.phase = some p)
    (failed : ∀ r, o ≠ .replied r) : keeps w p o = keptBy p false w := by
  unfold keeps polls polledDone ParamWork.programming
  rw [phase]
  cases o with
  | replied r => exact absurd rfl (failed r)
  | _ => cases p <;> simp [keptBy]

/-- The commits of a step that failed (R112, R119). -/
theorem commitStep_failed {l : Line} {s : State} {st : Step} {i : SlotId} {x x' : Slot} {c : Instr}
    {o : TryOutcome} {w : ParamWork} {p : Phase} {status : Status} {k : Nat}
    (h : StepEnds l s st i x c o) (work : x.work = .param w) (phase : w.phase = some p)
    (call : st.call = phaseCall p w) (started : x.started = true) (verified : w.verified = false)
    (final : p = .final → w.finalFlag = true) (hx' : x' = { x with tries := st.tries })
    (hk : k = if p = .poll ∨ p = .final then min 255 (w.polls + 1) else w.polls)
    (failed : (o, status) ∈ [(TryOutcome.noReply, Status.noReply), (.garbled, .garbled),
      (.collided, .collided)]) :
    ∃ m t, StepOver l s i c o m t ∧ (∀ a, a ≠ w.addr → m.entry l a = s.entry l a) ∧
      CommitResult l i x'
        { w with polls := k, unverified := w.unverified || (p == .commit && o != .collided) }
        (keptBy p false w) []
        (if (p == .commit && o != .collided) = true ∨ w.unverified = true ∨ w.finalFlag = true
          then .unknown else .none)
        (if p = .final then .commitTimeout else status) (afterReport s l w.addr st.allGarbled o)
        s m := by
  simp only [List.mem_cons, Prod.mk.injEq, List.not_mem_nil, or_false] at failed
  have lost : lostCommit p o w =
      { w with unverified := w.unverified || (p == .commit && o != .collided) } := by
    have noReply : (TryOutcome.noReply != .collided) = true := rfl
    have garbled : (TryOutcome.garbled != .collided) = true := rfl
    unfold lostCommit
    rcases failed with ⟨rfl, _⟩ | ⟨rfl, _⟩ | ⟨rfl, _⟩ <;> simp [noReply, garbled]
  generalize hw2 : ({ w with
    polls := k, unverified := w.unverified || (p == .commit && o != .collided) } : ParamWork) = w2
  have counted : (lostCommit p o w).countPoll = w2 := by
    rw [countPoll_eq (p := p) (by rw [(lostCommit_same p o w).2.1, phase]), lost, ← hw2, hk]
  have next : phaseOutcome p o (lostCommit p o w).countPoll =
      (w2, .result (if p = .final then .commitTimeout else status) []) := by
    rw [counted]
    rcases failed with ⟨rfl, rfl⟩ | ⟨rfl, rfl⟩ | ⟨rfl, rfl⟩ <;> cases p <;> rfl
  have narrow : narrowStatus (if p = .final then .commitTimeout else status) = true := by
    split
    · rfl
    · rcases failed with ⟨_, rfl⟩ | ⟨_, rfl⟩ | ⟨_, rfl⟩ <;> rfl
  generalize hst : (if p = .final then Status.commitTimeout else status) = decided at next narrow
  have plain : CommitCont.counted (.result decided []) :=
    ⟨fun e => absurd narrow (by rw [e]; exact Bool.false_ne_true),
      fun e => absurd narrow (by rw [e]; exact Bool.false_ne_true),
      fun e => absurd narrow (by rw [e]; exact Bool.false_ne_true)⟩
  obtain ⟨n, m, t, heard, over_, leaves, judged⟩ := commitStep_judged h work phase started hx' next
    plain (fun h => by rcases h with h | h <;> cases h)
  obtain ⟨entry, others⟩ := commitStep_entry call heard leaves
  refine ⟨m, t, over_, others, ?_⟩
  have outcome : commitOutcome decided false w2 =
      if (p == .commit && o != .collided) = true ∨ w.unverified = true ∨ w.finalFlag = true
        then .unknown else .none := by
    rw [commitOutcome_narrow narrow, ← hw2]
    unfold outcomeOf
    simp only [verified, Bool.false_eq_true, if_false, false_and, Bool.or_eq_true]
    congr 1
    exact propext (by tauto)
  have replies : ∀ r, o ≠ .replied r := by
    intro r
    rcases failed with ⟨rfl, _⟩ | ⟨rfl, _⟩ | ⟨rfl, _⟩ <;> simp
  rw [← outcome, ← entry, ← keeps_failed phase replies]
  simpa only [Continues, ite_self] using judged

/-! ## What a reply makes of the commit -/

/-- No phase's rule gives a result that is not the commit's own, and none verifies a commit that it
lets go on. -/
def Sound (w : ParamWork) (next : ParamWork × CommitCont) : Prop :=
  CommitCont.counted next.2 ∧
    (w.verified = false → next.2 = .pause ∨ next.2 = .failed → next.1.verified = false)

theorem sound_ite {c : Prop} [Decidable c] {w : ParamWork} {a b : ParamWork × CommitCont}
    (ha : Sound w a) (hb : Sound w b) : Sound w (if c then a else b) := by
  split
  · exact ha
  · exact hb

theorem sound_goes {w v : ParamWork} (same : v.verified = w.verified) (c : CommitCont)
    (counted : CommitCont.counted c) : Sound w (v, c) :=
  ⟨counted, fun h _ => same.trans h⟩

theorem sound_result {w v : ParamWork} {st : Status} {data : List Byte}
    (counted : st ≠ .expired ∧ st ≠ .nodeClash ∧ st ≠ .badRecord) :
    Sound w (v, .result st data) :=
  ⟨counted, fun _ h => by rcases h with h | h <;> cases h⟩

theorem preludeReply_sound (r : Reply) (w : ParamWork) : Sound w (preludeReply r w) := by
  unfold preludeReply
  cases r.status <;> exact sound_goes rfl _ trivial

theorem stageReply_sound (p : Phase) (r : Reply) (w : ParamWork) : Sound w (stageReply p r w) := by
  unfold stageReply
  cases r.status with
  | ok => exact sound_goes rfl _ trivial
  | busy => exact sound_goes rfl _ trivial
  | _ => exact sound_result (by simp)

theorem commitReply_sound (r : Reply) (w : ParamWork) : Sound w (commitReply r w) := by
  unfold commitReply
  cases r.status with
  | done => exact sound_ite (sound_result (by simp)) (sound_goes rfl _ trivial)
  | locked => exact sound_result (by simp)
  | _ => exact sound_goes rfl _ trivial

theorem pollReply_sound (r : Reply) (w : ParamWork) : Sound w (pollReply r w) := by
  unfold pollReply
  cases r.status with
  | done => exact sound_ite (sound_result (by simp)) (sound_goes rfl _ trivial)
  | _ => exact sound_goes rfl _ trivial

theorem finalReply_sound (r : Reply) (w : ParamWork) : Sound w (finalReply r w) := by
  unfold finalReply
  cases r.status with
  | done => exact sound_ite (sound_result (by simp)) (sound_result (by simp))
  | _ => exact sound_result (by simp)

theorem phaseReply_sound (p : Phase) (r : Reply) (w : ParamWork) : Sound w (phaseReply p r w) := by
  unfold phaseReply
  cases p with
  | prelude => exact preludeReply_sound r _
  | stage1 => exact stageReply_sound _ r _
  | stage2 => exact stageReply_sound _ r _
  | commit => exact commitReply_sound r _
  | poll => exact pollReply_sound r _
  | final => exact finalReply_sound r _

/-- The end of a step that a reply has ended. -/
theorem commitStep_replied {l : Line} {s : State} {st : Step} {i : SlotId} {x x' : Slot} {c : Instr}
    {r : Reply} {w : ParamWork} {p : Phase} {k : Nat} (h : StepEnds l s st i x c (.replied r))
    (work : x.work = .param w) (phase : w.phase = some p) (call : st.call = phaseCall p w)
    (started : x.started = true) (verified : w.verified = false)
    (hx' : x' = { x with tries := st.tries })
    (hk : k = if p = .poll ∨ p = .final then min 255 (w.polls + 1) else w.polls) :
    ∃ m t, StepOver l s i c (.replied r) m t ∧ (∀ a, a ≠ w.addr → m.entry l a = s.entry l a) ∧
      m.buffer = (hear l w.addr s).buffer ∧
      Continues l i x' (phaseReply p r { w with polls := k }).1 (keptBy p (r.status == .done) w)
        (polls p) ((s.entry l w.addr).heard s.ms) s m (phaseReply p r { w with polls := k }).2 := by
  have counted : (lostCommit p (.replied r) w).countPoll = { w with polls := k } := by
    rw [hk]
    exact countPoll_eq phase
  obtain ⟨plain, kept⟩ := phaseReply_sound p r { w with polls := k }
  obtain ⟨n, m, t, heard, over_, leaves, judged⟩ := commitStep_judged h work phase started hx'
    (by rw [counted]; rfl) plain (kept verified)
  obtain ⟨entry, others⟩ := commitStep_entry call heard leaves
  refine ⟨m, t, over_, others, commitStep_buffer call heard leaves, ?_⟩
  rw [entry, keeps_replied phase] at judged
  exact judged

/-- Settles O35. -/
theorem commitStepsFollowTheirPhase : Obligations.CommitStepsFollowTheirPhase := by
  refine ⟨paramDetail_bytes, ?_⟩
  intro l s st i x x' c o w p k doubt h work phase call started verified final hx' hk hdoubt
  refine ⟨fun r w1 same kept ho hw1 hsame hkept => ?_, fun status failed => ?_⟩
  · subst ho
    obtain ⟨m, t, over_, others, buffer, judged⟩ :=
      commitStep_replied h work phase call started verified hx' hk
    have hkept' : keptBy p (r.status == .done) w = kept :=
      (keptBy_eq p (r.status == .done) w).trans hkept.symm
    rw [phaseReply_eq hw1, hkept'] at judged
    refine ⟨m, t, _, over_, rfl, others, buffer, ?_⟩
    generalize (s.entry l w.addr).heard s.ms = e at judged ⊢
    have length : w1.length = w.length := by rw [hw1]
    have fresh : w1.verified = false ∧ w1.unverified = w.unverified ∧ w1.finalFlag = w.finalFlag ∧
        w1.accepted = w.accepted ∧ w1.digest = w.digest := by
      rw [hw1]
      exact ⟨verified, rfl, rfl, rfl, rfl⟩
    obtain ⟨verified1, unverified1, final1, accepted1, digest1⟩ := fresh
    have doubtful : ∀ status, narrowStatus status = true →
        commitOutcome status false w1 = doubt false := by
      intro status narrow
      rw [commitOutcome_narrow narrow, hdoubt]
      unfold outcomeOf
      simp [verified1, unverified1, final1]
    have matched : ∀ v : ParamWork, v.digest = w1.digest → (v.matched r = true ↔ same) := by
      intro v e
      unfold ParamWork.matched
      rw [hsame, e, digest1, beq_iff_eq]
    clear hw1 hkept hkept'
    cases p with
    | prelude =>
      unfold preludeReply at judged
      cases status : r.status <;> rw [status] at judged <;> exact judged
    | stage1 =>
      rw [length] at judged
      unfold stageReply at judged
      cases status : r.status <;> rw [status] at judged
      case ok => exact judged
      case busy => exact judged
      all_goals
        dsimp only [Continues] at judged
        rw [doubtful _ rfl] at judged
        exact judged
    | stage2 =>
      unfold stageReply at judged
      cases status : r.status <;> rw [status] at judged
      case ok => exact judged
      case busy => exact judged
      all_goals
        dsimp only [Continues] at judged
        rw [doubtful _ rfl] at judged
        exact judged
    | commit =>
      unfold commitReply at judged
      cases status : r.status <;> rw [status] at judged
      case done =>
        dsimp only at judged
        refine ⟨fun yes => ?_, fun no => ?_⟩
        · rw [if_pos ((matched { w1 with unverified := true, accepted := true } rfl).2 yes)] at judged
          dsimp only [Continues] at judged
          rw [commitOutcome_verified rfl] at judged
          exact judged
        · rw [if_neg (mt (matched { w1 with unverified := true, accepted := true } rfl).1 no)] at judged
          exact judged
      case locked =>
        dsimp only [Continues] at judged
        rw [doubtful _ rfl] at judged
        exact judged
      all_goals exact judged
    | poll =>
      unfold pollReply at judged
      cases status : r.status <;> rw [status] at judged
      case done =>
        refine ⟨fun yes => ?_, fun no => ?_⟩
        · rw [if_pos ((matched _ rfl).2 yes)] at judged
          dsimp only [Continues] at judged
          rw [commitOutcome_verified rfl] at judged
          exact judged
        · rw [if_neg (mt (matched _ rfl).1 no)] at judged
          exact judged
      all_goals exact judged
    | final =>
      have unknown : ∀ v : ParamWork, v.verified = false → v.finalFlag = true →
          commitOutcome .commitTimeout false v = .unknown := fun v hv hf => by
        rw [commitOutcome_narrow rfl, outcomeOf_final hv hf rfl]
      have last : w1.finalFlag = true := final1.trans (final rfl)
      unfold finalReply at judged
      cases status : r.status <;> rw [status] at judged
      case done =>
        rw [← accepted1]
        refine ⟨fun ⟨yes, match_⟩ => ?_, fun no => ?_⟩
        · rw [if_pos (c := w1.accepted = true ∧ w1.matched r = true)
            ⟨yes, (matched _ rfl).2 match_⟩] at judged
          dsimp only [Continues] at judged
          rw [commitOutcome_verified rfl] at judged
          exact judged
        · rw [if_neg (c := w1.accepted = true ∧ w1.matched r = true)
            fun h => no ⟨h.1, (matched _ rfl).1 h.2⟩] at judged
          dsimp only [Continues] at judged
          rw [unknown { w1 with mismatch := w1.accepted && (replyDigest r.data).isSome } verified1
            last] at judged
          exact judged
      all_goals
        dsimp only [Continues] at judged
        rw [unknown _ verified1 last] at judged
        exact judged
  · obtain ⟨m, t, over_, others, result⟩ := commitStep_failed h work phase call started verified
      final hx' hk failed
    refine ⟨m, t, over_, others, ?_⟩
    rw [hdoubt]
    simp only [List.mem_cons, Prod.mk.injEq, List.not_mem_nil, or_false] at failed
    rw [keptBy_eq] at result
    rcases failed with ⟨rfl, rfl⟩ | ⟨rfl, rfl⟩ | ⟨rfl, rfl⟩ <;> exact result

end Sys2Proof.CommitSteps

/-! What the judgement of a line and a grant leave of a slot, and the deadlines of slots. -/

namespace Sys2Proof.SlotDeadlines

open Sys2Proof Sys2Proof.Machine Sys2Proof.Safety Sys2Proof.Laws Sys2Proof.NodeTable
  Sys2Proof.Registers Sys2Proof.FieldLines Sys2Proof.SlotEnds Sys2Proof.Reports Sys2Proof.Steps
  Sys2Proof.Judgement Sys2Proof.Windows Sys2Proof.CommitSteps

/-! ## The end of a slot, as its slot shows it -/

/-- The end of a slot leaves a commit its work but for the outcome. -/
def SameCommit (u v : Work) : Prop := ∀ w, u = .param w → ∃ o, v = .param { w with outcome := o }

theorem endSlot_slot {s : State} {i : SlotId} {x : Slot} (hx : s.slot i = some x) (st : Status)
    (narrow : Bool) : ∃ v d, SameCommit x.work v ∧ (endSlot i st narrow s).slot i =
      if RingTakes x s then some (finished i { x with work := v } st d) else none := by
  have form : ∀ v d (m : State), m.resultRing = s.resultRing → m.workRing = s.workRing →
      (ended i { x with work := v } st d m).slot i =
        if RingTakes x s then some (finished i { x with work := v } st d) else none := by
    intro v d m results rings
    rw [ended_slot_self]
    unfold RingTakes
    rw [results, rings]
  by_cases commit : ∃ w, x.work = .param w
  · obtain ⟨w, work⟩ := commit
    have same : ∀ o, SameCommit x.work (.param { w with outcome := o }) := fun o w' e => by
      rw [work] at e
      cases e
      exact ⟨o, rfl⟩
    rcases Bool.eq_false_or_eq_true x.started with started | started
    · rw [endSlot_commit hx work started rfl]
      exact ⟨_, _, same _, form _ _ _ rfl rfl⟩
    · rw [endSlot_unstarted hx work started rfl, releaseLock_eq]
      exact ⟨_, _, same _, form _ _ _ rfl rfl⟩
  · have other : ∀ v, SameCommit x.work v := fun v w e => absurd ⟨w, e⟩ commit
    by_cases discovery : ∃ w, x.work = .discover w
    · obtain ⟨w, work⟩ := discovery
      rw [endSlot_discovery hx work]
      exact ⟨_, _, other _, form _ _ _ rfl rfl⟩
    · rw [endSlot_direct hx (not_exists.1 commit) (not_exists.1 discovery)]
      exact ⟨x.work, _, other _, form x.work _ _ rfl rfl⟩

/-! ## What a judgement and a grant keep of a slot -/

/-- A property of a slot that judgements, ends and grants keep. -/
structure Steady (P : Slot → Prop) : Prop where
  waits : ∀ s i x r, P x → earlyReason s i x = some r → x.inFinal = false →
    P { x with state := .waiting r }
  chosen : ∀ s i x k, P x →
    (k = .ready ∨ ∃ r, lateReason s i (x.withChoice s i) = some r ∧ k = .waiting r) →
    P { x.withChoice s i with state := k }
  finishes : ∀ s i x y v st d, P x → (y = x ∨ y = x.withChoice s i) → SameCommit y.work v →
    P (finished i { y with work := v } st d)
  granted : ∀ x v b, P x → (x.started = true → ∀ w, x.work = .param w → v = x.work) →
    P { x.atGrant v with budgetAt := b }

/-- What an operation leaves of a slot: the property holds, the ring is the same, and the slot does
not become FREE while its result ring takes its result. -/
structure Leaves (P : Slot → Prop) (x : Slot) (takes : Prop) (o : Option Slot) : Prop where
  steady : ∀ y, o = some y → P y ∧ y.ring = x.ring
  present : takes → o ≠ none

variable {P : Slot → Prop}

theorem leaves_some {x y : Slot} {takes : Prop} (py : P y) (ring : y.ring = x.ring) :
    Leaves P x takes (some y) := by
  refine ⟨fun z e => ?_, fun _ => by simp⟩
  cases e
  exact ⟨py, ring⟩

theorem endSlot_leaves (steady : Steady P) {s m : State} {i : SlotId} {x y : Slot} (px : P x)
    (hy : m.slot i = some y) (form : y = x ∨ y = x.withChoice s i) (st : Status)
    (narrow : Bool) (results : m.resultRing = s.resultRing) (rings : m.workRing = s.workRing) :
    Leaves P x (RingTakes x s) ((endSlot i st narrow m).slot i) := by
  obtain ⟨v, d, same, slot⟩ := endSlot_slot hy st narrow
  have ring : y.ring = x.ring := by
    rcases form with rfl | rfl
    · rfl
    · exact (withChoice_kept s i x).ring
  have takes : RingTakes y m ↔ RingTakes x s := by
    unfold RingTakes
    rw [results, rings, ring]
  rw [slot]
  refine ⟨fun z e => ?_, fun h => by rw [if_pos (takes.2 h)]; simp⟩
  split at e
  · cases e
    exact ⟨steady.finishes s i x y v st d px form same, ring⟩
  · cases e

theorem judgeSlot_leaves (steady : Steady P) {s : State} {i : SlotId} {x : Slot}
    (hx : s.slot i = some x) (px : P x) :
    Leaves P x (RingTakes x s) ((judgeSlot i s).slot i) := by
  unfold judgeSlot
  rw [hx]
  dsimp only
  split
  · split
    · next r early =>
      split
      · unfold endTimedOut
        rw [hx]
        exact endSlot_leaves (s := s) steady px hx (.inl rfl) _ _ rfl rfl
      · next running =>
        rw [slot_setSlot_self]
        exact leaves_some (steady.waits s i x r px early (Bool.eq_false_iff.2 running)) rfl
    · unfold judgeLate
      split
      · exact endSlot_leaves (s := s) steady px (slot_setSlot_self s i _) (.inr rfl) _ _ rfl rfl
      · split
        · next r late =>
          rw [slot_setSlot_self]
          exact leaves_some (steady.chosen s i x _ px (.inr ⟨r, late, rfl⟩))
            (withChoice_kept s i x).ring
        · split
          · exact endSlot_leaves (s := s) steady px hx (.inl rfl) _ _ rfl rfl
          · rw [slot_setSlot_self]
            exact leaves_some (steady.chosen s i x _ px (.inl rfl)) (withChoice_kept s i x).ring
  · rw [hx]
    exact leaves_some px rfl

/-! ## A grant -/

theorem grantStep_rest (l : Line) (h : Holder) (c : Call) (k : Nat) (s : State) :
    ∃ e, grantStep l h c k s = s.setEngine l e := by
  unfold grantStep beginStep
  rw [setEngine_setEngine]
  obtain ⟨e, he⟩ := afterGap_rest l (s.setEngine l { s.engine l with
    holder := h, step := some { call := c, retryLimit := k, tries := 0, allGarbled := true } })
  refine ⟨e, ?_⟩
  rw [engine_setEngine_self, he, setEngine_setEngine]

/-- What a grant makes of a slot that it is given to (R80). -/
def GrantedAs (x : Slot) (o : Option Slot) : Prop :=
  ∃ v b, o = some { x.atGrant v with budgetAt := b } ∧
    (x.started = true → ∀ w, x.work = .param w → v = x.work)

theorem grantSlot_slot {s : State} {i : SlotId} {x : Slot} :
    grantSlot i x s = s ∨ GrantedAs x ((grantSlot i x s).slot i) := by
  have plain : ∀ (v : Work) (h : Holder) (c : Call) (k : Nat) (m : State),
      (x.started = true → ∀ w, x.work = .param w → v = x.work) →
      m.slot i = some (x.atGrant v) → GrantedAs x ((grantStep x.line h c k m).slot i) := by
    intro v h c k m same hm
    obtain ⟨e, he⟩ := grantStep_rest x.line h c k m
    refine ⟨v, x.budgetAt, ?_, same⟩
    rw [he]
    exact hm
  unfold grantSlot
  cases work : x.work with
  | unknown => exact .inl rfl
  | call w =>
    exact .inr (plain _ _ _ _ (s.setSlot i _) (fun _ w' e => by rw [work] at e; cases e)
      (slot_setSlot_self s i _))
  | sweep w =>
    dsimp only [grantSweep]
    cases w.step with
    | none => exact .inl rfl
    | some a =>
      exact .inr (plain _ _ _ _ (s.setSlot i _) (fun _ w' e => by rw [work] at e; cases e)
        (slot_setSlot_self s i _))
  | param w =>
    dsimp only [grantCommit]
    cases (w.atGrant s x).phase with
    | none => exact .inl rfl
    | some p =>
      dsimp only
      rcases Bool.eq_false_or_eq_true x.started with started | started
      · have same : w.atGrant s x = w := by
          unfold ParamWork.atGrant
          rw [if_pos started]
        have put : commitAtGrant i x (w.atGrant s x) s = s.setSlot i (some (x.atGrant (.param w))) := by
          unfold commitAtGrant
          rw [if_pos started, same]
        rw [put]
        exact .inr (plain _ _ _ _ (s.setSlot i _) (fun _ _ _ => work.symm)
          (slot_setSlot_self s i _))
      · obtain ⟨e, he⟩ := grantStep_rest x.line (.slot i) (phaseCall p (w.atGrant s x))
          (x.retryLimit s) (commitAtGrant i x (w.atGrant s x) s)
        refine .inr ⟨.param (w.atGrant s x), some (budgetDeadline s x (w.atGrant s x)), ?_,
          fun h => by rw [started] at h; cases h⟩
        rw [he]
        unfold commitAtGrant
        rw [if_neg (by rw [started]; exact Bool.false_ne_true)]
        exact slot_setSlot_self s i _
  | discover w =>
    dsimp only [grantDiscover]
    cases (discoverAtGrant w s).1.stepCall with
    | none => exact .inl rfl
    | some c =>
      exact .inr (plain _ _ _ _ ((discoverAtGrant w s).2.setSlot i _)
        (fun _ w' e => by rw [work] at e; cases e) (slot_setSlot_self _ i _))

theorem grantSlot_other {s : State} {i j : SlotId} {x : Slot} (h : j ≠ i) :
    (grantSlot i x s).slot j = s.slot j := by
  have plain : ∀ (hd : Holder) (c : Call) (k : Nat) (m : State), m.slot j = s.slot j →
      (grantStep x.line hd c k m).slot j = s.slot j := by
    intro hd c k m hm
    obtain ⟨e, he⟩ := grantStep_rest x.line hd c k m
    rw [he]
    exact hm
  have put : ∀ (m : State) (o : Option Slot), m.slot j = s.slot j →
      (m.setSlot i o).slot j = s.slot j := fun m o hm => (slot_setSlot_ne m o h).trans hm
  unfold grantSlot
  cases x.work with
  | unknown => rfl
  | call w => exact plain _ _ _ _ (put s _ rfl)
  | sweep w =>
    dsimp only [grantSweep]
    cases w.step with
    | none => rfl
    | some a => exact plain _ _ _ _ (put s _ rfl)
  | param w =>
    dsimp only [grantCommit]
    cases (w.atGrant s x).phase with
    | none => rfl
    | some p =>
      refine plain _ _ _ _ ?_
      unfold commitAtGrant
      split
      · exact put s _ rfl
      · exact put s _ rfl
  | discover w =>
    dsimp only [grantDiscover]
    cases (discoverAtGrant w s).1.stepCall with
    | none => rfl
    | some c =>
      refine plain _ _ _ _ (put _ _ ?_)
      unfold discoverAtGrant
      cases w.phase <;> rfl

/-- The arbiter leaves a slot, or grants it the line. -/
theorem arbiter_slot (l : Line) (s : State) (i : SlotId) :
    (arbiter l s).slot i = s.slot i ∨
      ∃ x, s.slot i = some x ∧ x.state = .ready ∧ GrantedAs x ((arbiter l s).slot i) := by
  unfold arbiter
  split
  · split
    · unfold grantReflex
      split
      · exact .inl rfl
      · obtain ⟨e, he⟩ := grantStep_rest l .reflex _ 1 s
        exact .inl (by rw [he]; rfl)
    · split
      · refine .inl ?_
        dsimp only [grantListen]
        obtain ⟨e, he⟩ := grantStep_rest l .series listenCall 0 (s.setEngine l _)
        rw [he]
        rfl
      · split
        · next j x chosen =>
          obtain ⟨slot, ready, _⟩ := chooseSlot_ready chosen
          by_cases same : i = j
          · subst same
            rcases grantSlot_slot (s := s) (i := i) (x := x) with stays | granted
            · exact .inl (by rw [stays])
            · exact .inr ⟨x, slot, ready, granted⟩
          · exact .inl (grantSlot_other same)
        · exact .inl rfl
  · exact .inl rfl

/-! ## The judgement of a line and its grant -/

/-- A slot has a property, and is there while its result ring takes results. -/
structure Stands (P : Slot → Prop) (i : SlotId) (takes : Prop) (s : State) : Prop where
  steady : ∀ y, s.slot i = some y → P y
  present : takes → ∃ y, s.slot i = some y ∧ RingTakes y s

theorem LineKept.ringTakes {l : Line} {s t : State} (h : LineKept l s t) {x y : Slot}
    (ring : y.ring = x.ring) : RingTakes y t ↔ RingTakes x s := by
  have rings : ∀ r, t.workRing r = s.workRing r := fun r => by
    unfold State.workRing
    rw [h.work]
  unfold RingTakes
  rw [rings, h.out, ring]

theorem judgeSlot_stands (steady : Steady P) {i : SlotId} {takes : Prop} {s : State}
    (h : Stands P i takes s) (j : SlotId) : Stands P i takes (judgeSlot j s) := by
  cases hj : s.slot j with
  | none =>
    have same : judgeSlot j s = s := by
      unfold judgeSlot
      rw [hj]
    rwa [same]
  | some x =>
    have kept := judgeSlot_lineKept (l := x.line) hj rfl
    by_cases same : i = j
    · subst same
      have leaves := judgeSlot_leaves steady hj (h.steady x hj)
      refine ⟨fun y hy => (leaves.steady y hy).1, fun t => ?_⟩
      obtain ⟨x', hx', active⟩ := h.present t
      obtain rfl : x = x' := Option.some.inj (hj.symm.trans hx')
      obtain ⟨y, hy⟩ := Option.ne_none_iff_exists'.1 (leaves.present active)
      exact ⟨y, hy, (LineKept.ringTakes kept (leaves.steady y hy).2).2 active⟩
    · have slot := judgeSlot_other s (i := j) same
      refine ⟨fun y hy => h.steady y (slot ▸ hy), fun t => ?_⟩
      obtain ⟨y, hy, active⟩ := h.present t
      exact ⟨y, slot.trans hy, (LineKept.ringTakes kept rfl).2 active⟩

theorem arbiter_stands (steady : Steady P) {i : SlotId} {takes : Prop} {s : State}
    (h : Stands P i takes s) (l : Line) : Stands P i takes (arbiter l s) := by
  have kept := arbiter_lineKept l s
  rcases arbiter_slot l s i with same | ⟨x, hx, _, v, b, granted, work⟩
  · refine ⟨fun y hy => h.steady y (same ▸ hy), fun t => ?_⟩
    obtain ⟨y, hy, active⟩ := h.present t
    exact ⟨y, same.trans hy, (LineKept.ringTakes kept rfl).2 active⟩
  · refine ⟨fun y hy => ?_, fun t => ?_⟩
    · obtain rfl := Option.some.inj (granted.symm.trans hy)
      exact steady.granted x v b (h.steady x hx) work
    · obtain ⟨x', hx', active⟩ := h.present t
      obtain rfl : x = x' := Option.some.inj (hx.symm.trans hx')
      exact ⟨_, granted, (LineKept.ringTakes (y := { x.atGrant v with budgetAt := b }) kept rfl).2
        active⟩

theorem judgeLine_stands (steady : Steady P) {i : SlotId} {takes : Prop} {s : State}
    (h : Stands P i takes s) (l : Line) : Stands P i takes (judgeLine l s) := by
  have round : ∀ m, Stands P i takes m → Stands P i takes (judgeRound l m) := by
    intro m hm
    rw [judgeRound_eq]
    generalize allSlots = js
    induction js generalizing m with
    | nil => exact hm
    | cons j js ih =>
      refine ih _ ?_
      unfold roundStep
      split
      · exact judgeSlot_stands steady hm j
      · exact hm
  have loop : ∀ n m, Stands P i takes m → Stands P i takes (judgeLoop n l m) := by
    intro n
    induction n with
    | zero => exact fun m hm => hm
    | succ n ih =>
      intro m hm
      unfold judgeLoop
      dsimp only
      split
      · exact ih _ (round m hm)
      · exact round m hm
  exact loop _ s h

theorem settleLine_stands (steady : Steady P) {i : SlotId} {takes : Prop} {s : State}
    (h : Stands P i takes s) (l : Line) : Stands P i takes (settleLine l s) :=
  judgeLine_stands steady (arbiter_stands steady (judgeLine_stands steady h l) l) l

/-- A slot that is put and then settled with its line. -/
theorem after_stands (steady : Steady P) {l : Line} {s t : State} {i : SlotId} {x y : Slot}
    (hy : P y) (ring : y.ring = x.ring) (after : After l (s.setSlot i (some y)) t) :
    (RingTakes x s → t.slot i ≠ none) ∧ ∀ z, t.slot i = some z → P z := by
  obtain ⟨m, settled, served⟩ := after
  have start : Stands P i (RingTakes x s) (s.setSlot i (some y)) := by
    refine ⟨fun z e => ?_, fun takes => ⟨y, slot_setSlot_self s i _, ?_⟩⟩
    · rw [slot_setSlot_self] at e
      cases e
      exact hy
    · unfold RingTakes
      rw [ring]
      exact takes
  have stands := settleLine_stands steady start l
  rw [← settled.exact] at stands
  have slot : t.slot i = m.slot i := by
    unfold State.slot
    rw [served.slots]
  rw [slot]
  refine ⟨fun takes => ?_, stands.steady⟩
  obtain ⟨z, hz, _⟩ := stands.present takes
  rw [hz]
  simp

/-- A slot that an event leaves for the judgement stands afterwards as its reasons have it. -/
theorem after_placed {l : Line} {s t : State} {i : SlotId} {x y : Slot} (hx : s.slot i = some x)
    (line : x.line = l) (after : After l s t) (hy : t.slot i = some y) :
    ∃ m, m.slot i = some y ∧ Placed m i y := by
  obtain ⟨m, settled, served⟩ := after
  have slot : m.slot i = some y := by
    rw [← hy]
    unfold State.slot
    rw [served.slots]
  refine ⟨m, slot, ?_⟩
  obtain ⟨x', hx', kept⟩ := settled.kept.slot i y slot
  obtain rfl : x = x' := Option.some.inj (hx.symm.trans hx')
  have places := settleLine_places l s i
  rw [← settled.exact] at places
  exact places y slot (kept.line.trans line)

/-! ## Deadlines -/

theorem slotDue_eq {s : State} {deadline : Slot → Option Word} {i : SlotId} {x : Slot} {d : Word}
    (live : s.device ≠ .halted) (slot : s.slot i = some x) (set : deadline x = some d)
    (reached : (s.ms - d).toNat < 2 ^ 31) : slotDue s deadline i = some x := by
  unfold slotDue
  rw [slot]
  dsimp only
  rw [if_pos ⟨live_of_ne live, by rw [set]; exact due_some reached⟩]

theorem withChoice_form (s : State) (i : SlotId) (x : Slot) :
    ∃ v, x.withChoice s i = { x with work := v } ∧ ∀ w, x.work = .param w → v = x.work := by
  unfold Slot.withChoice
  cases work : x.work with
  | sweep w => exact ⟨_, rfl, fun w' e => by cases e⟩
  | discover w => exact ⟨_, rfl, fun w' e => by cases e⟩
  | _ => exact ⟨x.work, rfl, fun w' e => work⟩

theorem steady_noDefer : Steady fun y => y.deferAt = none where
  waits _ _ _ _ px _ _ := px
  chosen s i x k px _ := by
    obtain ⟨v, form, _⟩ := withChoice_form s i x
    rw [form]
    exact px
  finishes _ _ _ _ _ _ _ _ _ _ := rfl
  granted _ _ _ px _ := px

/-- A slot that is not PAUSED has no poll deadline, and is not PAUSED by a judgement. -/
theorem steady_noPoll : Steady fun y => y.pollAt = none ∧ y.state ≠ .paused where
  waits _ _ _ _ px _ _ := ⟨px.1, by simp⟩
  chosen s i x k px hk := by
    obtain ⟨v, form, _⟩ := withChoice_form s i x
    rw [form]
    refine ⟨px.1, ?_⟩
    rcases hk with rfl | ⟨r, _, rfl⟩ <;> simp
  finishes _ _ _ _ _ _ _ _ _ _ := ⟨rfl, by simp [finished]⟩
  granted _ _ _ px _ := ⟨px.1, by simp [Slot.atGrant]⟩

/-- A started commit that is to make its final CHECK. -/
def ToFinal (y : Slot) : Prop :=
  y.started = true ∧ y.state ∈ [SlotState.ready, .waiting .lock, .onLine, .finishing] ∧
    ∃ w, y.work = .param w ∧ w.phase = some .final ∧ w.finalFlag = true

theorem steady_toFinal : Steady ToFinal where
  waits s i x r px _ running := by
    obtain ⟨_, _, w, work, phase, _⟩ := px
    unfold Slot.inFinal at running
    rw [work] at running
    simp [phase] at running
  chosen s i x k px hk := by
    obtain ⟨started, _, w, work, phase, flag⟩ := px
    have same : x.withChoice s i = x := by
      unfold Slot.withChoice
      rw [work]
    rw [same] at hk ⊢
    refine ⟨started, ?_, w, work, phase, flag⟩
    rcases hk with rfl | ⟨r, late, rfl⟩
    · simp
    · have lock : r = .lock := by
        unfold lateReason barrierHolds discoveryHolds Slot.isDiscover at late
        rw [work, started] at late
        split at late
        · exact (Option.some.inj late).symm
        · simp at late
      simp [lock]
  finishes s i x y v st d px form same := by
    obtain ⟨started, _, w, work, phase, flag⟩ := px
    have hy : y = x := by
      rcases form with rfl | rfl
      · rfl
      · unfold Slot.withChoice
        rw [work]
    subst hy
    obtain ⟨o, rfl⟩ := same w work
    exact ⟨started, by simp [finished], _, rfl, phase, flag⟩
  granted x v b px same := by
    obtain ⟨started, _, w, work, phase, flag⟩ := px
    exact ⟨rfl, by simp [Slot.atGrant], w, (same started w work).trans work, phase, flag⟩

/-! ## The commit's budget -/

theorem programming_iff {w : ParamWork} : w.programming = true ↔
    w.phase = some .poll ∨ w.phase = some .final ∨
      (w.phase = some .prelude ∧ w.preludeBusy = true) := by
  unfold ParamWork.programming
  cases phase : w.phase with
  | none => simp
  | some p => cases p <;> simp

/-- The entry of a commit that ends with outcome NONE or UNKNOWN (R57, R58). -/
theorem committed_doubtful {i : SlotId} {w : ParamWork} {e : NodeEntry} {doubt : Prop}
    [Decidable doubt] (outcome : w.outcome = if doubt then .unknown else .none) :
    committed i w e = { e with
      lock := if e.lock = some i then none else e.lock
      store := if doubt then .unknown else e.store } := by
  unfold committed
  rw [outcome]
  split <;> simp

theorem exec_budgetExpiry {s : State} {i : SlotId} {x : Slot} {w : ParamWork} {d : Word}
    (live : s.device ≠ .halted) (slot : s.slot i = some x) (work : x.work = .param w)
    (set : x.budgetAt = some d) (reached : (s.ms - d).toNat < 2 ^ 31) :
    exec (.budgetExpiry i) s = .next (afterLine x.line (budgetExpires i x w s)) := by
  show Host.Outcome.next (budgetEnds i s) = _
  unfold budgetEnds
  rw [slotDue_eq (deadline := fun x => x.budgetAt) live slot set reached]
  dsimp only
  rw [work]

/-- A commit that does not hold the line turns at its budget's end. -/
theorem budgetExpires_turns {s : State} {i : SlotId} {x y : Slot} {w : ParamWork}
    (off : x.state ≠ .onLine) (open_ : x.state ≠ .finishing)
    (hy : y = { x with budgetAt := none, pollAt := none }) :
    budgetExpires i x w s = budgetTurns i y w s := by
  unfold budgetExpires
  dsimp only
  rw [← hy]
  cases h : x.state with
  | onLine => exact absurd h off
  | finishing => exact absurd h open_
  | _ => rfl

/-! ## Slots that are not judged -/

/-- A slot that an event leaves neither WAITING nor READY stays as the event has left it. -/
theorem after_still {l : Line} {s t : State} {i : SlotId} {o : Option Slot} (after : After l s t)
    (slot : s.slot i = o) (still : ∀ y, o = some y → y.judged = false) : t.slot i = o := by
  obtain ⟨m, settled, served⟩ := after
  have same : t.slot i = m.slot i := by
    unfold State.slot
    rw [served.slots]
  rw [same]
  cases o with
  | none => exact settled.kept.free i slot
  | some y => exact settled.still i y slot (still y rfl)

theorem after_ended {l : Line} {s t : State} {i : SlotId} {x : Slot} {st : Status}
    {d : List Byte} (after : After l (ended i x st d s) t) :
    t.slot i = if RingTakes x s then some (finished i x st d) else none := by
  refine after_still after (ended_slot_self i x st d s) fun y e => ?_
  split at e
  · cases e
    rfl
  · cases e

/-- The end of an unstarted slot at its expiry deadline (R79). -/
theorem endSlot_expired {s : State} {i : SlotId} {x : Slot} (slot : s.slot i = some x)
    (unstarted : x.started = false)
    (lock : ∀ w, x.work = .param w → (s.entry x.line w.addr).lock ≠ some i) :
    ∃ v, ((∀ w, x.work ≠ .param w) → v = x.work) ∧
      endSlot i .expired false s = ended i { x with work := v } .expired [] s := by
  have zero : ∀ z : Slot, slotDetail s .expired z = [] := fun z => rfl
  by_cases commit : ∃ w, x.work = .param w
  · obtain ⟨w, work⟩ := commit
    refine ⟨.param { w with outcome := commitOutcome .expired false w },
      fun none => absurd work (none w), ?_⟩
    rw [endSlot_unstarted slot work unstarted rfl, zero]
    congr 1
    exact if_neg (lock w work)
  · have none := not_exists.1 commit
    refine ⟨x.work, fun _ => rfl, ?_⟩
    by_cases discovery : ∃ w, x.work = .discover w
    · obtain ⟨w, work⟩ := discovery
      rw [endSlot_discovery slot work, zero, work]
      rfl
    · rw [endSlot_direct slot none (not_exists.1 discovery), zero]

/-- The end of a commit by its budget, its deadlines being stopped with it. -/
theorem budget_decides {s : State} {i : SlotId} {x y : Slot} {w v : ParamWork} {st : Status}
    (started : x.started = true) (hy : y = { x with budgetAt := none, pollAt := none })
    (counted : st ≠ .expired ∧ st ≠ .nodeClash ∧ st ≠ .badRecord)
    (outcome : v = { w with outcome := commitOutcome st true w }) :
    decideSlot i y (.param w) st true s = ended i { x with work := .param v } st
      (paramDetail s.ms v)
      (s.setEntry x.line v.addr (committed i v (s.entry x.line v.addr))) := by
  rw [decideSlot_commit (l := x.line) (by rw [hy]) (by rw [hy]; exact started) outcome,
    slotDetail_started (s := s) rfl rfl (by rw [hy]; exact started) counted, hy]
  rfl

/-- Settles O45. -/
theorem slotDeadlinesExpire : Obligations.SlotDeadlinesExpire := by
  refine ⟨fun i s x d live slot reached => ⟨fun set => ?_, fun set paused => ?_⟩,
    fun i s x d live slot unstarted set reached lock => ?_,
    fun i s x w d live slot work set reached => ⟨fun onLine => ?_,
      fun off open_ started calm programming => ?_,
      fun off open_ started pending programming unverified => ?_,
      fun off open_ poll final prelude verified started => ?_⟩⟩
  · have run : exec (.deferExpiry i) s =
        .next (afterLine x.line (s.setSlot i (some { x with deferAt := none }))) := by
      show Host.Outcome.next (deferExpires i s) = _
      unfold deferExpires
      rw [slotDue_eq (deadline := fun x => x.deferAt) live slot set reached]
    have after := afterLine_after x.line (s.setSlot i (some { x with deferAt := none }))
    have stands := after_stands (x := x) (y := { x with deferAt := none }) steady_noDefer rfl rfl
      after
    refine ⟨_, run, after, stands.1, fun y hy => ⟨stands.2 y hy, fun waits => ?_⟩⟩
    obtain ⟨m, _, placed⟩ := after_placed (x := { x with deferAt := none })
      (slot_setSlot_self s i _) rfl after hy
    have holds : deferHolds y = true := applies_defer.1 <| by
      rcases placed.1 .defer waits with early | ⟨_, late⟩
      · exact (earlyReason_some early).1
      · exact (lateReason_some late).2.1
    unfold deferHolds at holds
    rw [stands.2 y hy] at holds
    simp at holds
  · have run : exec (.pollDeadlineExpiry i) s = .next (afterLine x.line
        (s.setSlot i (some { x with state := .ready, pollAt := none }))) := by
      show Host.Outcome.next (pollExpires i s) = _
      unfold pollExpires
      rw [slotDue_eq (deadline := fun x => x.pollAt) live slot set reached]
      dsimp only
      rw [if_pos paused]
    have after := afterLine_after x.line
      (s.setSlot i (some { x with state := .ready, pollAt := none }))
    exact ⟨_, run, after, after_stands (x := x)
      (y := { x with state := .ready, pollAt := none }) steady_noPoll ⟨rfl, by simp⟩ rfl after⟩
  · obtain ⟨v, plain, form⟩ := endSlot_expired slot unstarted lock
    have run : exec (.expireDeadlineExpiry i) s =
        .next (afterLine x.line (endSlot i .expired false s)) := by
      show Host.Outcome.next (expireExpires i s) = _
      unfold expireExpires
      rw [slotDue_eq (deadline := fun x => x.expireAt) live slot set reached]
      dsimp only
      rw [if_neg (by rw [unstarted]; exact Bool.false_ne_true)]
    rw [form] at run
    have after := afterLine_after x.line (ended i { x with work := v } .expired [] s)
    exact ⟨_, v, run, plain, after, after_ended after⟩
  · have run := exec_budgetExpiry live slot work set reached
    have form : budgetExpires i x w s = s.setSlot i (some { x with
        budgetAt := none, pollAt := none, work := .param { w with budgetPassed := true } }) := by
      unfold budgetExpires
      dsimp only
      rw [onLine]
    rw [form] at run
    have after := afterLine_after x.line (s.setSlot i (some { x with
      budgetAt := none, pollAt := none, work := .param { w with budgetPassed := true } }))
    refine ⟨_, run, after, after_still after (slot_setSlot_self s i _) fun y e => ?_⟩
    cases e
    unfold Slot.judged
    rw [onLine]
  · have run := exec_budgetExpiry live slot work set reached
    have form : budgetExpires i x w s = s.setSlot i (some { x with
        state := .ready, budgetAt := none, pollAt := none
        work := .param { w with finalFlag := true, phase := some .final } }) := by
      rw [budgetExpires_turns off open_ rfl]
      unfold budgetTurns
      rw [if_pos (programming_iff.2 programming), if_neg (by rw [calm]; exact Bool.false_ne_true)]
      rfl
    rw [form] at run
    have after := afterLine_after x.line (s.setSlot i (some { x with
        state := .ready, budgetAt := none, pollAt := none
        work := .param { w with finalFlag := true, phase := some .final } }))
    obtain ⟨present, stands⟩ := after_stands (x := x) (y := { x with
      state := .ready, budgetAt := none, pollAt := none
      work := .param { w with finalFlag := true, phase := some .final } }) steady_toFinal
      ⟨started, by simp, _, rfl, rfl, rfl⟩ rfl after
    exact ⟨_, run, after, present, fun y hy => (stands y hy).2⟩
  · have run := exec_budgetExpiry live slot work set reached
    have outcome : commitOutcome .aborted true { w with finalFlag := true } = .unknown := by
      rw [commitOutcome_kept (by simp)]
      exact outcomeOf_final unverified rfl rfl
    rw [budgetExpires_turns off open_ rfl] at run
    unfold budgetTurns at run
    rw [if_pos (programming_iff.2 programming), if_pos pending,
      budget_decides (w := { w with finalFlag := true }) (v := { w with
        finalFlag := true, outcome := .unknown }) started rfl (by simp) (by rw [outcome])] at run
    have entry : committed i { w with finalFlag := true, outcome := .unknown }
        (s.entry x.line w.addr) = { s.entry x.line w.addr with
          lock := if (s.entry x.line w.addr).lock = some i then none
            else (s.entry x.line w.addr).lock
          store := .unknown } := by
      unfold committed
      simp
    have after := afterLine_after x.line (ended i { x with work := .param { w with
      finalFlag := true, outcome := .unknown } } .aborted (paramDetail s.ms { w with
      finalFlag := true, outcome := .unknown }) (s.setEntry x.line w.addr (committed i { w with
      finalFlag := true, outcome := .unknown } (s.entry x.line w.addr))))
    refine ⟨_, _, _, run, rfl, rfl, ?_, after_ended after⟩
    rw [← entry]
    exact after
  · have run := exec_budgetExpiry live slot work set reached
    have idle : ¬w.programming = true := by
      rw [programming_iff]
      rintro (h | h | ⟨h, busy⟩)
      · exact poll h
      · exact final h
      · rw [prelude h] at busy
        cases busy
    generalize hv : ({ w with outcome :=
      if w.unverified = true ∨ w.finalFlag = true then .unknown else .none } : ParamWork) = v
    have outcome : v = { w with outcome := commitOutcome .commitTimeout true w } := by
      rw [commitOutcome_narrow rfl, ← hv]
      unfold outcomeOf
      simp [verified]
    have addr : v.addr = w.addr := by rw [outcome]
    rw [budgetExpires_turns off open_ rfl] at run
    unfold budgetTurns at run
    rw [if_neg idle, budget_decides started rfl (by simp) outcome, addr] at run
    have entry := committed_doubtful (i := i) (e := s.entry x.line w.addr) (w := v)
      (doubt := w.unverified = true ∨ w.finalFlag = true) (by rw [← hv])
    have after := afterLine_after x.line (ended i { x with work := .param v } .commitTimeout
      (paramDetail s.ms v) (s.setEntry x.line w.addr (committed i v (s.entry x.line w.addr))))
    refine ⟨_, v, _, run, rfl, rfl, ?_, after_ended after⟩
    rw [← entry]
    exact after

end Sys2Proof.SlotDeadlines

/-! Fetches of work records: what the arrival of a record makes of its reserved slot, and what a fault
of a fetch makes of its ring. -/

namespace Sys2Proof.Fills

open Sys2Proof Sys2Proof.Machine Sys2Proof.Safety Sys2Proof.Laws Sys2Proof.NodeTable
  Sys2Proof.Registers Sys2Proof.Decoding Sys2Proof.RingFaults Sys2Proof.SlotEnds

/-! ## The fill -/

/-- The record of a fetch counts as fetched, and the fetch is over (R66). -/
def recordTaken (f : WorkFetch) (s : State) : State :=
  { s.setWorkRing f.ring { s.workRing f.ring with fetched := (s.workRing f.ring).fetched + 1 } with
    workFetch := none, fetchSeq := s.fetchSeq + 1 }

@[simp] theorem recordTaken_slot (f : WorkFetch) (s : State) (i : SlotId) :
    (recordTaken f s).slot i = s.slot i := rfl

@[simp] theorem recordTaken_resultRing (f : WorkFetch) (s : State) (q : ResultRingId) :
    (recordTaken f s).resultRing q = s.resultRing q := rfl

theorem recordTaken_workRing (f : WorkFetch) (s : State) : (recordTaken f s).workRing f.ring =
    { s.workRing f.ring with fetched := (s.workRing f.ring).fetched + 1 } :=
  workRing_setWorkRing_self s f.ring _

/-- The end of a slot at its fill: BAD_RECORD for a record that fails its checks, an abort on a
DRAINING ring or after a STOP (R66, R67). -/
def fillEnd (k : WorkKind) (f : WorkFetch) (r : Record) (s m : State) : State :=
  if (decodeWork k r).isNone then endSlot f.slot .badRecord false m
  else if abortedAtFill s f then abortSlot f.slot m
  else m

theorem takeWork_eq {s : State} {f : WorkFetch} (live : s.device ≠ .halted)
    (fetch : s.workFetch = some f) (k : WorkKind) (r : Record) {x : Slot}
    (hx : x = filledSlot s f.ring r (decodeWork k r)) :
    takeWork k r s = afterLine x.line
      (fillEnd k f r s ((recordTaken f s).setSlot f.slot (some x))) := by
  have ring : ({ s with workFetch := none } : State).setWorkRing f.ring
      { s.workRing f.ring with fetched := (s.workRing f.ring).fetched + 1 } =
      { recordTaken f s with fetchSeq := s.fetchSeq } := rfl
  have slot : filledSlot { recordTaken f s with fetchSeq := s.fetchSeq } f.ring r (decodeWork k r)
      = x := by
    have read : ({ recordTaken f s with fetchSeq := s.fetchSeq } : State).workRing f.ring = _ :=
      recordTaken_workRing f s
    unfold filledSlot
    rw [hx, read]
    rfl
  have abort : abortedAtFill { recordTaken f s with fetchSeq := s.fetchSeq } f =
      abortedAtFill s f := by
    have read : ({ recordTaken f s with fetchSeq := s.fetchSeq } : State).workRing f.ring = _ :=
      recordTaken_workRing f s
    unfold abortedAtFill
    rw [read]
    rfl
  have serving : ({ s with workFetch := none } : State).live = true := live_of_ne live
  unfold takeWork
  rw [fetch]
  dsimp only
  rw [if_pos serving]
  show fillSlot k f r (({ s with workFetch := none } : State).setWorkRing f.ring
    { s.workRing f.ring with fetched := (s.workRing f.ring).fetched + 1 }) = _
  rw [ring]
  unfold fillSlot
  dsimp only
  rw [slot, abort]
  rfl

theorem exec_takes {k : WorkKind} {c : Instr} {r : Record}
    (h : (k, c) ∈ [(WorkKind.call, Instr.call r), (.sweep, .sweep r), (.param, .paramWrite r),
      (.discover, .discover r), (.unknown, .unknownWorkKind r)]) (s : State) :
    exec c s = .next (takeWork k r s) := by
  simp only [List.mem_cons, Prod.mk.injEq, List.not_mem_nil, or_false] at h
  rcases h with ⟨rfl, rfl⟩ | ⟨rfl, rfl⟩ | ⟨rfl, rfl⟩ | ⟨rfl, rfl⟩ | ⟨rfl, rfl⟩ <;> rfl

theorem abortedAtFill_iff {s : State} {f : WorkFetch} : abortedAtFill s f = true ↔
    s.device ≠ .running ∨ f.stopped = true ∨ (s.workRing f.ring).state = .draining := by
  unfold abortedAtFill
  simp only [Bool.or_eq_true, beq_iff_eq, bne_iff_ne, ne_eq]
  tauto

/-! ## A slot aborted at its fill -/

theorem abortSlot_ends {s : State} {i : SlotId} {x : Slot} (h : s.slot i = some x)
    (open_ : x.state ≠ .finishing) (free : x.abortWaits = false) :
    abortSlot i s = endSlot i .aborted false s := by
  unfold abortSlot
  rw [h]
  dsimp only
  rw [if_neg open_, if_neg (by rw [free]; exact Bool.false_ne_true)]

/-- Work as a record gives it: no step has been made. -/
structure Fresh (work : Work) : Prop where
  commit : ∀ w, work = .param w → w.outcome = .none ∧ w.verified = false ∧ w.mismatch = false ∧
    w.unverified = false ∧ w.finalFlag = false
  discovery : ∀ w, work = .discover w → w.rounds = 0 ∧ w.assigned = 0 ∧ w.lost = 0 ∧
    w.cleanTotal = 0 ∧ w.collidedTotal = 0 ∧ w.roundCollided = 0

theorem fresh_plain {work : Work} (commit : ∀ w, work ≠ .param w)
    (discovery : ∀ w, work ≠ .discover w) : Fresh work :=
  ⟨fun w e => absurd e (commit w), fun w e => absurd e (discovery w)⟩

theorem decodeWork_fresh {k : WorkKind} {r : Record} {retry : Option Nat} {work : Work}
    (h : decodeWork k r = some (retry, work)) : Fresh work := by
  have kind := (decodeWork_fields h).2
  cases k with
  | call =>
    obtain ⟨w, rfl, -⟩ := decodeCall_fields kind
    exact fresh_plain (fun _ => nofun) (fun _ => nofun)
  | sweep =>
    obtain rfl := decodeSweep_fields kind
    exact fresh_plain (fun _ => nofun) (fun _ => nofun)
  | param =>
    obtain ⟨a, data, -, -, rfl⟩ := decodeParam_fields kind
    exact ⟨fun w e => by cases e; exact ⟨rfl, rfl, rfl, rfl, rfl⟩, fun _ => nofun⟩
  | discover =>
    obtain ⟨a, b, -, -, rfl⟩ := decodeDiscover_fields kind
    exact ⟨fun _ => nofun, fun w e => by cases e; exact ⟨rfl, rfl, rfl, rfl, rfl, rfl⟩⟩
  | unknown => exact absurd kind (by simp [decodeKind])

theorem filledWork_fresh {s : State} {l : Line} {work : Work} (h : Fresh work) :
    Fresh (filledWork s l work) := by
  cases work with
  | sweep w => exact fresh_plain (fun _ => nofun) (fun _ => nofun)
  | _ => exact h

/-- A discovery's end reason at an abort (R140). -/
def abortedWork : Work → Work
  | .discover w => .discover { w with endReason := .aborted }
  | w => w

/-- The detail of a slot that is aborted at its fill (R97, R102, R126, R143). -/
def abortedDetail : Work → List Byte
  | .discover _ => [4, 0, 0, 0, 0, 0, 0]
  | _ => []

/-- The end of a slot releases the lock that it holds at the entry of its commit. -/
def lockReleased (i : SlotId) (x : Slot) (s : State) (n : State) : State :=
  match x.work with
  | .param w => n.setEntry x.line w.addr { s.entry x.line w.addr with
      lock := if (s.entry x.line w.addr).lock = some i then none else (s.entry x.line w.addr).lock }
  | _ => n

theorem lockReleased_congr {s m : State} (entry : m.entry = s.entry) (i : SlotId) (x : Slot)
    (n : State) : lockReleased i x m n = lockReleased i x s n := by
  unfold lockReleased
  rw [entry]

theorem ended_setEntry (i : SlotId) (x : Slot) (st : Status) (d : List Byte) (s : State) (l : Line)
    (a : Addr) (e : NodeEntry) :
    ended i x st d (s.setEntry l a e) = (ended i x st d s).setEntry l a e := by
  unfold ended
  split
  · next takes =>
    rw [if_pos (show RingTakes x s from takes)]
    cases l <;> rfl
  · next takes =>
    rw [if_neg (show ¬RingTakes x s from takes)]
    cases l <;> rfl

/-- The abort of a slot that has made no step. -/
theorem endSlot_fresh {s : State} {i : SlotId} {x : Slot} (h : s.slot i = some x)
    (unstarted : x.started = false) (fresh : Fresh x.work) :
    endSlot i .aborted false s = lockReleased i x s
      (ended i { x with work := abortedWork x.work } .aborted (abortedDetail x.work) s) := by
  have zero : ∀ z : Slot, z.started = false → (∀ w, z.work ≠ .discover w) →
      slotDetail s .aborted z = [] := fun z off other => by
    unfold slotDetail zeroDetail
    cases work : z.work with
    | discover w => exact absurd work (other w)
    | unknown => rfl
    | _ => rw [off]; rfl
  unfold lockReleased
  cases work : x.work with
  | param w =>
    obtain ⟨none, verified, mismatch, unverified, final⟩ := fresh.commit w work
    have keeps : commitOutcome .aborted false w = w.outcome := by
      unfold commitOutcome
      rw [verified, mismatch, unverified, final, none, if_neg Bool.false_ne_true, if_neg (by simp),
        if_neg (by simp)]
    have outcome : w = { w with outcome := commitOutcome .aborted false w } := by rw [keeps]
    rw [endSlot_unstarted h work unstarted outcome,
      zero { x with work := .param w } unstarted (fun _ => nofun), releaseLock_eq, ended_setEntry]
    rfl
  | discover w =>
    obtain ⟨rounds, assigned, lost, clean, collided, round⟩ := fresh.discovery w work
    rw [endSlot_discovery h work]
    have detail : slotDetail s .aborted { x with work := .discover (w.endedBy .aborted) } =
        [4, 0, 0, 0, 0, 0, 0] := by
      show discoverDetail (w.endedBy .aborted) = _
      unfold discoverDetail DiscoverWork.endedBy
      simp only [rounds, assigned, lost, clean, collided, round]
      rfl
    rw [detail]
    rfl
  | _ =>
    rw [endSlot_direct h (by simp [work]) (by simp [work]), zero x unstarted (by simp [work])]
    simp only [abortedWork, abortedDetail, ← work]

/-! ## The faults of fetches -/

theorem faultWorkRing_other {r : WorkRingId} (h : r ≠ 0) (reason : FaultReason) {s m : State}
    (hm : m = s.setWorkRing r { s.workRing r with state := .faulted }) :
    faultWorkRing r reason s = createNotice none (.ringFault (.work r) reason 0) m := by
  rw [hm]
  exact if_neg h

theorem faultWorkRing_zero (reason : FaultReason) {s m : State}
    (hm : m = s.setWorkRing 0 { s.workRing 0 with state := .faulted }) : HaltedBy .adminFault
      (createNotice none (.ringFault (.work 0) reason 0) m) (faultWorkRing 0 reason s) := by
  rw [hm]
  exact haltDevice_haltedBy _ _

theorem workFetchFault_eq {s : State} {f : WorkFetch} (live : s.device ≠ .halted)
    (fetch : s.workFetch = some f) : workFetchFault s = serviceRings
      (if (s.workRing f.ring).state = .active ∨ (s.workRing f.ring).state = .held then
        faultWorkRing f.ring .fetchFault { s with workFetch := none }
      else { s with workFetch := none }) := by
  have serving : ({ s with workFetch := none } : State).live = true := live_of_ne live
  have same : ({ s with workFetch := none } : State).workRing f.ring = s.workRing f.ring := rfl
  unfold workFetchFault
  rw [fetch]
  dsimp only
  rw [if_pos serving, same]
  cases (s.workRing f.ring).state <;> simp

theorem adminFetchFault_eq {s : State} (live : s.device ≠ .halted)
    (fetch : s.adminFetch.isSome = true) : adminFetchFault s =
      if (s.workRing 0).state = .active ∨ (s.workRing 0).state = .held then
        faultWorkRing 0 .fetchFault { s with adminFetch := none }
      else { s with adminFetch := none } := by
  obtain ⟨f, hf⟩ := Option.isSome_iff_exists.1 fetch
  have serving : ({ s with adminFetch := none } : State).live = true := live_of_ne live
  have same : ({ s with adminFetch := none } : State).workRing 0 = s.workRing 0 := rfl
  unfold adminFetchFault
  rw [hf]
  dsimp only
  rw [if_pos serving, same]
  cases (s.workRing 0).state <;> simp

/-- A FAULTED ring stays FAULTED when the rings are served. -/
theorem serviced_faulted {s t : State} (h : Serviced s t) (live : s.device ≠ .halted) {r : WorkRingId}
    (other : r ≠ 0) (faulted : (s.workRing r).state = .faulted) :
    (t.workRing r).state = .faulted := by
  rw [h.work live r other]
  dsimp only
  rw [faulted]

/-! ## The obligations -/

/-- Settles O14. -/
theorem fetchesFillTheSlotOrFaultTheRing : Obligations.FetchesFillTheSlotOrFaultTheRing := by
  refine ⟨fun r k c kind s f retry work x m live fetch decoded hx hm => ?_,
    fun s f live fetch other => ?_, fun s live fetch => ?_⟩
  · have known : (k, c) ∈ [(WorkKind.call, Instr.call r), (.sweep, .sweep r), (.param, .paramWrite r),
        (.discover, .discover r), (.unknown, .unknownWorkKind r)] := by
      simp only [List.mem_cons, List.not_mem_nil, or_false] at kind ⊢
      tauto
    have slot : x = filledSlot s f.ring r (decodeWork k r) := by
      rw [hx, decoded]
      unfold filledSlot filledWork
      cases work <;> rfl
    have run := (exec_takes known s).trans
      (congrArg Host.Outcome.next (takeWork_eq live fetch k r slot))
    have taken : m = recordTaken f s := hm
    unfold fillEnd at run
    rw [decoded, ← taken] at run
    dsimp only [Option.isNone] at run
    rw [if_neg Bool.false_ne_true] at run
    refine ⟨fun running calm open_ => ?_, fun abort => ?_⟩
    · rw [if_neg (fun e => by have := abortedAtFill_iff.1 e; simp_all)] at run
      exact ⟨_, run, afterLine_after _ _⟩
    · rw [if_pos (abortedAtFill_iff.2 abort)] at run
      have unstarted : x.started = false := by rw [hx]
      have waiting : x.state = .waiting .defer := by rw [hx]
      have fresh : Fresh x.work := by
        rw [slot, decoded]
        exact filledWork_fresh (decodeWork_fresh decoded)
      have free : x.abortWaits = false := by
        unfold Slot.abortWaits
        rw [waiting, unstarted]
        cases x.work <;> rfl
      have held : (m.setSlot f.slot (some x)).slot f.slot = some x := slot_setSlot_self _ _ _
      have entry : (m.setSlot f.slot (some x)).entry = s.entry := by
        rw [taken]
        rfl
      rw [abortSlot_ends held (by rw [waiting]; exact nofun) free, endSlot_fresh held unstarted fresh,
        ended_setSlot] at run
      rw [lockReleased_congr (s := s) entry] at run
      unfold lockReleased at run
      cases work : x.work <;> rw [work] at run <;> exact ⟨_, _, run, rfl, afterLine_after _ _⟩
  · have run : exec (.fetchFault .slotTable) s = .next _ :=
      congrArg Host.Outcome.next (workFetchFault_eq live fetch)
    split
    · next opened =>
      generalize hm : ({ s.setWorkRing f.ring { s.workRing f.ring with state := .faulted } with
        workFetch := none } : State) = m
      rw [if_pos opened, faultWorkRing_other (m := m) other _ hm.symm] at run
      have rest := createNotice_rest none (.ringFault (.work f.ring) .fetchFault 0) m
      generalize createNotice none (.ringFault (.work f.ring) .fetchFault 0) m = n at rest run ⊢
      have device : n.device = s.device := (congrArg State.device (rest.trans hm.symm) :)
      have faulted : (n.workRing f.ring).state = .faulted :=
        (congrArg (fun v : State => (v.workRing f.ring).state) (rest.trans hm.symm) :).trans
          (congrArg WorkRing.state (workRing_setWorkRing_self s f.ring _) :)
      exact ⟨_, run, serviceRings_serviced n,
        serviced_faulted (serviceRings_serviced n) (device ▸ live) other faulted⟩
    · next closed =>
      rw [if_neg closed] at run
      exact ⟨_, run, serviceRings_serviced _⟩
  · have run : exec (.fetchFault .adminUnit) s = .next _ :=
      congrArg Host.Outcome.next (adminFetchFault_eq live fetch)
    split
    · next opened =>
      rw [if_pos opened] at run
      exact ⟨_, run, faultWorkRing_zero _ rfl⟩
    · next closed =>
      rw [if_neg closed] at run
      exact run

/-- Settles O16. -/
theorem invalidRecordEndsBadRecord : Obligations.InvalidRecordEndsBadRecord := by
  intro r k c kind s f live fetch failed
  generalize hx : filledSlot s f.ring r (decodeWork k r) = x
  have unknown : x.work = .unknown := by
    rw [← hx, failed]
    rfl
  have ring : x.ring = f.ring := by rw [← hx]; rfl
  have run := (exec_takes kind s).trans
    (congrArg Host.Outcome.next (takeWork_eq live fetch k r hx.symm))
  have held : ((recordTaken f s).setSlot f.slot (some x)).slot f.slot = some x :=
    slot_setSlot_self _ _ _
  unfold fillEnd at run
  rw [failed, if_pos Option.isNone_none, endSlot_direct held (by simp [unknown]) (by simp [unknown]),
    ended_setSlot] at run
  have line : x.line = (s.workRing f.ring).line := by rw [← hx]; rfl
  have record : resultOf f.slot x .badRecord [] =
      { sender := .slot f.slot, code := r[0], status := .badRecord, ring := f.ring,
        tag := join32 r[7] r[6] r[5] r[4], detail := [] } := by
    rw [← hx]
    rfl
  have bound : ((recordTaken f s).workRing x.ring).bound = (s.workRing f.ring).bound := by
    rw [ring, recordTaken_workRing]
  have takes : RingTakes x (recordTaken f s) ↔
      (s.resultRing (s.workRing f.ring).bound).out.state = .active := by
    unfold RingTakes
    rw [bound]
    rfl
  rw [line] at run
  refine ⟨_, _, _, run, afterLine_after _ _, rfl, ?_, ?_, ?_, ?_, ?_, ?_, ?_, ?_⟩
  · unfold ended
    split <;> exact congrArg WorkRing.fetched (recordTaken_workRing f s)
  · unfold ended
    split <;> rfl
  · unfold ended
    split <;> rfl
  · rw [ended_lines]; rfl
  · rw [ended_nodes]; rfl
  · rw [ended_buffer]; rfl
  · exact fun i ne => ended_slot_ne f.slot x .badRecord _ (recordTaken f s) ne
  · have decided := ended_decided f.slot x .badRecord [] (recordTaken f s) (n := recordTaken f s)
      rfl rfl
    split
    · next active =>
      obtain ⟨slot, pending, -⟩ := decided.taken (takes.2 active)
      rw [bound, record] at pending
      exact ⟨pending, _, slot, rfl, congrArg some record, unknown⟩
    · next closed =>
      obtain ⟨slot, -, lost⟩ := decided.lost (mt takes.1 closed)
      rw [bound] at lost
      exact ⟨slot, lost⟩

end Sys2Proof.Fills

/-! Frames: the bytes of a call frame, and the frames that are read back as replies and notices. -/

namespace Sys2Proof.Frames

open Sys2Proof Sys2Proof.Machine Sys2Proof.Decoding

/-! ## The check -/

theorem crcShift_eq (v : Byte) :
    crcShift v = if v.getLsbD 7 = true then (v <<< 1) ^^^ 0x4D else v <<< 1 := by
  unfold crcShift
  rw [BitVec.msb_eq_getLsbD_last]

theorem frameCheck_append (bytes : List Byte) (b : Byte) :
    frameCheck (bytes ++ [b]) = crcByte (frameCheck bytes) b := by
  unfold frameCheck
  rw [List.foldl_append]
  rfl

/-- A frame body with its check (R8). -/
def checked (body : List Byte) : List Byte := body ++ [frameCheck body]

theorem checked_length (body : List Byte) : (checked body).length = body.length + 1 := by
  unfold checked
  rw [List.length_append, List.length_singleton]

theorem checked_dropLast (body : List Byte) : (checked body).dropLast = body :=
  List.dropLast_concat

theorem checkPasses_checked (body : List Byte) : checkPasses (checked body) = true := by
  unfold checkPasses checked
  rw [List.getLast?_concat, List.dropLast_concat]
  exact beq_self_eq_true _

theorem checkPasses_iff {frame : List Byte} :
    checkPasses frame = true ↔ ∃ body, frame = checked body := by
  refine ⟨fun passes => ?_, fun ⟨body, form⟩ => form ▸ checkPasses_checked body⟩
  unfold checkPasses at passes
  cases last : frame.getLast? with
  | none =>
    rw [last] at passes
    cases passes
  | some c =>
    rw [last] at passes
    refine ⟨frame.dropLast, ?_⟩
    unfold checked
    rw [beq_iff_eq.1 passes]
    exact (List.dropLast_append_getLast? c last).symm

/-! ## The bytes of the fields -/

/-- The second byte of a call frame: the reply flag above the verb (R211). -/
theorem flagged_verb (reply : Bool) (verb : BitVec 6) :
    flagBit reply 7 ||| verb.setWidth 8 = (if reply = true then 0x80 else 0) + verb.setWidth 8 := by
  revert reply verb
  decide

/-- The second byte of a reply frame: the notice-pending flag, four bits of 0 and the status (R211). -/
theorem replySecond_iff : ∀ (second : Byte) (st : ReplyStatus) (pending : Bool),
    second &&& 0x78 = 0 ∧ replyStatusOf (second &&& 0x07) = some st ∧ second.msb = pending ↔
      second = (if pending = true then 0x80 else 0) + replyStatusCode st := by
  intro second st pending
  have all : ∀ second : Byte, ∀ pending : Bool,
      (second &&& 0x78 = 0 ∧ replyStatusOf (second &&& 0x07) = some st ∧ second.msb = pending ↔
        second = (if pending = true then 0x80 else 0) + replyStatusCode st) := by
    cases st <;> decide +kernel
  exact all second pending

/-- A byte whose high three bits are 0 is the byte of its low five. -/
theorem kindByte_iff {b : Byte} {kind : BitVec 5} :
    b &&& 0xE0 = 0 ∧ b.setWidth 5 = kind ↔ b = kind.setWidth 8 := by
  have low : b &&& 0xE0 = 0 ↔ b.toNat < 32 := by
    revert b
    decide +kernel
  rw [low]
  bv_omega

/-- A byte whose high four bits are 0 is the byte of its low four. -/
theorem seqByte_iff {b : Byte} {seq : BitVec 4} :
    b &&& 0xF0 = 0 ∧ b.setWidth 4 = seq ↔ b = seq.setWidth 8 := by
  have low : b &&& 0xF0 = 0 ↔ b.toNat < 16 := by
    revert b
    decide +kernel
  rw [low]
  bv_omega

theorem addrOf_iff {b : Byte} {a : Addr} : addrOf b = some a ↔ b = byteOf (a.val + 1) := by
  rw [addrOf_eq_some_iff]
  have := a.isLt
  unfold byteOf
  bv_omega

theorem expectedResponder_iff (c : Call) (responder : Byte) :
    expectedResponder c = some responder ↔
      (match c.target with
        | .node a => responder = byteOf (a.val + 1)
        | .unaddressed => (c.verb = 4 ∧ responder = 0) ∨
            (c.verb = 1 ∧ c.args.getLast? = some responder)
        | _ => False) := by
  unfold expectedResponder
  cases c.target with
  | node a => exact Option.some_inj.trans eq_comm
  | unaddressed =>
    show (if c.verb = verbPick then some 0 else if c.verb = verbAssign then c.args.getLast?
        else none) = some responder ↔
      (c.verb = verbPick ∧ responder = 0) ∨ (c.verb = verbAssign ∧ c.args.getLast? = some responder)
    have apart : verbPick ≠ verbAssign := by decide
    split
    · next pick =>
      simp only [pick, apart, true_and, false_and, or_false, Option.some.injEq]
      exact eq_comm
    · next other =>
      split
      · next assign => simp [assign, apart.symm]
      · next none => simp [other, none]
  | zone z => simp
  | all => simp

/-! ## Frames read back -/

theorem judgeReply_checked (c : Call) (body : List Byte) (r : Reply) :
    judgeReply c (checked body) = some r ↔ r.data.length ≤ 8 ∧ ∃ responder,
      expectedResponder c = some responder ∧
      body = responder ::
        ((if r.noticePending = true then 0x80 else 0) + replyStatusCode r.status) :: r.data := by
  obtain ⟨st, pending, data⟩ := r
  unfold judgeReply
  rw [checked_length, checked_dropLast]
  simp only [checkPasses_checked, and_true]
  match body with
  | [] => simp
  | [_] => simp
  | responder :: second :: rest =>
    simp only [Option.ite_none_right_eq_some, List.length_cons, Option.map_eq_some_iff,
      Reply.mk.injEq, List.cons.injEq]
    constructor
    · rintro ⟨size, ⟨expected, zero⟩, _, code, rfl, flag, rfl⟩
      exact ⟨by omega, responder, expected, rfl, (replySecond_iff _ _ _).1 ⟨zero, code, flag⟩, rfl⟩
    · rintro ⟨size, _, expected, rfl, form, rfl⟩
      obtain ⟨zero, code, flag⟩ := (replySecond_iff _ _ _).2 form
      exact ⟨by omega, ⟨expected, zero⟩, st, code, rfl, flag, rfl⟩

theorem judgeNotice_checked (body : List Byte) (n : NodeNotice) :
    judgeNotice (checked body) = some n ↔ n.arg.length ≤ 3 ∧
      body = byteOf (n.source.val + 1) :: n.kind.setWidth 8 :: n.seq.setWidth 8 :: n.arg := by
  obtain ⟨source, kind, seq, arg⟩ := n
  unfold judgeNotice
  rw [checked_length, checked_dropLast]
  simp only [checkPasses_checked, and_true]
  match body with
  | [] => simp
  | [_] => simp
  | [_, _] => simp
  | b₀ :: b₁ :: b₂ :: rest =>
    simp only [Option.ite_none_right_eq_some, List.length_cons, Option.map_eq_some_iff,
      NodeNotice.mk.injEq, List.cons.injEq]
    constructor
    · rintro ⟨size, ⟨high, top⟩, a, address, rfl, low, rest', rfl⟩
      exact ⟨by omega, addrOf_iff.1 address, kindByte_iff.1 ⟨high, low⟩, seqByte_iff.1 ⟨top, rest'⟩,
        rfl⟩
    · rintro ⟨size, address, form₁, form₂, rfl⟩
      obtain ⟨high, low⟩ := kindByte_iff.2 form₁
      obtain ⟨top, rest'⟩ := seqByte_iff.2 form₂
      exact ⟨by omega, ⟨high, top⟩, source, addrOf_iff.2 address, rfl, low, rest', rfl⟩

theorem judgeReply_checks {c : Call} {frame : List Byte} {r : Reply}
    (h : judgeReply c frame = some r) : ∃ body, frame = checked body := by
  unfold judgeReply at h
  split at h
  · next range => exact checkPasses_iff.1 range.2.2
  · cases h

theorem judgeNotice_checks {frame : List Byte} {n : NodeNotice}
    (h : judgeNotice frame = some n) : ∃ body, frame = checked body := by
  unfold judgeNotice at h
  split at h
  · next range => exact checkPasses_iff.1 range.2.2
  · cases h

/-- Settles O52. -/
theorem framesReadBackAsTheirFields : Obligations.FramesReadBackAsTheirFields := by
  refine ⟨⟨rfl, fun bytes b shift law => ?_⟩, fun c body form => ?_,
    fun c frame st pending data => ?_, fun frame n => ?_⟩
  · have same : shift = crcShift := funext fun v => (law v).trans (crcShift_eq v).symm
    rw [same]
    exact frameCheck_append bytes b
  · have frame : callFrame c = checked body := by
      rw [form, ← flagged_verb]
      unfold callFrame targetByte
      cases c.target <;> rfl
    rw [frame]
    exact ⟨rfl, checkPasses_checked body⟩
  · constructor
    · intro judged
      obtain ⟨body, rfl⟩ := judgeReply_checks judged
      obtain ⟨size, responder, expected, form⟩ := (judgeReply_checked c body _).1 judged
      exact ⟨size, responder, body, (expectedResponder_iff c responder).1 expected, form, rfl⟩
    · rintro ⟨size, responder, body, expected, form, rfl⟩
      exact (judgeReply_checked c body _).2
        ⟨size, responder, (expectedResponder_iff c responder).2 expected, form⟩
  · constructor
    · intro judged
      obtain ⟨body, rfl⟩ := judgeNotice_checks judged
      obtain ⟨size, form⟩ := (judgeNotice_checked body n).1 judged
      exact ⟨size, body, form, rfl⟩
    · rintro ⟨size, body, form, rfl⟩
      exact (judgeNotice_checked body n).2 ⟨size, form⟩

end Sys2Proof.Frames

/-! Grants: what the arbiter makes of a free line, by the candidate that comes first. -/

namespace Sys2Proof.Grants

open Sys2Proof Sys2Proof.Machine Sys2Proof.Safety Sys2Proof.Laws Sys2Proof.FieldLines

theorem serving_iff (s : State) : s.serving = true ↔
    s.device ∈ [DeviceState.running, .stopping, .stopped] := by
  unfold State.serving
  cases s.device <;> simp

theorem headQualifies_iff (s : State) (l : Line) : headQualifies s l = true ↔
    s.device = .running ∧ ∃ c rest, s.queue l = c :: rest ∧
      ∀ a, inTarget s l c.target a = true → (s.entry l a).lock = none := by
  unfold headQualifies
  rw [Bool.and_eq_true, beq_iff_eq]
  refine and_congr_right fun _ => ?_
  cases s.queue l with
  | nil => simp
  | cons c rest =>
    simp only [allAddrs, List.all_eq_true, List.mem_finRange, forall_const, Bool.or_eq_true,
      Bool.not_eq_true', Option.isNone_iff_eq_none]
    constructor
    · intro all
      exact ⟨c, rest, rfl, fun a inside => (all a).resolve_left (by rw [inside]; nofun)⟩
    · rintro ⟨_, _, form, all⟩ a
      cases form
      cases inside : inTarget s l c.target a with
      | false => exact .inl rfl
      | true => exact .inr (all a inside)

theorem listenWanted_iff (s : State) (l : Line) : listenWanted s l = true ↔
    s.device = .running ∧ ((s.engine l).series ≠ none ∨ (s.engine l).listenDue = true) := by
  unfold listenWanted
  rw [Bool.and_eq_true, beq_iff_eq, Bool.or_eq_true, Option.isSome_iff_ne_none]

theorem arbiter_idle {l : Line} {s : State}
    (h : s.device ∈ [DeviceState.reset, .starting, .halted] ∨ (s.engine l).state ≠ .idle ∨
      (s.engine l).holder ≠ .none ∨ (s.engine l).quiet = false) : arbiter l s = s := by
  unfold arbiter
  refine if_neg ?_
  rw [serving_iff, lineFree_iff]
  rintro ⟨serving, idle, free, quiet⟩
  rcases h with off | busy | held | early
  · revert serving off
    cases s.device <;> simp
  · exact busy idle
  · exact held free
  · rw [quiet] at early
    cases early

/-- The arbiter on a free line. -/
theorem arbiter_free {l : Line} {s : State} (serving : s.serving = true)
    (free : lineFree s l = true) : arbiter l s =
      if headQualifies s l then grantReflex l s
      else if listenWanted s l then grantListen l s
      else match chooseSlot s l with
        | some (i, x) => grantSlot i x s
        | none => s := by
  unfold arbiter
  exact (if_pos ⟨serving, free⟩).trans rfl

theorem grantReflex_eq {l : Line} {s : State} (quiet : (s.engine l).quiet = true) {c : QueuedCall}
    {rest : List QueuedCall} (queue : s.queue l = c :: rest) : grantReflex l s =
      granted l .reflex { target := c.target, verb := c.verb, reply := false, args := c.args } 1 s := by
  unfold grantReflex
  rw [queue]
  exact grantStep_quiet quiet _ _ _

theorem grantListen_eq {l : Line} {s : State} (quiet : (s.engine l).quiet = true) : grantListen l s =
    granted l .series { target := .all, verb := 8, reply := false, args := [] } 0
      (s.setEngine l (match (s.engine l).series with
        | some sr => { s.engine l with series := some { sr with window := sr.window + 1 } }
        | none => { s.engine l with
            listenDue := false, listenTimer := none
            series := some { window := 1, last := none, ack := none, stopping := false } })) := by
  refine Eq.trans ?_ (grantStep_quiet ?_ _ _ _)
  · unfold grantListen
    dsimp only
    cases (s.engine l).series <;> rfl
  · rw [engine_setEngine_self]
    cases (s.engine l).series <;> exact quiet

/-! ## The grant to a slot -/

section

variable {s : State} {i : SlotId} {x : Slot} {limit : Nat} {put : Work → Option Word → State}
  (quiet : (s.engine x.line).quiet = true) (hlimit : limit = x.retryLimit s)
  (hput : ∀ v b, put v b = s.setSlot i (some { x.atGrant v with budgetAt := b }))

include quiet hlimit hput

theorem grantSlot_call {w : CallWork} (work : x.work = .call w) : grantSlot i x s =
    granted x.line (.slot i) { target := w.target, verb := w.verb, reply := w.reply, args := w.args }
      limit (put (.call { w with
        busyLimit := if x.started = false ∧ w.reply = true then limit + 1 else w.busyLimit })
        x.budgetAt) := by
  have fixed : w.atGrant limit (!x.started) = { w with
      busyLimit := if x.started = false ∧ w.reply = true then limit + 1 else w.busyLimit } := by
    unfold CallWork.atGrant
    simp only [Bool.not_eq_true']
    split <;> rfl
  unfold grantSlot grantCall
  rw [work]
  dsimp only
  rw [← hlimit, fixed, hput]
  exact grantStep_quiet (s := s.setSlot i _) quiet _ _ _

theorem grantSlot_sweep {w : SweepWork} {a : Addr} (work : x.work = .sweep w)
    (step : w.step = some a) : grantSlot i x s =
      granted x.line (.slot i) { target := .node a, verb := 0, reply := true, args := [] } limit
        (put x.work x.budgetAt) := by
  unfold grantSlot grantSweep
  rw [hput, work]
  dsimp only
  rw [step, ← hlimit]
  exact grantStep_quiet (s := s.setSlot i _) quiet _ _ _

theorem grantSlot_goesOn {w : ParamWork} {p : Phase} (work : x.work = .param w)
    (started : x.started = true) (phase : w.phase = some p) : grantSlot i x s =
      granted x.line (.slot i) (phaseCall p w) limit (put x.work x.budgetAt) := by
  have same : w.atGrant s x = w := if_pos started
  unfold grantSlot grantCommit
  rw [hput, work]
  dsimp only
  rw [same, phase, ← hlimit]
  dsimp only [commitAtGrant]
  rw [if_pos started]
  exact grantStep_quiet (s := s.setSlot i _) quiet _ _ _

theorem grantSlot_first {w v : ParamWork} {p : Phase} (work : x.work = .param w)
    (unstarted : x.started = false) (hv : v = w.granted s.ms (s.entry x.line w.addr).store)
    (phase : v.phase = some p) : grantSlot i x s =
      granted x.line (.slot i) (phaseCall p v) limit
        ((put (.param v) (some (budgetDeadline s x v))).setEntry x.line v.addr
          { s.entry x.line v.addr with lock := some i }) := by
  have off : ¬x.started = true := by rw [unstarted]; exact Bool.false_ne_true
  have begun : w.atGrant s x = v := (if_neg off).trans hv.symm
  unfold grantSlot grantCommit
  rw [hput, work]
  dsimp only
  rw [begun, phase, ← hlimit]
  dsimp only [commitAtGrant]
  rw [if_neg off]
  refine (grantStep_quiet ?_ _ _ _).trans rfl
  exact quiet

omit hlimit in
theorem grantSlot_roll {w : DiscoverWork} (work : x.work = .discover w) (phase : w.phase = .roll) :
    grantSlot i x s = granted x.line (.slot i)
      { target := .unaddressed, verb := 3, reply := false
        args := be16 (Config.seed s.draws) ++ [byteOf w.positions] }
      (s.engine x.line).config.retryLimit
      { put (.discover (w.beginRound (Config.seed s.draws))) x.budgetAt with
        draws := s.draws + 1 } := by
  have drawn : discoverAtGrant w s =
      (w.beginRound (Config.seed s.draws), { s with draws := s.draws + 1 }) := by
    unfold discoverAtGrant
    rw [phase]
    rfl
  have call : (w.beginRound (Config.seed s.draws)).stepCall =
      some (rollCall (Config.seed s.draws) w.positions) := by
    unfold DiscoverWork.stepCall DiscoverWork.beginRound
    rw [phase]
    rfl
  have tries : ∀ n, (w.beginRound (Config.seed s.draws)).retryLimit n = n := fun n => by
    unfold DiscoverWork.retryLimit DiscoverWork.beginRound
    rw [phase]
  unfold grantSlot grantDiscover
  rw [hput, work]
  dsimp only
  rw [drawn]
  dsimp only
  rw [call, tries]
  exact grantStep_quiet (s := ({ s with draws := s.draws + 1 } : State).setSlot i _) quiet _ _ _

omit hlimit in
theorem grantSlot_discover {w : DiscoverWork} {c : Call} (work : x.work = .discover w)
    (phase : w.phase ≠ .roll) (call : w.stepCall = some c) : grantSlot i x s =
      granted x.line (.slot i) c (w.retryLimit (s.engine x.line).config.retryLimit)
        (put x.work x.budgetAt) := by
  have kept : discoverAtGrant w s = (w, s) := by
    unfold discoverAtGrant
    split
    · next roll => exact absurd roll phase
    all_goals rfl
  unfold grantSlot grantDiscover
  rw [hput, work]
  dsimp only
  rw [kept]
  dsimp only
  rw [call]
  exact grantStep_quiet (s := s.setSlot i _) quiet _ _ _

end

theorem granted_store (now : Word) (store : StoreState) (w : ParamWork) :
    w.granted now store = if store = .unknown then
      { w with firstGrant := some now, phase := some .prelude, preludeUsed := true }
    else { w with firstGrant := some now, phase := some .stage1 } := by
  cases store <;> rfl

theorem retryLimit_eq (x : Slot) (s : State) : x.retryLimit s =
    match x.retry with | some n => n | none => (s.engine x.line).config.retryLimit := by
  unfold Slot.retryLimit
  cases x.retry <;> rfl

/-- Settles O22. -/
theorem arbiterGrantsByItsOrder : Obligations.ArbiterGrantsByItsOrder := by
  refine ⟨fun l s => rfl, fun l s => arbiter_idle,
    fun l s head wanted serving idle free quiet hhead hwanted => ?_⟩
  have arbitrates := arbiter_free ((serving_iff s).2 serving) (lineFree_iff.2 ⟨idle, free, quiet⟩)
  rw [← headQualifies_iff] at hhead
  rw [← listenWanted_iff] at hwanted
  refine ⟨fun qualifies c rest queue => ?_, fun none want => ?_, fun none idle' => ?_⟩
  · rw [arbitrates, if_pos (hhead.1 qualifies)]
    exact grantReflex_eq quiet queue
  · rw [arbitrates, if_neg (mt hhead.2 none), if_pos (hwanted.1 want)]
    exact grantListen_eq quiet
  rw [if_neg (mt hhead.2 none), if_neg (mt hwanted.2 idle')] at arbitrates
  refine ⟨fun nobody => by rw [arbitrates, nobody], fun i x limit put chosen hlimit hput => ?_⟩
  obtain ⟨_, _, line⟩ := chooseSlot_ready chosen
  subst line
  rw [chosen] at arbitrates
  have tries : limit = x.retryLimit s := hlimit.trans (retryLimit_eq x s).symm
  refine ⟨fun w work => ?_, fun w a work step => ?_, fun w p work started phase => ?_,
    fun w work unstarted => ?_, fun w work => ⟨fun roll => ?_, fun pick => ?_,
      fun a check candidate => ?_, fun a c assign candidate current => ?_⟩⟩
  · exact arbitrates.trans (grantSlot_call quiet tries hput work)
  · exact arbitrates.trans (grantSlot_sweep quiet tries hput work step)
  · refine (arbitrates.trans (grantSlot_goesOn quiet tries hput work started phase)).trans ?_
    cases p <;> rfl
  · have first := grantSlot_first (w := w) (p := if (s.entry x.line w.addr).store = .unknown
      then .prelude else .stage1) quiet tries hput work unstarted rfl (by
        rw [granted_store]
        split <;> rfl)
    refine (arbitrates.trans first).trans ?_
    rw [granted_store]
    unfold budgetDeadline
    split <;> rfl
  · exact arbitrates.trans (grantSlot_roll quiet hput work roll)
  · have call : w.stepCall = some (pickCall w.nextPosition) := by
      unfold DiscoverWork.stepCall
      rw [pick]
    have once : w.retryLimit (s.engine x.line).config.retryLimit = 0 := by
      unfold DiscoverWork.retryLimit
      rw [pick]
    refine (arbitrates.trans (grantSlot_discover quiet hput work (by rw [pick]; nofun)
      call)).trans ?_
    rw [once]
    rfl
  · have call : w.stepCall = some (pingCall a) := by
      unfold DiscoverWork.stepCall
      rw [check, candidate]
    have limit' : w.retryLimit (s.engine x.line).config.retryLimit =
        (s.engine x.line).config.retryLimit := by
      unfold DiscoverWork.retryLimit
      rw [check]
    refine (arbitrates.trans (grantSlot_discover quiet hput work (by rw [check]; nofun)
      call)).trans ?_
    rw [limit']
    rfl
  · have call : w.stepCall = some (assignCall c.identity a) := by
      unfold DiscoverWork.stepCall
      rw [assign, candidate, current]
    have limit' : w.retryLimit (s.engine x.line).config.retryLimit =
        (s.engine x.line).config.retryLimit := by
      unfold DiscoverWork.retryLimit
      rw [assign]
    refine (arbitrates.trans (grantSlot_discover quiet hput work (by rw [assign]; nofun)
      call)).trans ?_
    rw [limit']
    rfl

end Sys2Proof.Grants

/-! Rounds over the slots: an abort, a cut and an entry to DOWN go through the slots in order, and leave,
change or end each of them by what it is. -/

namespace Sys2Proof.SlotRounds

open Sys2Proof Sys2Proof.Machine Sys2Proof.Safety Sys2Proof.Laws Sys2Proof.FieldLines
  Sys2Proof.SlotEnds Sys2Proof.Steps Sys2Proof.CallEnds Sys2Proof.CommitSteps Sys2Proof.Fills

/-! ## What results only add to -/

/-- Between two states results have been decided: nothing changes but slots, pending lists, lost counts,
and the entries of commits but for their states. -/
structure Grows (s m : State) : Prop where
  rest : { m with slots := s.slots, results := s.results, nodes := s.nodes } = s
  out : ∀ q, (m.resultRing q).out = (s.resultRing q).out
  pending : ∀ q, ∃ more, (m.resultRing q).pending = (s.resultRing q).pending ++ more
  lost : ∀ q, (s.resultRing q).lost ≤ (m.resultRing q).lost ∨ 65535 ≤ (m.resultRing q).lost
  state : ∀ l a, (m.entry l a).state = (s.entry l a).state

/-- Between two states results have been decided: they join pending lists or are counted lost. -/
structure Adds (s m : State) : Prop where
  pending : ∀ q, ∃ more, (m.resultRing q).pending = (s.resultRing q).pending ++ more
  lost : ∀ q, (s.resultRing q).lost ≤ (m.resultRing q).lost ∨ 65535 ≤ (m.resultRing q).lost

theorem Grows.adds {s m : State} (h : Grows s m) : Adds s m := ⟨h.pending, h.lost⟩

theorem Adds.trans {s n m : State} (h : Adds s n) (k : Adds n m) : Adds s m := by
  refine ⟨fun q => ?_, fun q => ?_⟩
  · obtain ⟨more, hmore⟩ := h.pending q
    obtain ⟨rest, hrest⟩ := k.pending q
    exact ⟨more ++ rest, by rw [hrest, hmore, List.append_assoc]⟩
  · have := h.lost q
    have := k.lost q
    omega

theorem adds_of_results {s m : State} (h : m.results = s.results) : Adds s m := by
  have same : ∀ q, m.resultRing q = s.resultRing q := fun q => by
    unfold State.resultRing
    rw [h]
  exact ⟨fun q => ⟨[], by rw [same, List.append_nil]⟩, fun q => .inl (by rw [same])⟩

namespace Grows

variable {s n m : State}

theorem refl (s : State) : Grows s s :=
  ⟨rfl, fun _ => rfl, fun _ => ⟨[], (List.append_nil _).symm⟩, fun _ => .inl le_rfl, fun _ _ => rfl⟩

theorem trans (h : Grows s n) (k : Grows n m) : Grows s m where
  rest := (congrArg (fun v : State =>
    { v with slots := s.slots, results := s.results, nodes := s.nodes }) k.rest :).trans h.rest
  out q := (k.out q).trans (h.out q)
  pending := (h.adds.trans k.adds).pending
  lost := (h.adds.trans k.adds).lost
  state l a := (k.state l a).trans (h.state l a)

theorem workRing (h : Grows s m) : m.workRing = s.workRing := by
  funext r
  exact (congrArg (fun v : State => v.workRing r) h.rest :)

theorem ms (h : Grows s m) : m.ms = s.ms := (congrArg State.ms h.rest :)

theorem lines (h : Grows s m) : m.lines = s.lines := (congrArg State.lines h.rest :)

theorem queues (h : Grows s m) : m.queues = s.queues := (congrArg State.queues h.rest :)

theorem buffer (h : Grows s m) : m.buffer = s.buffer := (congrArg State.buffer h.rest :)

theorem noticesLost (h : Grows s m) : m.lost = s.lost := (congrArg State.lost h.rest :)

theorem admin (h : Grows s m) : m.admin = s.admin := (congrArg State.admin h.rest :)

theorem device (h : Grows s m) : m.device = s.device := (congrArg State.device h.rest :)

theorem engine (h : Grows s m) (l : Line) : m.engine l = s.engine l := by
  simp only [State.engine, h.lines]

theorem queue (h : Grows s m) (l : Line) : m.queue l = s.queue l := by
  simp only [State.queue, h.queues]

theorem ringTakes (h : Grows s m) (x : Slot) : RingTakes x m ↔ RingTakes x s := by
  unfold RingTakes
  rw [h.workRing, h.out]

theorem setSlot (s : State) (i : SlotId) (y : Option Slot) : Grows s (s.setSlot i y) :=
  ⟨rfl, fun _ => rfl, fun _ => ⟨[], (List.append_nil _).symm⟩, fun _ => .inl le_rfl, fun _ _ => rfl⟩

theorem setEntry {l : Line} {a : Addr} {e : NodeEntry} (state : e.state = (s.entry l a).state) :
    Grows s (s.setEntry l a e) := by
  refine ⟨by cases l <;> rfl, fun _ => by cases l <;> rfl,
    fun _ => ⟨[], by rw [List.append_nil]; cases l <;> rfl⟩, fun _ => .inl (by cases l <;> exact le_rfl),
    fun k b => ?_⟩
  by_cases same : k = l ∧ b = a
  · obtain ⟨rfl, rfl⟩ := same
    rw [entry_setEntry_self, state]
  · rcases eq_or_ne k l with rfl | line
    · rw [entry_setEntry_ne _ _ _ fun e => same ⟨rfl, e⟩]
    · rw [entry_setEntry_other _ _ _ _ line]

theorem setResultRing {q : ResultRingId} {r : ResultRing} (out : r.out = (s.resultRing q).out)
    (pending : ∃ more, r.pending = (s.resultRing q).pending ++ more)
    (lost : (s.resultRing q).lost ≤ r.lost ∨ 65535 ≤ r.lost) : Grows s (s.setResultRing q r) := by
  refine ⟨rfl, fun p => ?_, fun p => ?_, fun p => ?_, fun _ _ => rfl⟩ <;>
    rcases eq_or_ne p q with rfl | other
  · rw [resultRing_setResultRing_self, out]
  · rw [resultRing_setResultRing_ne s r other]
  · rw [resultRing_setResultRing_self]
    exact pending
  · rw [resultRing_setResultRing_ne s r other]
    exact ⟨[], (List.append_nil _).symm⟩
  · rw [resultRing_setResultRing_self]
    exact lost
  · rw [resultRing_setResultRing_ne s r other]
    exact .inl le_rfl

end Grows

theorem grows_ended (i : SlotId) (x : Slot) (st : Status) (d : List Byte) (s : State) :
    Grows s (ended i x st d s) := by
  unfold ended
  split
  · exact (Grows.setSlot s i _).trans (Grows.setResultRing rfl ⟨_, rfl⟩ (.inl le_rfl))
  · refine (Grows.setSlot s i _).trans
      (Grows.setResultRing rfl ⟨[], (List.append_nil _).symm⟩ ?_)
    dsimp only [setSlot_resultRing]
    omega

/-! ## The end of a slot, whatever it holds -/

/-- The work of a slot whose result is decided (R120, R140, R141). -/
def decidedWork (st : Status) : Work → Work
  | .param w => .param { w with outcome := commitOutcome st false w }
  | .discover w => .discover (w.endedBy st)
  | w => w

/-- A slot with the work that the end of its result leaves it. -/
def decided (st : Status) (x : Slot) : Slot := { x with work := decidedWork st x.work }

/-- The entry of a slot's commit after the slot's end (R57, R58, R120). -/
def leftEntry (i : SlotId) (started : Bool) (w : ParamWork) (e : NodeEntry) : NodeEntry :=
  if started then committed i w e
  else { e with lock := if e.lock = some i then none else e.lock }

theorem leftEntry_state (i : SlotId) (started : Bool) (w : ParamWork) (e : NodeEntry) :
    (leftEntry i started w e).state = e.state := by
  unfold leftEntry
  split <;> rfl

/-- What the end of a slot makes of the entry that its commit names. -/
def entryLeft (i : SlotId) (st : Status) (x : Slot) (s : State) : State :=
  match x.work with
  | .param w => s.setEntry x.line w.addr (leftEntry i x.started
      { w with outcome := commitOutcome st false w } (s.entry x.line w.addr))
  | _ => s

section

variable {x : Slot} (i : SlotId) (st : Status) (s : State)

theorem decided_commit {w : ParamWork} (work : x.work = .param w) : decided st x =
    { x with work := .param { w with outcome := commitOutcome st false w } } := by
  unfold decided
  rw [work]
  rfl

theorem entryLeft_commit {w : ParamWork} (work : x.work = .param w) : entryLeft i st x s =
    s.setEntry x.line w.addr (leftEntry i x.started
      { w with outcome := commitOutcome st false w } (s.entry x.line w.addr)) := by
  unfold entryLeft
  rw [work]

theorem entryLeft_plain (plain : ∀ w, x.work ≠ .param w) : entryLeft i st x s = s := by
  unfold entryLeft
  split
  · next w work => exact absurd work (plain w)
  · rfl

theorem decided_discovery {w : DiscoverWork} (work : x.work = .discover w) : decided st x =
    { x with work := .discover (w.endedBy st) } := by
  unfold decided
  rw [work]
  rfl

theorem decided_direct (commit : ∀ w, x.work ≠ .param w) (discovery : ∀ w, x.work ≠ .discover w) :
    decided st x = x := by
  have same : decidedWork st x.work = x.work := by
    unfold decidedWork
    split
    · next w work => exact absurd work (commit w)
    · next w work => exact absurd work (discovery w)
    · rfl
  unfold decided
  rw [same]

end

theorem endSlot_form {s : State} {i : SlotId} {x : Slot} (h : s.slot i = some x) (st : Status) :
    endSlot i st false s =
      ended i (decided st x) st (slotDetail s st (decided st x)) (entryLeft i st x s) := by
  by_cases commit : ∃ w, x.work = .param w
  · obtain ⟨w, work⟩ := commit
    rw [decided_commit st work, entryLeft_commit i st s work]
    unfold leftEntry
    split
    · next started => rw [endSlot_commit h work started rfl]
    · next off =>
      rw [endSlot_unstarted h work (Bool.eq_false_iff.2 off) rfl, releaseLock_eq]
  · have plain := not_exists.1 commit
    rw [entryLeft_plain i st s plain]
    by_cases discovery : ∃ w, x.work = .discover w
    · obtain ⟨w, work⟩ := discovery
      rw [decided_discovery st work, endSlot_discovery h work]
    · rw [decided_direct st plain (not_exists.1 discovery),
        endSlot_direct h plain (not_exists.1 discovery)]

theorem grows_entryLeft (i : SlotId) (st : Status) (x : Slot) (s : State) :
    Grows s (entryLeft i st x s) := by
  unfold entryLeft
  cases x.work with
  | param w => exact Grows.setEntry (leftEntry_state _ _ _ _)
  | _ => exact Grows.refl s

theorem slotDetail_grows {s m : State} (h : Grows s m) (st : Status) (x : Slot) :
    slotDetail m st x = slotDetail s st x := by
  have counts : ∀ (w : SweepWork) (k : NodeState),
      countPinged (m.table x.line) w k = countPinged (s.table x.line) w k := fun w k => by
    have same : ∀ p : Addr × Mark, (p.2 == .pinged && (m.table x.line)[p.1].state == k) =
        (p.2 == .pinged && (s.table x.line)[p.1].state == k) := fun p => by
      rw [show (m.table x.line)[p.1].state = (s.table x.line)[p.1].state from h.state x.line p.1]
    unfold countPinged
    simp only [same]
  unfold slotDetail sweepDetail
  simp only [counts, h.ms]

/-! ## Verdicts -/

/-- What a round over the slots makes of a slot. -/
inductive Verdict where
  | stays
  | becomes (y : Slot)
  | ends (y : Slot) (st : Status)

/-- A verdict is carried out on a slot. -/
def carryOut (i : SlotId) (s : State) : Verdict → State
  | .stays => s
  | .becomes y => s.setSlot i (some y)
  | .ends y st => endSlot i st false (s.setSlot i (some y))

/-- One slot of a round. -/
def visit (v : SlotId → Slot → Verdict) (s : State) (i : SlotId) : State :=
  match s.slot i with
  | none => s
  | some x => carryOut i s (v i x)

/-- A round over the slots, in slot order. -/
def visitAll (v : SlotId → Slot → Verdict) (s : State) : State := allSlots.foldl (visit v) s

/-- Between two states a verdict on a slot has been carried out, among others. -/
def Met (i : SlotId) (x : Slot) (s m : State) : Verdict → Prop
  | .stays => m.slot i = some x
  | .becomes y => m.slot i = some y
  | .ends y st => EndsAmong i (decided st y) st (slotDetail s st (decided st y)) s m

theorem carryOut_ends (i : SlotId) (s : State) (y : Slot) (st : Status) :
    carryOut i s (.ends y st) = ended i (decided st y) st (slotDetail s st (decided st y))
      (entryLeft i st y (s.setSlot i (some y))) := by
  show endSlot i st false (s.setSlot i (some y)) = _
  rw [endSlot_form (slot_setSlot_self s i _), slotDetail_setSlot]

theorem carryOut_grows (i : SlotId) (s : State) (o : Verdict) : Grows s (carryOut i s o) := by
  cases o with
  | stays => exact Grows.refl s
  | becomes y => exact Grows.setSlot s i _
  | ends y st =>
    rw [carryOut_ends]
    exact ((Grows.setSlot s i _).trans (grows_entryLeft i st y _)).trans (grows_ended _ _ _ _ _)

theorem entryLeft_slot (i : SlotId) (st : Status) (x : Slot) (s : State) (j : SlotId) :
    (entryLeft i st x s).slot j = s.slot j := by
  unfold entryLeft
  cases x.work <;> rfl

theorem carryOut_other (i : SlotId) (s : State) (o : Verdict) {j : SlotId} (h : j ≠ i) :
    (carryOut i s o).slot j = s.slot j := by
  cases o with
  | stays => rfl
  | becomes y => exact slot_setSlot_ne s _ h
  | ends y st =>
    rw [carryOut_ends, ended_slot_ne _ _ _ _ _ h, entryLeft_slot]
    exact slot_setSlot_ne s _ h

theorem endsAmong_ended {i : SlotId} {x : Slot} {st : Status} {d : List Byte} {s n : State}
    (grows : Grows s n) : EndsAmong i x st d s (ended i x st d n) := by
  obtain ⟨taken, lost⟩ := ended_decided i x st d n (n := n) rfl rfl
  rw [grows.ringTakes, grows.workRing] at taken lost
  refine ⟨fun takes => ?_, fun closed => ?_⟩
  · obtain ⟨slot, pending, -⟩ := taken takes
    obtain ⟨more, before⟩ := grows.pending (s.workRing x.ring).bound
    exact ⟨slot, more ++ [resultOf i x st d], by rw [pending, before, List.append_assoc], by simp⟩
  · obtain ⟨slot, -, count⟩ := lost closed
    have := grows.lost (s.workRing x.ring).bound
    exact ⟨slot, by omega⟩

theorem endsAmong_later {i : SlotId} {x : Slot} {st : Status} {d : List Byte} {s n m : State}
    (h : EndsAmong i x st d s n) (grows : Adds n m) (slot : m.slot i = n.slot i) :
    EndsAmong i x st d s m := by
  refine ⟨fun takes => ?_, fun closed => ?_⟩
  · obtain ⟨held, more, pending, own⟩ := h.taken takes
    obtain ⟨rest, after⟩ := grows.pending (s.workRing x.ring).bound
    exact ⟨slot.trans held, more ++ rest, by rw [after, pending, List.append_assoc],
      List.mem_append_left _ own⟩
  · obtain ⟨free, count⟩ := h.lost closed
    have := grows.lost (s.workRing x.ring).bound
    exact ⟨slot.trans free, by omega⟩

theorem endsAmong_earlier {i : SlotId} {x : Slot} {st : Status} {d : List Byte} {s n m : State}
    (h : EndsAmong i x st d n m) (grows : Grows s n) : EndsAmong i x st d s m := by
  obtain ⟨taken, lost⟩ := h
  rw [grows.ringTakes, grows.workRing] at taken lost
  refine ⟨fun takes => ?_, fun closed => ?_⟩
  · obtain ⟨held, rest, after, own⟩ := taken takes
    obtain ⟨more, before⟩ := grows.pending (s.workRing x.ring).bound
    exact ⟨held, more ++ rest, by rw [after, before, List.append_assoc],
      List.mem_append_right _ own⟩
  · obtain ⟨free, count⟩ := lost closed
    have := grows.lost (s.workRing x.ring).bound
    exact ⟨free, by omega⟩

theorem carryOut_met {i : SlotId} {x : Slot} {s : State} (h : s.slot i = some x) (o : Verdict) :
    Met i x s (carryOut i s o) o := by
  cases o with
  | stays => exact h
  | becomes y => exact slot_setSlot_self s i _
  | ends y st =>
    rw [carryOut_ends]
    exact endsAmong_ended ((Grows.setSlot s i _).trans (grows_entryLeft i st y _))

theorem Met.later {i : SlotId} {x : Slot} {s n m : State} {o : Verdict} (h : Met i x s n o)
    (grows : Adds n m) (slot : m.slot i = n.slot i) : Met i x s m o := by
  cases o with
  | stays => exact slot.trans h
  | becomes y => exact slot.trans h
  | ends y st => exact endsAmong_later h grows slot

theorem Met.earlier {i : SlotId} {x : Slot} {s n m : State} {o : Verdict} (h : Met i x n m o)
    (grows : Grows s n) : Met i x s m o := by
  cases o with
  | stays => exact h
  | becomes y => exact h
  | ends y st =>
    have met : EndsAmong i (decided st y) st (slotDetail n st (decided st y)) n m := h
    rw [slotDetail_grows grows] at met
    exact endsAmong_earlier met grows

theorem foldl_visit (v : SlotId → Slot → Verdict) : ∀ (ks : List SlotId) (s : State), ks.Nodup →
    Grows s (ks.foldl (visit v) s) ∧
    (∀ i, i ∉ ks ∨ s.slot i = none → (ks.foldl (visit v) s).slot i = s.slot i) ∧
    ∀ i ∈ ks, ∀ x, s.slot i = some x → Met i x s (ks.foldl (visit v) s) (v i x) := by
  intro ks
  induction ks with
  | nil => exact fun s _ => ⟨Grows.refl s, fun _ _ => rfl, fun i hi => absurd hi List.not_mem_nil⟩
  | cons k ks ih =>
    intro s nodup
    obtain ⟨fresh, nodup'⟩ := List.nodup_cons.1 nodup
    have step : Grows s (visit v s k) ∧ (∀ i, i ≠ k ∨ s.slot i = none →
        (visit v s k).slot i = s.slot i) ∧
        ∀ x, s.slot k = some x → Met k x s (visit v s k) (v k x) := by
      unfold visit
      cases slot : s.slot k with
      | none => exact ⟨Grows.refl s, fun _ _ => rfl, fun x e => by cases e⟩
      | some x =>
        refine ⟨carryOut_grows k s _, fun i hi => carryOut_other k s _ ?_, fun y e => ?_⟩
        · rcases hi with ne | none
          · exact ne
          · rintro rfl
            rw [slot] at none
            cases none
        · cases e
          exact carryOut_met slot _
    obtain ⟨grows, others, met⟩ := step
    obtain ⟨grows', others', met'⟩ := ih (visit v s k) nodup'
    refine ⟨grows.trans grows', fun i hi => ?_, fun i hi x hx => ?_⟩
    · rcases eq_or_ne i k with rfl | ne
      · exact (others' i (.inl fresh)).trans (others i (.inr (hi.resolve_left (by simp))))
      · have same := others i (.inl ne)
        rw [List.foldl_cons, others' i (hi.imp (fun h h' => h (List.mem_cons_of_mem _ h'))
          fun h => same.trans h), same]
    · rcases List.mem_cons.1 hi with rfl | later
      · exact (met x hx).later grows'.adds (others' i (.inl fresh))
      · have ne : i ≠ k := fun e => fresh (e ▸ later)
        exact (met' i later x ((others i (.inl ne)).trans hx)).earlier grows

section

variable (v : SlotId → Slot → Verdict) (s : State)

theorem visitAll_grows : Grows s (visitAll v s) :=
  (foldl_visit v allSlots s (List.nodup_finRange 24)).1

theorem visitAll_free {i : SlotId} (h : s.slot i = none) : (visitAll v s).slot i = none :=
  ((foldl_visit v allSlots s (List.nodup_finRange 24)).2.1 i (.inr h)).trans h

theorem visitAll_met {i : SlotId} {x : Slot} (h : s.slot i = some x) :
    Met i x s (visitAll v s) (v i x) :=
  (foldl_visit v allSlots s (List.nodup_finRange 24)).2.2 i (List.mem_finRange i) x h

end

/-! ## The entries of commits -/

/-- What the end of a slot makes of an entry. -/
def entryEnded (l : Line) (a : Addr) (i : SlotId) (y : Slot) (st : Status) (e : NodeEntry) :
    NodeEntry :=
  match y.work with
  | .param w =>
    if y.line = l ∧ w.addr = a then
      leftEntry i y.started { w with outcome := commitOutcome st false w } e
    else e
  | _ => e

theorem entryEnded_commit {l : Line} {a : Addr} {i : SlotId} {y : Slot} {w : ParamWork}
    (work : y.work = .param w) (st : Status) (e : NodeEntry) : entryEnded l a i y st e =
      if y.line = l ∧ w.addr = a then
        leftEntry i y.started { w with outcome := commitOutcome st false w } e
      else e := by
  unfold entryEnded
  rw [work]

theorem entryEnded_plain {l : Line} {a : Addr} {i : SlotId} {y : Slot}
    (plain : ∀ w, y.work = .param w → ¬(y.line = l ∧ w.addr = a)) (st : Status) (e : NodeEntry) :
    entryEnded l a i y st e = e := by
  unfold entryEnded
  split
  · next w work => exact if_neg (plain w work)
  · rfl

/-- What a verdict on a slot makes of an entry. -/
def entryMet (l : Line) (a : Addr) (i : SlotId) (e : NodeEntry) : Verdict → NodeEntry
  | .ends y st => entryEnded l a i y st e
  | _ => e

/-- What a round makes of an entry at one slot. -/
def entryVisit (v : SlotId → Slot → Verdict) (s : State) (l : Line) (a : Addr) (e : NodeEntry)
    (i : SlotId) : NodeEntry :=
  match s.slot i with
  | none => e
  | some x => entryMet l a i e (v i x)

theorem entryVisit_some {v : SlotId → Slot → Verdict} {s : State} {i : SlotId} {x : Slot}
    (h : s.slot i = some x) (l : Line) (a : Addr) (e : NodeEntry) :
    entryVisit v s l a e i = entryMet l a i e (v i x) := by
  unfold entryVisit
  rw [h]

theorem entryLeft_entry (i : SlotId) (st : Status) (y : Slot) (s : State) (l : Line) (a : Addr) :
    (entryLeft i st y s).entry l a = entryEnded l a i y st (s.entry l a) := by
  by_cases commit : ∃ w, y.work = .param w
  · obtain ⟨w, work⟩ := commit
    rw [entryLeft_commit i st s work, entryEnded_commit work]
    by_cases same : y.line = l ∧ w.addr = a
    · rw [if_pos same]
      obtain ⟨rfl, rfl⟩ := same
      exact entry_setEntry_self _ _ _ _
    · rw [if_neg same]
      rcases eq_or_ne l y.line with rfl | line
      · exact entry_setEntry_ne _ _ _ fun e => same ⟨rfl, e.symm⟩
      · exact entry_setEntry_other _ _ _ _ line
  · rw [entryLeft_plain i st s (not_exists.1 commit),
      entryEnded_plain fun w work => absurd ⟨w, work⟩ commit]

theorem carryOut_entry (i : SlotId) (s : State) (o : Verdict) (l : Line) (a : Addr) :
    (carryOut i s o).entry l a = entryMet l a i (s.entry l a) o := by
  cases o with
  | stays => rfl
  | becomes y => rfl
  | ends y st =>
    rw [carryOut_ends, ended_entry, entryLeft_entry]
    rfl

theorem foldl_entry (v : SlotId → Slot → Verdict) (l : Line) (a : Addr) :
    ∀ (ks : List SlotId) (s : State), ks.Nodup →
    (ks.foldl (visit v) s).entry l a = ks.foldl (entryVisit v s l a) (s.entry l a) := by
  intro ks
  induction ks with
  | nil => exact fun s _ => rfl
  | cons k ks ih =>
    intro s nodup
    obtain ⟨fresh, nodup'⟩ := List.nodup_cons.1 nodup
    have one : (visit v s k).entry l a = entryVisit v s l a (s.entry l a) k := by
      unfold visit entryVisit
      cases s.slot k with
      | none => rfl
      | some x => exact carryOut_entry k s _ l a
    have slot : ∀ i, i ≠ k → (visit v s k).slot i = s.slot i := fun i ne => by
      unfold visit
      cases s.slot k with
      | none => rfl
      | some x => exact carryOut_other k s _ ne
    have same : ∀ e, ∀ i ∈ ks, entryVisit v (visit v s k) l a e i = entryVisit v s l a e i :=
      fun e i hi => by
        unfold entryVisit
        rw [slot i fun e => fresh (e ▸ hi)]
    rw [List.foldl_cons, List.foldl_cons, ih _ nodup', one]
    exact List.foldl_ext _ _ _ same

theorem visitAll_entry (v : SlotId → Slot → Verdict) (s : State) (l : Line) (a : Addr) :
    (visitAll v s).entry l a = allSlots.foldl (entryVisit v s l a) (s.entry l a) :=
  foldl_entry v l a allSlots s (List.nodup_finRange 24)

/-- The entry of a commit's unstarted end changes only for the slot that has locked it. -/
theorem leftEntry_unlocked {i : SlotId} {w : ParamWork} {e : NodeEntry} (h : e.lock ≠ some i) :
    leftEntry i false w e = e := by
  unfold leftEntry
  rw [if_neg Bool.false_ne_true, if_neg h]

/-- A round leaves an entry that no ended commit names. -/
theorem foldl_entry_same {v : SlotId → Slot → Verdict} {s : State} {l : Line} {a : Addr}
    {e : NodeEntry} : ∀ {ks : List SlotId}, (∀ i ∈ ks, entryVisit v s l a e i = e) →
    ks.foldl (entryVisit v s l a) e = e := by
  intro ks
  induction ks with
  | nil => exact fun _ => rfl
  | cons k ks ih =>
    intro h
    rw [List.foldl_cons, h k List.mem_cons_self]
    exact ih fun i hi => h i (List.mem_cons_of_mem _ hi)

/-- A round whose ends are aborts or cuts of slots as they stand. -/
def Plain (v : SlotId → Slot → Verdict) (ends : SlotId → Slot → Prop) (s : State) : Prop :=
  ∀ i x, s.slot i = some x → (ends i x ∧ ∃ st, (st = .aborted ∨ st = .lineReset) ∧
      v i x = .ends x st) ∨ (¬ends i x ∧ ∀ y st, v i x ≠ .ends y st)

theorem outcome_narrow {st : Status} (h : st = .aborted ∨ st = .lineReset) (w : ParamWork) :
    commitOutcome st false w = outcomeOf true w := by
  rcases h with rfl | rfl <;> exact commitOutcome_kept (by simp) false w

/-- A slot that a round does not end, or whose ended commit holds no lock of an entry, leaves the entry. -/
theorem entryVisit_other {v : SlotId → Slot → Verdict} {ends : SlotId → Slot → Prop} {s : State}
    (plain : Plain v ends s) {l : Line} {j : SlotId} {a : Addr} {e : NodeEntry}
    (h : ∀ y w, s.slot j = some y → y.line = l → y.work = .param w → ends j y → w.addr = a →
      y.started = false ∧ e.lock ≠ some j) : entryVisit v s l a e j = e := by
  cases slot : s.slot j with
  | none =>
    unfold entryVisit
    rw [slot]
  | some y =>
    rw [entryVisit_some slot]
    rcases plain j y slot with ⟨end_, st, -, verdict⟩ | ⟨-, stays⟩
    · rw [verdict]
      by_cases commit : ∃ w, y.work = .param w ∧ y.line = l ∧ w.addr = a
      · obtain ⟨w, work, line, addr⟩ := commit
        obtain ⟨off, free⟩ := h y w slot line work end_ addr
        show entryEnded l a j y st e = e
        rw [entryEnded_commit work, if_pos ⟨line, addr⟩, off]
        exact leftEntry_unlocked free
      · exact entryEnded_plain (fun w work same => commit ⟨w, work, same⟩) st e
    · unfold entryMet
      cases verdict : v j y with
      | ends z st => exact absurd verdict (stays z st)
      | _ => rfl

/-- No started commit of the line but that of a slot names the entry. -/
def Alone (l : Line) (i : SlotId) (a : Addr) (s : State) : Prop :=
  ∀ j y v, j ≠ i → s.slot j = some y → y.line = l → y.work = .param v → y.started = true → v.addr ≠ a

theorem Alone.unstarted {l : Line} {i : SlotId} {a : Addr} {s : State} (h : Alone l i a s) {j : SlotId}
    (ne : j ≠ i) {y : Slot} {v : ParamWork} (slot : s.slot j = some y) (line : y.line = l)
    (work : y.work = .param v) (addr : v.addr = a) : y.started = false := by
  by_contra on
  exact h j y v ne slot line work (by simpa using on) addr

/-- A round leaves the entry that a commit which it does not end has locked. -/
theorem visitAll_entry_held {v : SlotId → Slot → Verdict} {ends : SlotId → Slot → Prop} {s : State}
    (plain : Plain v ends s) {l : Line} {i : SlotId} {x : Slot} {a : Addr} (slot : s.slot i = some x)
    (kept : ¬ends i x) (lock : (s.entry l a).lock = some i) (alone : Alone l i a s) :
    (visitAll v s).entry l a = s.entry l a := by
  rw [visitAll_entry]
  refine foldl_entry_same fun j _ => entryVisit_other plain fun y w hy line work end_ addr => ?_
  have ne : j ≠ i := by
    rintro rfl
    obtain rfl := Option.some.inj (hy.symm.trans slot)
    exact kept end_
  refine ⟨alone.unstarted ne hy line work addr, ?_⟩
  rw [lock]
  exact fun e => ne (Option.some.inj e).symm

theorem visitAll_commitsEnded {v : SlotId → Slot → Verdict} {ends : SlotId → Slot → Prop}
    {s : State} (plain : Plain v ends s) (l : Line) : CommitsEnded l ends s (visitAll v s) := by
  refine ⟨fun i x w slot line work started end_ lock alone => ?_, fun a none => ?_⟩
  · obtain ⟨before, after, split⟩ := List.append_of_mem (List.mem_finRange i)
    have nodup : (before ++ i :: after).Nodup := split ▸ List.nodup_finRange 24
    obtain ⟨-, fresh, apart⟩ := List.nodup_append.1 nodup
    have notBefore : ∀ j ∈ before, j ≠ i := fun j hj => apart j hj i List.mem_cons_self
    have notAfter : ∀ j ∈ after, j ≠ i := fun j hj e => (List.nodup_cons.1 fresh).1 (e ▸ hj)
    have own : entryVisit v s l w.addr (s.entry l w.addr) i =
        committed i { w with outcome := outcomeOf true w } (s.entry l w.addr) := by
      rcases plain i x slot with ⟨-, st, narrow, verdict⟩ | ⟨none, -⟩
      · rw [entryVisit_some slot, verdict]
        show entryEnded l w.addr i x st _ = _
        rw [entryEnded_commit work, if_pos ⟨line, rfl⟩, started, outcome_narrow narrow]
        rfl
      · exact absurd end_ none
    have released : (committed i { w with outcome := outcomeOf true w } (s.entry l w.addr)).lock =
        none := if_pos lock
    rw [visitAll_entry, show allSlots = before ++ i :: after from split, List.foldl_append,
      List.foldl_cons, foldl_entry_same fun j hj => entryVisit_other plain fun y v' hy hl hw _ addr =>
        ⟨Alone.unstarted alone (notBefore j hj) hy hl hw addr, ?_⟩, own]
    · exact foldl_entry_same fun j hj => entryVisit_other plain fun y v' hy hl hw _ addr =>
        ⟨Alone.unstarted alone (notAfter j hj) hy hl hw addr, by rw [released]; simp⟩
    · rw [lock]
      exact fun e => notBefore j hj (Option.some.inj e).symm
  · rw [visitAll_entry]
    exact foldl_entry_same fun j _ => entryVisit_other plain fun y w hy line work end_ addr =>
      absurd addr (none j y w hy line work end_)

end Sys2Proof.SlotRounds

/-! Aborts: what an abort makes of the slots that it reaches, and the requests ABORT and
CLOSE_WORK_RING. -/

namespace Sys2Proof.Aborts

open Sys2Proof Sys2Proof.Machine Sys2Proof.Safety Sys2Proof.Laws Sys2Proof.Decoding
  Sys2Proof.Requests Sys2Proof.Invariants Sys2Proof.FieldLines Sys2Proof.SlotEnds Sys2Proof.Steps Sys2Proof.CallEnds
  Sys2Proof.SlotRounds Sys2Proof.SlotDeadlines Sys2Proof.NodeTable

/-! ## Slots that an abort or a cut ends -/

theorem decidedWork_narrow {st : Status} (h : st = .aborted ∨ st = .lineReset) (u : Work) :
    decidedWork st u = endedWork st u := by
  cases u with
  | param w =>
    exact congrArg (fun o => Work.param { w with outcome := o }) (outcome_narrow h w)
  | discover w => rcases h with rfl | rfl <;> rfl
  | _ => rfl

theorem slotDetail_narrow {st : Status} (h : st = .aborted ∨ st = .lineReset) (s : State) (z : Slot) :
    slotDetail s st z = endedDetail s st z := by
  have zero : zeroDetail st z = match z.work with
      | .call _ | .sweep _ | .param _ => decide (st = .aborted ∧ z.started = false)
      | .discover _ | .unknown => false := by
    unfold zeroDetail
    rcases h with rfl | rfl <;> cases z.work <;> cases z.started <;> rfl
  unfold slotDetail endedDetail
  rw [zero]
  cases work : z.work with
  | call w =>
    simp only [decide_eq_true_eq]
    split
    · rfl
    · unfold callDetail
      rcases h with rfl | rfl <;> rfl
  | _ => simp only [decide_eq_true_eq, Bool.false_eq_true, if_false]

theorem endedBy_iff {st : Status} (h : st = .aborted ∨ st = .lineReset) {i : SlotId} {x : Slot}
    {s m : State} : EndedBy st i x s m ↔ Met i x s m (.ends x st) := by
  have same : decided st x = { x with work := endedWork st x.work } := by
    unfold decided
    rw [decidedWork_narrow h]
  show _ ↔ EndsAmong i (decided st x) st (slotDetail s st (decided st x)) s m
  rw [same, slotDetail_narrow h]
  rfl

/-! ## A round of aborts -/

theorem abortWaits_iff {x : Slot} : x.abortWaits = true ↔ AbortWaits x := by
  unfold Slot.abortWaits AbortWaits
  by_cases commit : ∃ w, x.work = .param w
  · obtain ⟨w, work⟩ := commit
    have judged := programming_iff (w := w)
    cases state : x.state <;> simp only [work] <;> simp [judged]
  · have none : ∀ P : ParamWork → Prop, (∃ w, x.work = .param w ∧ P w) ↔ False :=
      fun P => iff_false_intro fun ⟨w, work, _⟩ => commit ⟨w, work⟩
    rw [none]
    cases work : x.work with
    | param w => exact absurd ⟨w, work⟩ commit
    | _ => cases state : x.state <;> simp

/-- What an abort makes of a slot (R84, R85). -/
def aborts (x : Slot) : Verdict :=
  if x.state = .finishing then .stays
  else if x.abortWaits then .becomes { x with abortPending := true }
  else .ends x .aborted

/-- What an abort of the slots that meet a condition makes of a slot. -/
def abortsWhere (p : Slot → Bool) (x : Slot) : Verdict := if p x then aborts x else .stays

theorem abortSlot_carried {s : State} {i : SlotId} {x : Slot} (h : s.slot i = some x) :
    abortSlot i s = carryOut i s (aborts x) := by
  unfold abortSlot aborts
  rw [h]
  dsimp only
  split
  · rfl
  · split
    · rfl
    · show endSlot i .aborted false s = endSlot i .aborted false (s.setSlot i (some x))
      rw [setSlot_self h]

/-- One slot of a round of aborts. -/
def abortVisit (p : Slot → Bool) (s : State) (i : SlotId) : State :=
  match s.slot i with
  | none => s
  | some x => if p x then abortSlot i s else s

theorem abortVisit_eq (p : Slot → Bool) : abortVisit p = visit fun _ => abortsWhere p := by
  funext s i
  unfold abortVisit visit abortsWhere
  cases slot : s.slot i with
  | none => rfl
  | some x =>
    dsimp only
    split
    · exact abortSlot_carried slot
    · rfl

theorem abortWhere_visits (p : Slot → Bool) (s : State) :
    abortWhere p s = visitAll (fun _ => abortsWhere p) s := by
  have round : abortWhere p s = allSlots.foldl (abortVisit p) s := rfl
  exact round.trans (congrArg (fun f => allSlots.foldl f s) (abortVisit_eq p))

theorem aborts_met {i : SlotId} {x : Slot} {s m : State} (h : Met i x s m (aborts x)) :
    Aborted i x s m := by
  unfold aborts at h
  refine ⟨fun done => ?_, fun open_ waits => ?_, fun open_ free => ?_⟩
  · rw [if_pos done] at h
    exact h
  · rw [if_neg open_, if_pos (abortWaits_iff.2 waits)] at h
    exact h
  · rw [if_neg open_, if_neg (mt abortWaits_iff.1 free)] at h
    exact (endedBy_iff (.inl rfl)).2 h

/-- Between two states an abort has reached the slots that a condition names, and no other slot. -/
structure Reached (p : Slot → Bool) (s m : State) : Prop where
  named : ∀ i x, s.slot i = some x → p x = true → Aborted i x s m
  others : ∀ i x, s.slot i = some x → p x = false → m.slot i = some x
  free : ∀ i, s.slot i = none → m.slot i = none

theorem abortWhere_reached (p : Slot → Bool) (s : State) : Reached p s (abortWhere p s) := by
  rw [abortWhere_visits]
  refine ⟨fun i x slot named => ?_, fun i x slot other => ?_, fun i free => visitAll_free _ s free⟩
  · have met := visitAll_met (fun _ => abortsWhere p) s slot
    unfold abortsWhere at met
    rw [if_pos named] at met
    exact aborts_met met
  · have met := visitAll_met (fun _ => abortsWhere p) s slot
    unfold abortsWhere at met
    rw [if_neg (by rw [other]; exact Bool.false_ne_true)] at met
    exact met

theorem abortWhere_grows (p : Slot → Bool) (s : State) : Grows s (abortWhere p s) := by
  rw [abortWhere_visits]
  exact visitAll_grows _ s

/-- The commits that an abort of the named slots ends. -/
theorem abortWhere_commitsEnded (p : Slot → Bool) (s : State) (l : Line) :
    CommitsEnded l (fun _ x => p x = true ∧ x.state ≠ .finishing ∧ ¬AbortWaits x) s
      (abortWhere p s) := by
  rw [abortWhere_visits]
  refine visitAll_commitsEnded (fun i x slot => ?_) l
  unfold abortsWhere aborts
  by_cases named : p x = true
  · rw [if_pos named]
    by_cases done : x.state = .finishing
    · rw [if_pos done]
      exact .inr ⟨fun h => h.2.1 done, fun _ _ => nofun⟩
    · rw [if_neg done]
      by_cases waits : x.abortWaits = true
      · rw [if_pos waits]
        exact .inr ⟨fun h => h.2.2 (abortWaits_iff.1 waits), fun _ _ => nofun⟩
      · rw [if_neg waits]
        exact .inl ⟨⟨named, done, mt abortWaits_iff.2 waits⟩, .aborted, .inl rfl, rfl⟩
  · rw [if_neg named]
    exact .inr ⟨fun h => named h.1, fun _ _ => nofun⟩

/-! ## What the event makes of it -/

theorem aborted_later {i : SlotId} {x : Slot} {s n m : State} (h : Aborted i x s n)
    (adds : Adds n m) (slot : m.slot i = n.slot i) : Aborted i x s m :=
  ⟨fun done => slot.trans (h.finishing done), fun open_ waits => slot.trans (h.waits open_ waits),
    fun open_ free => endsAmong_later (h.ends open_ free) adds slot⟩

/-- An abort is read over any state with the same rings, tables and time. -/
theorem aborted_over {i : SlotId} {x : Slot} {s n m : State} (h : Aborted i x n m)
    (bound : ∀ r, (n.workRing r).bound = (s.workRing r).bound) (results : n.results = s.results)
    (nodes : n.nodes = s.nodes) (ms : n.ms = s.ms) : Aborted i x s m := by
  refine ⟨h.finishing, h.waits, fun open_ free => ?_⟩
  have ring : n.resultRing = s.resultRing := funext fun q => congrArg (fun v => v[q]) results
  have detail : ∀ z, endedDetail n .aborted z = endedDetail s .aborted z := fun z => by
    unfold endedDetail State.table
    rw [nodes, ms]
  obtain ⟨taken, lost⟩ := h.ends open_ free
  unfold RingTakes at taken lost
  rw [bound, ring, detail] at taken
  rw [bound, ring] at lost
  exact ⟨taken, lost⟩

/-- A slot that is FREE, that has its result, or that an abort waits for. -/
def Calm (o : Option Slot) : Prop := ∀ y, o = some y → y.state = .finishing ∨ y.abortPending = true

theorem aborted_calm {i : SlotId} {x : Slot} {s m : State} (h : Aborted i x s m)
    (open_ : x.state ≠ .finishing) : Calm (m.slot i) := by
  intro y hy
  by_cases waits : AbortWaits x
  · obtain rfl := Option.some.inj (hy.symm.trans (h.waits open_ waits))
    exact .inr rfl
  · have ends := h.ends open_ waits
    by_cases takes : RingTakes { x with work := endedWork .aborted x.work } s
    · obtain rfl := Option.some.inj (hy.symm.trans (ends.taken takes).1)
      exact .inl rfl
    · rw [(ends.lost takes).1] at hy
      cases hy

theorem settled_calm {l : Line} {s t : State} (h : Settled l s t) {i : SlotId}
    (calm : Calm (s.slot i)) : Calm (t.slot i) := by
  intro y hy
  obtain ⟨x, hx, kept⟩ := h.kept.slot i y hy
  rcases calm x hx with done | pending
  · have still := h.still i x hx (by unfold Slot.judged; rw [done])
    obtain rfl := Option.some.inj (hy.symm.trans still)
    exact .inl done
  · exact .inr (kept.abortPending.trans pending)

theorem serviced_slot {s t : State} (h : Serviced s t) (i : SlotId) : t.slot i = s.slot i := by
  unfold State.slot
  rw [h.slots]

theorem after_calm {l : Line} {s t : State} (h : After l s t) {i : SlotId}
    (calm : Calm (s.slot i)) : Calm (t.slot i) := by
  obtain ⟨m, settled, served⟩ := h
  rw [serviced_slot served]
  exact settled_calm settled calm

theorem afterBoth_calm {s t : State} (h : AfterBoth s t) {i : SlotId} (calm : Calm (s.slot i)) :
    Calm (t.slot i) := by
  obtain ⟨m, n, first, second, served⟩ := h
  rw [serviced_slot served]
  exact settled_calm second (settled_calm first calm)

/-! ## ABORT -/

theorem countSlots_zero {s : State} {p : Slot → Bool} :
    countSlots s p = 0 ↔ ∀ i x, s.slot i = some x → p x = false := by
  unfold countSlots
  rw [List.length_eq_zero_iff, List.filter_eq_nil_iff]
  constructor
  · intro none i x slot
    have := none i (List.mem_finRange i)
    rw [slot] at this
    exact Bool.eq_false_iff.2 this
  · intro none i _
    cases slot : s.slot i with
    | none => exact Bool.false_ne_true
    | some x => exact Bool.eq_false_iff.1 (none i x slot)

theorem named_iff {k : WorkRingId} {tag : Word} {x : Slot} :
    Slot.named k tag x = true ↔ x.ring = k ∧ x.tag = tag := by
  unfold Slot.named
  rw [Bool.and_eq_true, beq_iff_eq, beq_iff_eq]

theorem requestTaken_bound (r : Record) (s : State) (k : WorkRingId) :
    ((requestTaken r s).workRing k).bound = (s.workRing k).bound := by
  rcases eq_or_ne k 0 with rfl | zero
  · exact (congrArg WorkRing.bound (workRing_setWorkRing_self s 0 _) :)
  · rw [requestTaken_workRing r s zero]

theorem answered_adds (code : Byte) (tag : Word) (st : Status) (d : List Byte) (s : State) :
    Adds s (answered code tag st d s) := by
  have ring : ∀ q, ((answered code tag st d s).resultRing q).lost = (s.resultRing q).lost ∧
      ∃ more, ((answered code tag st d s).resultRing q).pending = (s.resultRing q).pending ++ more :=
    fun q => by
      rcases eq_or_ne q 0 with rfl | other
      · have own : (answered code tag st d s).resultRing 0 = _ := resultRing_setResultRing_self s 0 _
        rw [own]
        exact ⟨rfl, _, rfl⟩
      · have same : (answered code tag st d s).resultRing q = s.resultRing q :=
          resultRing_setResultRing_ne s _ other
        rw [same]
        exact ⟨rfl, [], (List.append_nil _).symm⟩
  exact ⟨fun q => (ring q).2, fun q => .inl (ring q).1.ge⟩

/-- The answer of a request joins the results decided before it. -/
theorem answered_after {s n : State} (adds : Adds s n) (code : Byte) (tag : Word) (st : Status)
    (d : List Byte) : Answered code tag st d s (answered code tag st d n) := by
  obtain ⟨more, pending⟩ := adds.pending 0
  refine ⟨more ++ [_], ?_, List.mem_append_right _ (List.mem_singleton_self _)⟩
  rw [← List.append_assoc, ← pending]
  exact congrArg ResultRing.pending (resultRing_setResultRing_self n 0 _)

/-- Settles O32. -/
theorem abortEndsTheNamedSlots : Obligations.AbortEndsTheNamedSlots := by
  refine ⟨decodeAbort_isSome, fun r s k tag h fields => ?_⟩
  obtain ⟨ring, -, htag⟩ := decodeAbort_fields fields
  have arm : exec (.abort r) s =
    .next (takeAdmin r (checked (decodeAbort r) fun p => abortNamed p.1 p.2) s) := rfl
  refine ⟨ring, htag, fun nobody => ?_, fun ⟨i, x, slot, found⟩ => ?_⟩
  · have none : countSlots (requestTaken r s) (Slot.named k tag) = 0 :=
      countSlots_zero.2 fun i x slot => Bool.eq_false_iff.2 (mt named_iff.1 (nobody i x slot))
    exact request_answered h arm fields (m := requestTaken r s) (if_pos none) rfl h.ring
  · have some_ : countSlots (requestTaken r s) (Slot.named k tag) ≠ 0 := fun zero => by
      have := countSlots_zero.1 zero i x slot
      rw [named_iff.2 found] at this
      cases this
    have reached := abortWhere_reached (Slot.named k tag) (requestTaken r s)
    have grows := abortWhere_grows (Slot.named k tag) (requestTaken r s)
    have commits := abortWhere_commitsEnded (Slot.named k tag) (requestTaken r s)
    have worked : Worked (requestTaken r s) (abortWhere (Slot.named k tag) (requestTaken r s)) :=
      worked_abortWhere (worked_refl _) _
    generalize hn : abortWhere (Slot.named k tag) (requestTaken r s) = n at *
    generalize hd : ([byteOf (countSlots s fun x => x.ring == k && x.tag == tag),
      byteOf (countSlots s fun x => x.ring == k && x.tag == tag && x.unfinished && !x.abortWaits),
      byteOf (countSlots s fun x => x.ring == k && x.tag == tag && x.unfinished && x.abortWaits)]
      : List Byte) = d
    have run : abortNamed k tag (requestTaken r s) = settleBoth (adminAnswer .ok d n) := by
      rw [← hd, ← hn]
      exact if_neg some_
    have answer : adminAnswer .ok d n = answered r[0] (recordTag r) .ok d n :=
      adminAnswer_active (a := ⟨r[0], recordTag r, .answered⟩) grows.admin
        (by rw [grows.out]; exact h.ring) _ _
    have slots : ∀ j, (answered r[0] (recordTag r) .ok d n).slot j = n.slot j := fun _ => rfl
    refine ⟨adminAnswer .ok d n, _, request_runs h arm fields, worked_adminAnswer worked _ _, ?_, ?_⟩
    · rw [run]
      exact afterBoth_after _
    · rw [answer]
      refine ⟨fun j y hy => ?_, fun l => ?_, grows.lines, grows.queues, ?_⟩
      · split
        · next match_ =>
          exact aborted_over (aborted_later (reached.named j y hy (named_iff.2 match_))
            (answered_adds _ _ _ _ _) (slots j)) (requestTaken_bound r s) rfl rfl rfl
        · next other =>
          exact reached.others j y hy (Bool.eq_false_iff.2 (mt named_iff.1 other))
      · have ends : (fun (_ : SlotId) x => Slot.named k tag x = true ∧ x.state ≠ .finishing ∧
            ¬AbortWaits x) = fun _ x => x.ring = k ∧ x.tag = tag ∧ x.state ≠ .finishing ∧
            ¬AbortWaits x := by
          funext _ x
          rw [named_iff, and_assoc]
        rw [ends] at commits
        obtain ⟨entry, others⟩ := commits l
        exact ⟨entry, others⟩
      · exact answered_after grows.adds _ _ _ _

/-! ## CLOSE_WORK_RING -/

/-- A work ring 1 to 7 whose CLOSE_WORK_RING is current (R180). -/
def draining (r : Record) (k : WorkRingId) (s : State) : State :=
  { (requestTaken r s).setWorkRing k { s.workRing k with state := .draining } with
    admin := some { code := r[0], tag := recordTag r, phase := .closingWork k } }

theorem drainWork_refused {k : WorkRingId} {s : State}
    (h : (s.workRing k).state = .closed ∨ (s.workRing k).state = .draining) :
    drainWork k s = adminAnswer .badState [] s := by
  unfold drainWork
  dsimp only
  rcases h with h | h <;> rw [h]

theorem drainWork_drains {r : Record} {k : WorkRingId} {s : State} (zero : k ≠ 0)
    (open_ : (s.workRing k).state ≠ .closed) (fresh : (s.workRing k).state ≠ .draining) :
    drainWork k (requestTaken r s) = settleLine (s.workRing k).line
      (abortWhere (Slot.unstartedOf k) (draining r k s)) := by
  unfold drainWork
  dsimp only
  rw [requestTaken_workRing r s zero]
  cases state : (s.workRing k).state with
  | closed => exact absurd state open_
  | draining => exact absurd state fresh
  | _ => rfl

theorem unstartedOf_iff {k : WorkRingId} {x : Slot} :
    Slot.unstartedOf k x = true ↔ x.ring = k ∧ x.started = false := by
  unfold Slot.unstartedOf
  rw [Bool.and_eq_true, beq_iff_eq, Bool.not_eq_true']

theorem draining_workRing (r : Record) (k : WorkRingId) (s : State) :
    (draining r k s).workRing k = { s.workRing k with state := .draining } :=
  workRing_setWorkRing_self _ k _

theorem draining_bound (r : Record) (k : WorkRingId) (s : State) (n : WorkRingId) :
    ((draining r k s).workRing n).bound = (s.workRing n).bound := by
  rcases eq_or_ne n k with rfl | other
  · rw [draining_workRing]
  · have same : (draining r k s).workRing n = (requestTaken r s).workRing n :=
      workRing_setWorkRing_ne _ _ other
    rw [same, requestTaken_bound]

/-- Settles O21. -/
theorem closeWorkRingDrainsTheRing : Obligations.CloseWorkRingDrainsTheRing := by
  intro r s k h zero ring
  have fields : lineRingOf r[12] = some k := lineRingOf_eq_some.2 ⟨ring, zero⟩
  have arm : exec (.closeWorkRing r) s =
    .next (takeAdmin r (checked (lineRingOf r[12]) drainWork) s) := rfl
  refine ⟨fun shut => ?_, fun open_ fresh => ?_⟩
  · rw [← requestTaken_workRing r s zero] at shut
    exact request_answered h arm fields (m := requestTaken r s) (drainWork_refused shut) rfl h.ring
  have run := request_runs h arm fields
  rw [drainWork_drains zero open_ fresh] at run
  have reached := abortWhere_reached (Slot.unstartedOf k) (draining r k s)
  have grows := abortWhere_grows (Slot.unstartedOf k) (draining r k s)
  have worked := worked_abortWhere (worked_refl (draining r k s)) (Slot.unstartedOf k)
  generalize hm : abortWhere (Slot.unstartedOf k) (draining r k s) = m at *
  have after : After (s.workRing k).line m (serviceRings (settleLine (s.workRing k).line m)) :=
    afterLine_after (s.workRing k).line m
  generalize serviceRings (settleLine (s.workRing k).line m) = t at run after
  have event := after
  obtain ⟨n, settled, served⟩ := event
  have live : n.device ≠ .halted := by
    rw [settled.kept.device, grows.device]
    exact h.live
  have work : n.workRing k =
      { s.workRing k with state := .draining } :=
    (congrArg (fun v => v[k]) settled.kept.work).trans
      ((congrFun grows.workRing k).trans (draining_workRing r k s))
  have aborts : ∀ i x, s.slot i = some x → x.ring = k ∧ x.started = false → Aborted i x s m :=
    fun i x slot named => aborted_over (reached.named i x slot (unstartedOf_iff.2 named))
      (draining_bound r k s) rfl rfl rfl
  have state := served.work live k zero
  rw [work] at state
  dsimp only at state
  refine ⟨m, _, run, worked, after, ?_, fun i x slot => ?_, fun i x y slot hring off open_ => ?_,
    fun empty => ?_⟩
  · rw [state]
    dsimp only
    split
    · exact .inr rfl
    · exact .inl rfl
  · split
    · next named => exact aborts i x slot named
    · next other =>
      exact reached.others i x slot (Bool.eq_false_iff.2 (mt unstartedOf_iff.1 other))
  · exact after_calm after (aborted_calm (aborts i x slot ⟨hring, off⟩) open_) y
  · have fewer : n.ringSlots k ≤ s.ringSlots k := by
      refine ringSlots_le (fun i holds => ?_) fun fetch => ?_
      · obtain ⟨y, hy, ring⟩ := holdsSlot_of_some.1 holds
        obtain ⟨x, hx, kept⟩ := settled.kept.slot i y hy
        obtain ⟨z, hz, same⟩ := worked.slot i x hx
        exact holdsSlot_of_some.2 ⟨z, hz, same.ring.symm.trans (kept.ring.symm.trans ring)⟩
      · have same : n.workFetch = s.workFetch :=
          settled.kept.workFetch.trans worked.workFetch
        unfold fetchesFor at fetch ⊢
        rwa [same] at fetch
    have none : n.ringSlots k = 0 :=
      Nat.le_zero.1 (fewer.trans empty.le)
    rw [if_pos none] at state
    refine ⟨by rw [state], ?_⟩
    have admin : n.admin =
        some ⟨r[0], recordTag r, .closingWork k⟩ := settled.kept.admin.trans grows.admin
    have detail : closeDetail n =
        some (le16 (s.workRing k).posted ++ le16 (s.workRing k).fetched) := by
      have closes : n.workCloses k = true := by
        unfold State.workCloses
        rw [work, none]
        simp [zero]
      unfold closeDetail
      rw [admin]
      dsimp only
      rw [if_pos closes, work]
    obtain ⟨-, answer⟩ := serviced_answer served live admin detail
      (by rw [settled.kept.out, grows.out]; exact h.ring)
    obtain ⟨more, settles⟩ := settled.kept.results 0
    obtain ⟨first, aborted⟩ := grows.pending 0
    refine ⟨(first ++ more) ++ [_], ?_, List.mem_append_right _ (List.mem_singleton_self _)⟩
    rw [← List.append_assoc, ← List.append_assoc]
    refine answer.trans ?_
    rw [settles, aborted]
    rfl

end Sys2Proof.Aborts

/-! The ends of grants: what the current request makes of a line whose grant has ended, and STOP. -/

namespace Sys2Proof.GrantEnds

open Sys2Proof Sys2Proof.Machine Sys2Proof.Safety Sys2Proof.Laws Sys2Proof.NodeTable
  Sys2Proof.Registers Sys2Proof.RingFaults Sys2Proof.FieldLines Sys2Proof.SlotEnds Sys2Proof.Steps
  Sys2Proof.SlotRounds Sys2Proof.Aborts

/-! ## The end of a cut -/

/-- The cut of a line clears listen-due (R41). -/
def dueCleared (l : Line) (s : State) : State :=
  s.setEngine l { s.engine l with listenDue := false }

/-- The cut of a line returns its entries to their initial values if that was asked for (R60). -/
def forgotten (l : Line) (forget : Bool) (s : State) : State :=
  if forget then forgetLine l s else s

theorem finishCut_eq (l : Line) (disable forget : Bool) (s : State) : finishCut l disable forget s =
    adminAnswer .ok [] (if disable then enterOff l (forgotten l forget (dueCleared l s))
      else forgotten l forget (dueCleared l s)) := rfl

/-! ## What an event of a line leaves of the rest -/

/-- Between two states a line has had its grant ended, or a request or a STOP has reached it: the slots
are unchanged and so is the other line; results may have been decided, and the current request is what
it was, answered, or none. -/
structure LineOver (l : Line) (s m : State) : Prop where
  slots : m.slots = s.slots
  device : m.device = s.device
  ms : m.ms = s.ms
  adds : Adds s m
  admin : m.admin = s.admin ∨ m.admin = none ∨ ∃ a, m.admin = some a ∧ a.phase = .answered
  engine : ∀ k, k ≠ l → m.engine k = s.engine k
  table : ∀ k, k ≠ l → m.table k = s.table k
  queue : ∀ k, k ≠ l → m.queue k = s.queue k

namespace LineOver

variable {l : Line} {s n m : State}

theorem refl (l : Line) (s : State) : LineOver l s s :=
  ⟨rfl, rfl, rfl, adds_of_results rfl, .inl rfl, fun _ _ => rfl, fun _ _ => rfl, fun _ _ => rfl⟩

theorem trans (h : LineOver l s n) (k : LineOver l n m) : LineOver l s m where
  slots := k.slots.trans h.slots
  device := k.device.trans h.device
  ms := k.ms.trans h.ms
  adds := h.adds.trans k.adds
  admin := by
    rcases k.admin with same | other
    · rw [same]
      exact h.admin
    · exact .inr other
  engine c hc := (k.engine c hc).trans (h.engine c hc)
  table c hc := (k.table c hc).trans (h.table c hc)
  queue c hc := (k.queue c hc).trans (h.queue c hc)

/-- A change of the line's engine, table and queue, and of the notices and the rings' states. -/
theorem of_rest (lines : ∀ k, k ≠ l → m.engine k = s.engine k)
    (table : ∀ k, k ≠ l → m.table k = s.table k) (queue : ∀ k, k ≠ l → m.queue k = s.queue k)
    (rest : { m with lines := s.lines, nodes := s.nodes, queues := s.queues, buffer := s.buffer
                     lost := s.lost, work := s.work } = s) : LineOver l s m :=
  ⟨(congrArg State.slots rest :), (congrArg State.device rest :), (congrArg State.ms rest :),
    adds_of_results (congrArg State.results rest :), .inl (congrArg State.admin rest :), lines, table,
    queue⟩

theorem setEngine (l : Line) (s : State) (e : LineEngine) : LineOver l s (s.setEngine l e) :=
  of_rest (fun _ h => engine_setEngine_other s e h) (fun _ _ => rfl) (fun _ _ => rfl) rfl

theorem setQueue (l : Line) (s : State) (q : List QueuedCall) : LineOver l s (s.setQueue l q) :=
  of_rest (fun _ _ => rfl) (fun _ _ => rfl) (fun _ h => queue_setQueue_other s q h) rfl

theorem setTable (l : Line) (s : State) (t : Vector NodeEntry 80) : LineOver l s (s.setTable l t) :=
  of_rest (fun _ _ => rfl) (fun _ h => table_setTable_other s t h) (fun _ _ => rfl) rfl

theorem judgeRings (l : Line) (s : State) : LineOver l s (judgeRings s) :=
  of_rest (fun _ _ => rfl) (fun _ _ => rfl) (fun _ _ => rfl) rfl

theorem createNotice (l : Line) (k : Option Line) (b : NoticeBody) (s : State) :
    LineOver l s (createNotice k b s) := by
  have rest := createNotice_rest k b s
  refine of_rest (fun c _ => ?_) (fun c _ => ?_) (fun c _ => ?_) ?_
  · exact (congrArg (fun v : State => v.engine c) rest :)
  · exact (congrArg (fun v : State => v.table c) rest :)
  · exact (congrArg (fun v : State => v.queue c) rest :)
  · exact (congrArg (fun v : State => { v with
      lines := s.lines, nodes := s.nodes, queues := s.queues, work := s.work }) rest :)

theorem adminAnswer (l : Line) (st : Status) (d : List Byte) (s : State) :
    LineOver l s (adminAnswer st d s) := by
  cases admin : s.admin with
  | none =>
    unfold Machine.adminAnswer
    rw [admin]
    exact refl l s
  | some a =>
    by_cases active : (s.resultRing 0).out.state = .active
    · rw [adminAnswer_active admin active]
      exact ⟨rfl, rfl, rfl, answered_adds _ _ _ _ _, .inr (.inr ⟨_, rfl, rfl⟩), fun _ _ => rfl,
        fun _ _ => rfl, fun _ _ => rfl⟩
    · rw [adminAnswer_lost admin active]
      obtain ⟨pending, lost⟩ := (Grows.setResultRing (s := s) (q := 0)
        (r := { s.resultRing 0 with lost := min 65535 ((s.resultRing 0).lost + 1) }) rfl
        ⟨[], (List.append_nil _).symm⟩ (by dsimp only; omega)).adds
      exact ⟨rfl, rfl, rfl, ⟨pending, lost⟩, .inr (.inl rfl), fun _ _ => rfl, fun _ _ => rfl,
        fun _ _ => rfl⟩

theorem rejudgeTable (l : Line) (silence : Nat) (s : State) :
    LineOver l s (rejudgeTable l silence s) := by
  have entry : ∀ (m : State) a, LineOver l m (rejudgeEntry l silence m a) := fun m a => by
    unfold rejudgeEntry
    dsimp only
    have set := setTable l m ((m.table l).set a ((m.entry l a).rejudged silence))
    split
    · exact set.trans (createNotice l _ _ _)
    · exact set
  have round : ∀ (as : List Addr) (m : State), LineOver l m (as.foldl (rejudgeEntry l silence) m) := by
    intro as
    induction as with
    | nil => exact fun m => refl l m
    | cons a as ih => exact fun m => (entry m a).trans (ih _)
  exact round allAddrs s

theorem applyLineSet (l : Line) (c : LineConfig) (s : State) : LineOver l s (applyLineSet l c s) := by
  unfold Machine.applyLineSet
  dsimp only
  refine LineOver.trans ?_ (adminAnswer l _ _ _)
  refine (setEngine l s { s.engine l with config := c }).trans ?_
  split
  · exact rejudgeTable l _ _
  · exact refl l _

theorem enterOff (l : Line) (s : State) : LineOver l s (enterOff l s) :=
  ((setQueue l s []).trans (setEngine l _ _)).trans (judgeRings l _)

theorem finishCut (l : Line) (disable forget : Bool) (s : State) :
    LineOver l s (finishCut l disable forget s) := by
  rw [finishCut_eq]
  refine LineOver.trans ?_ (adminAnswer l _ _ _)
  have cleared : LineOver l s (forgotten l forget (dueCleared l s)) := by
    unfold forgotten dueCleared
    split
    · exact (setEngine l s _).trans (setTable l _ _)
    · exact setEngine l s _
  split
  · exact cleared.trans (enterOff l _)
  · exact cleared

theorem afterGrant (l : Line) (s : State) : LineOver l s (afterGrant l s) := by
  unfold Machine.afterGrant
  split
  · exact refl l s
  · split
    · split
      · exact applyLineSet l _ s
      · exact refl l s
    · split
      · exact finishCut l _ _ s
      · exact refl l s
    · exact refl l s

theorem grantEnded (l : Line) (s : State) : LineOver l s (grantEnded l s) :=
  (setEngine l s _).trans (afterGrant l _)

theorem stopSeries (l : Line) (s : State) : LineOver l s (stopSeries l s) := by
  unfold Machine.stopSeries
  dsimp only
  split
  · exact refl l s
  · split
    · exact setEngine l s _
    · exact setEngine l s _

theorem stopQueue (l : Line) (s : State) : LineOver l s (stopQueue l s) := by
  unfold Machine.stopQueue
  dsimp only
  split
  · split
    · exact (setQueue l s _).trans (grantEnded l _)
    · exact setEngine l s _
  · exact setQueue l s _

theorem stopLine (l : Line) (s : State) : LineOver l s (stopLine l s) :=
  (stopSeries l s).trans (stopQueue l _)

theorem slot (h : LineOver l s m) (i : SlotId) : m.slot i = s.slot i :=
  congrArg (fun v => v[i]) h.slots

/-- A request that waits for no grant of a line keeps doing so. -/
theorem still_noWaiting {k : Line} (h : LineOver l s m) (waits : noWaiting s k = true) :
    noWaiting m k = true := by
  rcases h.admin with same | none | ⟨a, answered, phase⟩
  · exact noWaiting_admin same waits
  · unfold noWaiting
    rw [none]
  · unfold noWaiting
    rw [answered]
    dsimp only
    rw [phase]

end LineOver

/-! ## STOP -/

/-- An engine once STOP has reached its series (R37, R38). -/
def seriesStopped (now : Word) (e : LineEngine) : LineEngine :=
  match e.series with
  | none => e
  | some sr =>
    if e.holder = .series then { e with series := some { sr with stopping := true } }
    else { e with
      series := none
      listenTimer := some (now + BitVec.ofNat 32 e.config.listenInterval) }

theorem stopSeries_eq (l : Line) (s : State) :
    stopSeries l s = s.setEngine l (seriesStopped s.ms (s.engine l)) := by
  unfold stopSeries seriesStopped
  dsimp only
  cases series : (s.engine l).series with
  | none => exact (setEngine_self s l).symm
  | some sr =>
    dsimp only
    split <;> rfl

theorem seriesStopped_held (now : Word) (e : LineEngine) :
    (seriesStopped now e).holder = e.holder ∧ (seriesStopped now e).state = e.state := by
  unfold seriesStopped
  cases e.series with
  | none => exact ⟨rfl, rfl⟩
  | some sr =>
    dsimp only
    split <;> exact ⟨rfl, rfl⟩

/-- An engine once STOP has reached its line (R163, R168). -/
def lineStopped (now : Word) (e : LineEngine) : LineEngine :=
  if e.holder ≠ .reflex then seriesStopped now e
  else if e.state = .idle then grantOver (seriesStopped now e)
  else { seriesStopped now e with headEnd := .emptyQueue }

/-- A reflex queue once STOP has reached its line (R163, R168). -/
def queueStopped (e : LineEngine) (q : List QueuedCall) : List QueuedCall :=
  if e.holder = .reflex ∧ e.state ≠ .idle then q else []

theorem stopLine_line {l : Line} {s : State} (waits : noWaiting s l = true) :
    (stopLine l s).engine l = lineStopped s.ms (s.engine l) ∧
      (stopLine l s).queue l = queueStopped (s.engine l) (s.queue l) := by
  have waits' := (LineOver.stopSeries l s).still_noWaiting waits
  obtain ⟨holder, state⟩ := seriesStopped_held s.ms (s.engine l)
  unfold stopLine lineStopped queueStopped
  rw [stopSeries_eq] at waits' ⊢
  generalize seriesStopped s.ms (s.engine l) = f at *
  unfold stopQueue
  dsimp only
  rw [engine_setEngine_self, holder, state]
  by_cases reflex : (s.engine l).holder = .reflex
  · rw [if_pos reflex, if_neg (not_not.2 reflex)]
    by_cases idle : (s.engine l).state = .idle
    · rw [if_pos idle, if_pos idle, if_neg fun h => h.2 idle,
        grantEnded_noWaiting (s := (s.setEngine l f).setQueue l []) waits', engine_setEngine_self]
      exact ⟨congrArg grantOver (engine_setEngine_self s l f), queue_setQueue_self _ l []⟩
    · rw [if_neg idle, if_neg idle, if_pos ⟨reflex, idle⟩, engine_setEngine_self]
      exact ⟨rfl, rfl⟩
  · rw [if_neg reflex, if_pos reflex, if_neg fun h => reflex h.1]
    exact ⟨engine_setEngine_self s l f, queue_setQueue_self _ l []⟩

theorem stopLine_emptied {l : Line} {s : State} (free : (s.engine l).holder ≠ .reflex) :
    (stopLine l s).queue l = [] := by
  unfold stopLine stopQueue
  dsimp only
  rw [stopSeries_eq, engine_setEngine_self, (seriesStopped_held _ _).1, if_neg free]
  exact queue_setQueue_self _ l []

theorem stopAborts_iff {x : Slot} : x.stopAborts = true ↔
    x.started = false ∨ (∃ w, x.work = .sweep w) ∨ ∃ w, x.work = .discover w := by
  unfold Slot.stopAborts
  rw [Bool.or_eq_true, Bool.not_eq_true']
  cases x.work <;> simp

/-- The device when STOP has begun (R199). -/
def stopping (e : Bool) (s : State) : State :=
  { s with
    intEnable := e, device := .stopping
    workFetch := s.workFetch.map fun f => { f with stopped := true } }

theorem stop_runs {e : Bool} {s : State} (high : s.resetPinLow = false)
    (running : s.device = .running) : exec (.stop e) s = .next (serviceRings (settleBoth
      (stopLine .b (stopLine .a (abortWhere Slot.stopAborts (stopping e s)))))) :=
  (exec_stop high e).trans (congrArg Host.Outcome.next (if_pos running))

theorem worked_stopLine {s m : State} (h : Worked s m) (l : Line) : Worked s (stopLine l m) := by
  have series : Worked s (stopSeries l m) := by
    rw [stopSeries_eq]
    exact worked_setEngine h _ _
  unfold stopLine stopQueue
  dsimp only
  split
  · split
    · exact worked_grantEnded (worked_setQueue series _ _) _
    · exact worked_setEngine series _ _
  · exact worked_setQueue series _ _

theorem allFree_iff {s : State} : s.allFree = true ↔ ∀ i, s.slot i = none := by
  unfold State.allFree allSlots
  simp

theorem afterBoth_kept {s t : State} (h : AfterBoth s t) : ∃ n, n.device = s.device ∧
    n.queues = s.queues ∧ Serviced n t := by
  obtain ⟨m, n, first, second, served⟩ := h
  exact ⟨n, second.kept.device.trans first.kept.device, second.kept.queues.trans first.kept.queues,
    served⟩

/-- STOP reaches both lines, each on its own. -/
theorem stopLines_line {n : State} {l : Line} (waits : noWaiting n l = true) :
    (stopLine .b (stopLine .a n)).engine l = lineStopped n.ms (n.engine l) ∧
      (stopLine .b (stopLine .a n)).queue l = queueStopped (n.engine l) (n.queue l) := by
  have first := LineOver.stopLine .a n
  have second := LineOver.stopLine .b (stopLine .a n)
  cases l with
  | a =>
    rw [second.engine .a (by simp), second.queue .a (by simp)]
    exact stopLine_line waits
  | b =>
    rw [← first.ms, ← first.engine .b (by simp), ← first.queue .b (by simp)]
    exact stopLine_line (first.still_noWaiting waits)

theorem stopLines_emptied {n : State} {l : Line} (free : (n.engine l).holder ≠ .reflex) :
    (stopLine .b (stopLine .a n)).queue l = [] := by
  cases l with
  | a =>
    rw [(LineOver.stopLine .b (stopLine .a n)).queue .a (by simp)]
    exact stopLine_emptied free
  | b =>
    refine stopLine_emptied ?_
    rwa [(LineOver.stopLine .a n).engine .b (by simp)]

/-- Settles O6. -/
theorem stopAbortsAndEmptiesTheQueues : Obligations.StopAbortsAndEmptiesTheQueues := by
  intro e s high running
  have run := stop_runs (e := e) high running
  have reached := abortWhere_reached Slot.stopAborts (stopping e s)
  have grows := abortWhere_grows Slot.stopAborts (stopping e s)
  have worked := worked_stopLine (worked_stopLine
    (worked_abortWhere (worked_refl (stopping e s)) Slot.stopAborts) .a) .b
  generalize abortWhere Slot.stopAborts (stopping e s) = n at *
  have same : ∀ i, (stopLine .b (stopLine .a n)).slot i = n.slot i := fun i =>
    ((LineOver.stopLine .b _).slot i).trans ((LineOver.stopLine .a n).slot i)
  have adds : Adds n (stopLine .b (stopLine .a n)) :=
    (LineOver.stopLine .a n).adds.trans (LineOver.stopLine .b _).adds
  have engine : ∀ l, n.engine l = s.engine l := fun l => grows.engine l
  have queue : ∀ l, n.queue l = s.queue l := fun l => grows.queue l
  have ms : n.ms = s.ms := grows.ms
  have line : ∀ l, noWaiting s l = true →
      (stopLine .b (stopLine .a n)).engine l = lineStopped s.ms (s.engine l) ∧
        (stopLine .b (stopLine .a n)).queue l = queueStopped (s.engine l) (s.queue l) :=
    fun l waits => by
      rw [← engine, ← queue, ← ms]
      exact stopLines_line (noWaiting_admin (s := s) grows.admin waits)
  have emptied : ∀ l, (s.engine l).holder ≠ .reflex → (stopLine .b (stopLine .a n)).queue l = [] :=
    fun l free => stopLines_emptied (by rwa [engine])
  have aborts : ∀ i x, s.slot i = some x → x.stopAborts = true →
      Aborted i x s (stopLine .b (stopLine .a n)) := fun i x slot named =>
    aborted_later (aborted_over (reached.named i x slot named) (fun _ => rfl) rfl rfl rfl) adds
      (same i)
  have left : ∀ i x, s.slot i = some x → x.stopAborts = false →
      (stopLine .b (stopLine .a n)).slot i = some x := fun i x slot other =>
    (same i).trans (reached.others i x slot other)
  generalize stopLine .b (stopLine .a n) = m at *
  have after : AfterBoth m (serviceRings (settleBoth m)) := afterBoth_after m
  generalize serviceRings (settleBoth m) = t at run after
  obtain ⟨o, device, queues, served⟩ := afterBoth_kept after
  have stops : o.device = .stopping := device.trans worked.device
  have shows := served.device
  rw [stops] at shows
  refine ⟨m, t, run, worked, after, ?_, ?_, fun l free => ?_, fun i x named slot hnamed =>
    ⟨fun yes => ?_, fun no => ?_⟩, fun i x y slot open_ named => ?_,
    fun l e f waits he hf => ?_⟩
  · rw [shows]
    split
    · exact .inr rfl
    · exact .inl rfl
  · have slots : (∀ i, t.slot i = none) ↔ o.allFree = true := by
      rw [allFree_iff]
      exact forall_congr' fun i => by rw [serviced_slot served]
    rw [shows, slots]
    by_cases free : o.allFree = true <;> simp [free]
  · rw [show t.queue l = m.queue l by unfold State.queue; rw [served.queues, queues]]
    exact emptied l free
  · exact aborts i x slot (stopAborts_iff.2 (hnamed.1 yes))
  · exact left i x slot (Bool.eq_false_iff.2 fun h => no (hnamed.2 (stopAborts_iff.1 h)))
  · exact afterBoth_calm after (aborted_calm (aborts i x slot (stopAborts_iff.2 named)) open_) y
  · obtain ⟨own, queued⟩ := line l waits
    have series : f = seriesStopped s.ms e := hf
    rw [own, queued, series, he]
    exact ⟨rfl, rfl⟩

end Sys2Proof.GrantEnds

/-! The settings of a line: the re-evaluation of its entries, and LINE_SET on a line without a holder and
at the end of a grant. -/

namespace Sys2Proof.Settings

open Sys2Proof Sys2Proof.Machine Sys2Proof.Safety Sys2Proof.Laws Sys2Proof.NodeTable
  Sys2Proof.Registers Sys2Proof.Decoding Sys2Proof.Requests Sys2Proof.RingFaults
  Sys2Proof.FieldLines Sys2Proof.SlotEnds Sys2Proof.Steps Sys2Proof.Windows Sys2Proof.SlotRounds
  Sys2Proof.Aborts Sys2Proof.GrantEnds

/-! ## The re-evaluation of the entries -/

theorem rejudged_eq (silence : Nat) (e : NodeEntry) :
    e.rejudged silence = underThreshold silence e := by
  obtain ⟨state⟩ := e
  unfold NodeEntry.rejudged underThreshold
  cases state <;> dsimp only <;> split <;> simp_all

/-- The notice of the re-evaluation of one entry (R48), as the table before it has it. -/
def silentNotice (l : Line) (silence : Nat) (s n : State) (a : Addr) : State :=
  if (s.entry l a).state = .present ∧ silence ≤ (s.entry l a).misses then
    createNotice (some l) (.nodeSilent a (s.entry l a).identity (s.entry l a).misses) n
  else n

theorem silentNotice_withNodes (l : Line) (silence : Nat) (s n : State) (a : Addr)
    (t : Pair (Vector NodeEntry 80)) : silentNotice l silence s { n with nodes := t } a =
      { silentNotice l silence s n a with nodes := t } := by
  unfold silentNotice
  split
  · exact (createNotice_withNodes _ _ _ _).symm
  · rfl

theorem foldl_silentNotice_withNodes (l : Line) (silence : Nat) (s : State)
    (t : Pair (Vector NodeEntry 80)) : ∀ (as : List Addr) (n : State),
    as.foldl (silentNotice l silence s) { n with nodes := t } =
      { as.foldl (silentNotice l silence s) n with nodes := t } := by
  intro as
  induction as with
  | nil => exact fun n => rfl
  | cons a as ih =>
    intro n
    rw [List.foldl_cons, silentNotice_withNodes, ih]
    rfl

theorem rejudgeEntry_eq {l : Line} {silence : Nat} {s m : State} {a : Addr}
    (same : m.entry l a = s.entry l a) : rejudgeEntry l silence m a =
      silentNotice l silence s (m.setEntry l a (underThreshold silence (m.entry l a))) a := by
  have falls : (s.entry l a).state = .present ∧
      (underThreshold silence (s.entry l a)).state = .silent ↔
        (s.entry l a).state = .present ∧ silence ≤ (s.entry l a).misses := by
    unfold underThreshold
    refine and_congr_right fun present => ?_
    simp [present]
  unfold rejudgeEntry silentNotice
  dsimp only
  rw [rejudged_eq, same]
  simp only [falls]
  rfl

/-- The entries of a list re-evaluated, with the notices of that list. -/
theorem foldl_rejudge (l : Line) (silence : Nat) (s : State) : ∀ (as : List Addr) (m : State),
    as.Nodup → (∀ a ∈ as, m.entry l a = s.entry l a) →
    (∀ a, (as.foldl (rejudgeEntry l silence) m).entry l a =
      if a ∈ as then underThreshold silence (m.entry l a) else m.entry l a) ∧
    { as.foldl (rejudgeEntry l silence) m with nodes := m.nodes } =
      as.foldl (silentNotice l silence s) m := by
  intro as
  induction as with
  | nil => exact fun m _ _ => ⟨fun a => (if_neg List.not_mem_nil).symm, rfl⟩
  | cons a as ih =>
    intro m nodup same
    obtain ⟨fresh, nodup'⟩ := List.nodup_cons.1 nodup
    have first := rejudgeEntry_eq (silence := silence) (same a List.mem_cons_self)
    have nodes : silentNotice l silence s m a =
        { rejudgeEntry l silence m a with nodes := m.nodes } := by
      rw [first, ← silentNotice_withNodes]
      rfl
    have entry : ∀ b, (rejudgeEntry l silence m a).entry l b =
        if b = a then underThreshold silence (m.entry l b) else m.entry l b := fun b => by
      have table : (rejudgeEntry l silence m a).entry l b =
          (m.setEntry l a (underThreshold silence (m.entry l a))).entry l b := by
        rw [first]
        unfold silentNotice
        split
        · exact createNotice_entry _ _ _ _ _
        · rfl
      rw [table]
      split
      · next h => rw [h, entry_setEntry_self]
      · next h => exact entry_setEntry_ne _ _ _ h
    obtain ⟨entries, notices⟩ := ih (rejudgeEntry l silence m a) nodup' fun b hb => by
      have other : b ≠ a := by
        rintro rfl
        exact fresh hb
      rw [entry, if_neg other]
      exact same b (List.mem_cons_of_mem _ hb)
    refine ⟨fun b => ?_, ?_⟩
    · rw [List.foldl_cons, entries, entry]
      by_cases own : b = a
      · subst own
        rw [if_neg fresh, if_pos rfl, if_pos List.mem_cons_self]
      · rw [if_neg own]
        simp only [List.mem_cons, own, false_or]
    · rw [List.foldl_cons, List.foldl_cons, nodes, foldl_silentNotice_withNodes, ← notices]

/-! ## The settings -/

/-- The line with its new settings, its entries re-evaluated if the silence threshold has changed (R40,
R48). -/
def withConfig (l : Line) (c : LineConfig) (s : State) : State :=
  if c.silence ≠ (s.engine l).config.silence then
    rejudgeTable l c.silence (s.setEngine l { s.engine l with config := c })
  else s.setEngine l { s.engine l with config := c }

theorem applyLineSet_eq (l : Line) (c : LineConfig) (s : State) :
    applyLineSet l c s = adminAnswer .ok [] (withConfig l c s) := rfl

theorem silentNotices_rest (l : Line) (silence : Nat) (s : State) :
    { silentNotices l silence s with buffer := s.buffer, lost := s.lost } = s := by
  have round : ∀ (as : List Addr) (n : State),
      { as.foldl (silentNotice l silence s) n with buffer := n.buffer, lost := n.lost } = n := by
    intro as
    induction as with
    | nil => exact fun n => rfl
    | cons a as ih =>
      intro n
      have one : { silentNotice l silence s n a with buffer := n.buffer, lost := n.lost } = n := by
        unfold silentNotice
        split
        · exact createNotice_rest _ _ _
        · rfl
      have rest := ih (silentNotice l silence s n a)
      exact (congrArg (fun v : State => { v with buffer := n.buffer, lost := n.lost }) rest :).trans one
  exact round allAddrs s

theorem silentNotices_setEngine (l : Line) (silence : Nat) (s : State) (k : Line) (e : LineEngine) :
    silentNotices l silence (s.setEngine k e) = (silentNotices l silence s).setEngine k e := by
  have one : ∀ (n : State) a, silentNotice l silence s (n.setEngine k e) a =
      (silentNotice l silence s n a).setEngine k e := fun n a => by
    unfold silentNotice createNotice
    split
    · show (if n.buffer.length < 16 then _ else _) = _
      split <;> rfl
    · rfl
  have round : ∀ (as : List Addr) (n : State), as.foldl (silentNotice l silence s) (n.setEngine k e) =
      (as.foldl (silentNotice l silence s) n).setEngine k e := by
    intro as
    induction as with
    | nil => exact fun n => rfl
    | cons a as ih => exact fun n => (congrArg (as.foldl _) (one n a)).trans (ih _)
  exact round allAddrs s

/-- What the settings of a line leave. -/
structure Configured (l : Line) (c : LineConfig) (s m : State) : Prop where
  rest : { m with lines := s.lines, nodes := s.nodes, buffer := s.buffer, lost := s.lost } = s
  engine : m.engine l = { s.engine l with config := c }
  otherEngine : ∀ k, k ≠ l → m.engine k = s.engine k
  table : LineSet l c s m

theorem withConfig_configured (l : Line) (c : LineConfig) (s : State) :
    Configured l c s (withConfig l c s) := by
  unfold withConfig
  split
  · next changed =>
    generalize hn : s.setEngine l { s.engine l with config := c } = n
    obtain ⟨entries, notices⟩ := foldl_rejudge l c.silence n allAddrs n (List.nodup_finRange 80)
      fun _ _ => rfl
    have silent : { rejudgeTable l c.silence n with nodes := n.nodes } =
        (silentNotices l c.silence s).setEngine l { s.engine l with config := c } := by
      rw [← silentNotices_setEngine, hn]
      exact notices
    have leaves := LineOver.rejudgeTable l c.silence n
    have engine : ∀ k, (rejudgeTable l c.silence n).engine k = n.engine k := fun k =>
      (congrArg (fun v : State => v.engine k) notices :).trans
        (congrArg (fun v : State => v.engine k) (silentNotices_rest l c.silence n) :)
    refine ⟨?_, ?_, fun k other => ?_, ⟨fun a => ?_, fun k other => ?_, ?_, ?_⟩⟩
    · exact (congrArg (fun v : State => { v with
        lines := s.lines, nodes := s.nodes, buffer := s.buffer, lost := s.lost }) silent :).trans
        (congrArg (fun v : State => { v with lines := s.lines, nodes := s.nodes })
          (silentNotices_rest l c.silence s) :)
    · rw [engine, ← hn, engine_setEngine_self]
    · rw [engine, ← hn, engine_setEngine_other s _ other]
    · rw [if_neg changed]
      have entry : n.entry l a = s.entry l a := by
        rw [← hn]
        rfl
      rw [← entry]
      exact (entries a).trans (if_pos (List.mem_finRange a))
    · refine (leaves.table k other).trans ?_
      rw [← hn]
      rfl
    · rw [if_neg changed]
      exact (congrArg State.buffer silent :)
    · rw [if_neg changed]
      exact (congrArg State.lost silent :)
  · next same =>
    have same := not_not.1 same
    refine ⟨rfl, engine_setEngine_self s l _, fun k other => engine_setEngine_other s _ other,
      ⟨fun a => (if_pos same).symm, fun k _ => rfl, ?_, ?_⟩⟩
    · rw [if_pos same]
      rfl
    · rw [if_pos same]
      rfl

/-! ## LINE_SET -/

/-- LINE_SET applies and is answered. -/
theorem applyLineSet_answered {l : Line} {c : LineConfig} {s : State} {a : AdminRequest}
    (admin : s.admin = some a) (active : (s.resultRing 0).out.state = .active) :
    applyLineSet l c s = answered a.code a.tag .ok [] (withConfig l c s) := by
  have rest := (withConfig_configured l c s).rest
  have admin' : (withConfig l c s).admin = some a := (congrArg State.admin rest :).trans admin
  have ring : (withConfig l c s).resultRing 0 = s.resultRing 0 :=
    (congrArg (fun v : State => v.resultRing 0) rest :)
  rw [applyLineSet_eq, adminAnswer_active admin' (by rw [ring]; exact active)]

theorem grantEnded_sets {l : Line} {c : LineConfig} {code : Byte} {tag : Word} {s : State}
    (admin : s.admin = some ⟨code, tag, .settingLine l c⟩)
    (active : (s.resultRing 0).out.state = .active) : grantEnded l s =
      answered code tag .ok [] (withConfig l c (s.setEngine l (grantOver (s.engine l)))) := by
  have applies : grantEnded l s = applyLineSet l c (s.setEngine l (grantOver (s.engine l))) := by
    unfold grantEnded afterGrant
    rw [show (s.setEngine l { s.engine l with
      holder := .none, step := none, next := .none, frame := [], frameStarted := false
      headEnd := .normal }).admin = _ from admin]
    exact if_pos rfl
  rw [applies]
  exact applyLineSet_answered (s := s.setEngine l _) admin active

/-- A notice is created from the time and the buffer alone. -/
theorem createNotice_congr {u v : State} (ms : u.ms = v.ms) (buffer : u.buffer = v.buffer)
    (lost : u.lost = v.lost) (k : Option Line) (b : NoticeBody) :
    (createNotice k b u).ms = (createNotice k b v).ms ∧
    (createNotice k b u).buffer = (createNotice k b v).buffer ∧
    (createNotice k b u).lost = (createNotice k b v).lost := by
  unfold createNotice
  rw [buffer]
  split
  · exact ⟨ms, by rw [ms, lost], rfl⟩
  · exact ⟨ms, rfl, by rw [lost]⟩

theorem silentNotices_congr {l : Line} {silence : Nat} {s n : State}
    (entry : n.entry l = s.entry l) (ms : n.ms = s.ms) (buffer : n.buffer = s.buffer)
    (lost : n.lost = s.lost) :
    (silentNotices l silence n).buffer = (silentNotices l silence s).buffer ∧
      (silentNotices l silence n).lost = (silentNotices l silence s).lost := by
  have same : silentNotice l silence n = silentNotice l silence s := by
    funext v a
    unfold silentNotice
    rw [entry]
  have round : ∀ (as : List Addr) (u v : State), u.ms = v.ms → u.buffer = v.buffer → u.lost = v.lost →
      (as.foldl (silentNotice l silence s) u).buffer = (as.foldl (silentNotice l silence s) v).buffer ∧
      (as.foldl (silentNotice l silence s) u).lost =
        (as.foldl (silentNotice l silence s) v).lost := by
    intro as
    induction as with
    | nil => exact fun u v _ b c => ⟨b, c⟩
    | cons a as ih =>
      intro u v ms buffer lost
      have one : (silentNotice l silence s u a).ms = (silentNotice l silence s v a).ms ∧
          (silentNotice l silence s u a).buffer = (silentNotice l silence s v a).buffer ∧
          (silentNotice l silence s u a).lost = (silentNotice l silence s v a).lost := by
        unfold silentNotice
        split
        · exact createNotice_congr ms buffer lost _ _
        · exact ⟨ms, buffer, lost⟩
      exact ih _ _ one.1 one.2.1 one.2.2
  have notices := round allAddrs n s ms buffer lost
  have whole : silentNotices l silence n = allAddrs.foldl (silentNotice l silence s) n :=
    congrArg (fun f => allAddrs.foldl f n) same
  rw [whole]
  exact notices

/-- Settings are read over any state with the same settings, entries, notices and time. -/
theorem lineSet_over {l : Line} {c : LineConfig} {s n m : State} (h : LineSet l c n m)
    (config : (n.engine l).config = (s.engine l).config) (nodes : n.nodes = s.nodes)
    (ms : n.ms = s.ms) (buffer : n.buffer = s.buffer) (lost : n.lost = s.lost) :
    LineSet l c s m := by
  have entry : ∀ k, n.entry k = s.entry k := fun k => by
    unfold State.entry State.table
    rw [nodes]
  obtain ⟨buffers, losts⟩ := silentNotices_congr (silence := c.silence) (entry l) ms buffer lost
  obtain ⟨entries, tables, notices, missed⟩ := h
  rw [config] at notices missed
  simp only [config, entry] at entries
  refine ⟨entries, fun k other => (tables k other).trans ?_, ?_, ?_⟩
  · unfold State.table
    rw [nodes]
  · rw [notices]
    split
    · exact buffer
    · exact buffers
  · rw [missed]
    split
    · exact lost
    · exact losts

/-- What a LINE_SET that has waited for the end of a grant makes of the line. -/
theorem grantEnded_set {l : Line} {c : LineConfig} {code : Byte} {tag : Word} {s : State}
    (admin : s.admin = some ⟨code, tag, .settingLine l c⟩)
    (active : (s.resultRing 0).out.state = .active) :
    (grantEnded l s).engine l = { grantOver (s.engine l) with config := c } ∧
    LineSet l c s (grantEnded l s) ∧ (∀ i, (grantEnded l s).slot i = s.slot i) ∧
    (grantEnded l s).admin = some ⟨code, tag, .answered⟩ ∧
    (grantEnded l s).resultRing 0 = { s.resultRing 0 with
      pending := (s.resultRing 0).pending ++
        [{ sender := .admin, code := code, status := .ok, ring := 0, tag := tag,
           detail := [] }] } := by
  have slots := fun i => (LineOver.grantEnded l s).slot i
  rw [grantEnded_sets admin active] at slots ⊢
  have over' := withConfig_configured l c (s.setEngine l (grantOver (s.engine l)))
  generalize withConfig l c (s.setEngine l (grantOver (s.engine l))) = n at *
  have ring : n.resultRing 0 = s.resultRing 0 :=
    (congrArg (fun v : State => v.resultRing 0) over'.rest :)
  refine ⟨?_, ?_, slots, rfl, ?_⟩
  · exact over'.engine.trans (by rw [engine_setEngine_self])
  · obtain ⟨entry, table, buffer, lost⟩ := lineSet_over (s := s) over'.table
      (by rw [engine_setEngine_self]; rfl) rfl rfl rfl rfl
    exact ⟨entry, table, buffer, lost⟩
  · rw [← ring]
    exact resultRing_setResultRing_self n 0 _

/-- LINE_SET on a line that it may change (R40, R206). -/
theorem setLine_cases {r : Record} {s : State} {l : Line} {c : LineConfig} (h : AdminReady s)
    (fields : decodeLineSet r = some (l, c)) :
    if c.rate ≠ (s.engine l).config.rate ∧ (s.engine l).state ≠ .off then
      ∃ t, exec (.lineSet r) s = .next t ∧
        Serviced (answered r[0] (recordTag r) .badState [] (requestTaken r s)) t
    else if (s.engine l).holder = .none then
      ∃ m t, exec (.lineSet r) s = .next t ∧ Worked (requestTaken r s) m ∧ After l m t ∧
        m.engine l = { s.engine l with config := c } ∧
        LineSet l c s m ∧ (∀ i, m.slot i = s.slot i) ∧ m.queues = s.queues ∧
        Answered r[0] (recordTag r) .ok [] (requestTaken r s) m
    else
      ∃ t, exec (.lineSet r) s = .next t ∧
        Serviced { requestTaken r s with
          admin := some { code := r[0], tag := recordTag r, phase := .settingLine l c } } t ∧
        t.admin = some { code := r[0], tag := recordTag r, phase := .settingLine l c } ∧
        t.lines = s.lines ∧ t.nodes = s.nodes ∧
        (t.resultRing 0).pending = (s.resultRing 0).pending := by
  have arm : exec (.lineSet r) s =
    .next (takeAdmin r (checked (decodeLineSet r) fun p => setLine p.1 p.2) s) := rfl
  split
  · next refused =>
    exact request_answered h arm fields (m := requestTaken r s) (if_pos refused) rfl h.ring
  · next allowed =>
    have run := request_runs h arm fields
    split
    · next free =>
      have sets : setLine l c (requestTaken r s) =
          settleLine l (applyLineSet l c (requestTaken r s)) :=
        (if_neg allowed).trans (if_pos free)
      rw [sets] at run
      have worked := worked_applyLineSet (worked_refl (requestTaken r s)) l c
      have slots := (LineOver.applyLineSet l c (requestTaken r s)).slot
      rw [applyLineSet_answered (s := requestTaken r s) (a := ⟨r[0], recordTag r, .answered⟩) rfl
        h.ring] at run worked slots
      have leaves := withConfig_configured l c (requestTaken r s)
      generalize withConfig l c (requestTaken r s) = n at *
      have adds : Adds (requestTaken r s) n :=
        adds_of_results (congrArg State.results leaves.rest :)
      obtain ⟨entry, table, buffer, lost⟩ := lineSet_over (s := s) leaves.table rfl rfl rfl rfl rfl
      exact ⟨_, _, run, worked, afterLine_after l _, leaves.engine, ⟨entry, table, buffer, lost⟩, slots,
        (congrArg State.queues leaves.rest :), answered_after adds _ _ _ _⟩
    · next held =>
      have waits : setLine l c (requestTaken r s) = { requestTaken r s with
          admin := some { code := r[0], tag := recordTag r, phase := .settingLine l c } } :=
        (if_neg allowed).trans (if_neg held)
      rw [waits] at run
      have served := serviceRings_serviced { requestTaken r s with
          admin := some { code := r[0], tag := recordTag r, phase := .settingLine l c } }
      obtain ⟨admin, pending, -⟩ := served.admin h.live (closeDetail_none rfl (by simp) (by simp)
        (by simp))
      exact ⟨_, run, served, admin, served.lines, served.nodes, pending⟩

/-- The end of an empty window under a LINE_SET that waits. -/
theorem windowEmpty_sets {l : Line} {c : LineConfig} {code : Byte} {tag : Word} {s : State}
    {sr : Series} (live : s.device ≠ .halted)
    (admin : s.admin = some ⟨code, tag, .settingLine l c⟩)
    (active : (s.resultRing 0).out.state = .active)
    (listening : (s.engine l).state = .listening) (unopened : (s.engine l).frameStarted = false)
    (series : (s.engine l).series = some sr) :
    ∃ m t, exec (.listenWindowEmpty l) s = .next t ∧ After l m t ∧
      m = grantEnded l (s.setEngine l { s.engine l with
        state := .idle, series := none
        listenTimer := some (s.ms + BitVec.ofNat 32 (s.engine l).config.listenInterval) }) ∧
      (m.engine l).config = c ∧ LineSet l c s m ∧ Answered code tag .ok [] s m := by
  have goes : s.cutting l = false := by
    unfold State.cutting
    rw [admin]
  have ends : endWindow l .empty s = grantEnded l (s.setEngine l { s.engine l with
      state := .idle, series := none
      listenTimer := some (s.ms + BitVec.ofNat 32 (s.engine l).config.listenInterval) }) := by
    unfold endWindow
    dsimp only
    generalize he : ({ s.engine l with
      state := .idle, frameStarted := false
      quiet := (s.engine l).quiet && WindowOutcome.empty == .empty } : LineEngine) = e
    have shows : ((s.setEngine l e).engine l).series = some sr := by
      rw [engine_setEngine_self, ← he]
      exact series
    have same : e = { s.engine l with state := .idle } := by
      rw [← he, ← unopened]
      simp
    have goes' : (s.setEngine l e).cutting l = false := goes
    rw [goes', if_neg Bool.false_ne_true, windowEnd_eq shows, engine_setEngine_self, setEngine_setEngine,
      same]
    rfl
  generalize hn : s.setEngine l { s.engine l with
      state := .idle, series := none
      listenTimer := some (s.ms + BitVec.ofNat 32 (s.engine l).config.listenInterval) } = n at ends
  have admin' : n.admin = some ⟨code, tag, .settingLine l c⟩ := by
    rw [← hn]
    exact admin
  have active' : (n.resultRing 0).out.state = .active := by
    rw [← hn]
    exact active
  obtain ⟨engine, sets, -⟩ := grantEnded_set admin' active'
  refine ⟨grantEnded l n, _, exec_windowEmpty live listening unopened, ?_, rfl, ?_, ?_, ?_⟩
  · rw [ends]
    exact afterLine_after l _
  · rw [engine]
  · rw [← hn] at sets ⊢
    exact lineSet_over (s := s) sets (by rw [engine_setEngine_self]) rfl rfl rfl rfl
  · have answer : Answered code tag .ok [] n (grantEnded l n) := by
      rw [grantEnded_sets admin' active']
      refine answered_after ?_ _ _ _ _
      exact adds_of_results (congrArg State.results (withConfig_configured l c _).rest :)
    rw [← hn] at answer ⊢
    exact answer

end Sys2Proof.Settings

/-! What neither reads nor writes the administrative request: the ends of steps and of windows, up to the
end of the grant. -/

namespace Sys2Proof.Blindness

open Sys2Proof Sys2Proof.Machine Sys2Proof.Safety Sys2Proof.Laws Sys2Proof.FieldLines
  Sys2Proof.SlotEnds Sys2Proof.Reports Sys2Proof.Steps Sys2Proof.Windows Sys2Proof.Settings

/-- A state with another administrative request. -/
def withAdmin (a : Option AdminRequest) (s : State) : State := { s with admin := a }

theorem withAdmin_slot (a : Option AdminRequest) (s : State) (i : SlotId) :
    (withAdmin a s).slot i = s.slot i := rfl

theorem withAdmin_engine (a : Option AdminRequest) (s : State) (l : Line) :
    (withAdmin a s).engine l = s.engine l := rfl

/-- An operation neither reads nor writes the administrative request. -/
def Blind (f : State → State) : Prop := ∀ a s, f (withAdmin a s) = withAdmin a (f s)

theorem Blind.comp {f g : State → State} (hg : Blind g) (hf : Blind f) : Blind fun s => g (f s) :=
  fun a s => (congrArg g (hf a s)).trans (hg a (f s))

theorem Blind.keeps {f : State → State} (h : Blind f) (s : State) : (f s).admin = s.admin := by
  have same := h s.admin s
  exact (congrArg State.admin same :)

theorem blind_foldl {α : Type} {f : State → α → State} (h : ∀ x, Blind fun s => f s x) (xs : List α) :
    Blind fun s => xs.foldl f s := by
  induction xs with
  | nil => exact fun _ _ => rfl
  | cons x xs ih => exact ih.comp (h x)

/-- Updates of the table are blind to the request. -/
theorem blind_tableUpdate {l : Line} {f : State → State} (h : TableUpdate l f) : Blind f := by
  intro a s
  rw [h.on s (n := withAdmin a s) ⟨rfl, rfl⟩ rfl rfl rfl, h.frame s]
  rfl

/-! ## The ends of slots -/

theorem blind_ended (i : SlotId) (x : Slot) (st : Status) (d : List Byte) : Blind (ended i x st d) := by
  intro a s
  by_cases takes : RingTakes x s
  · have takes' : RingTakes x (withAdmin a s) := takes
    unfold ended
    rw [if_pos takes, if_pos takes']
    rfl
  · have takes' : ¬ RingTakes x (withAdmin a s) := takes
    unfold ended
    rw [if_neg takes, if_neg takes']
    rfl

theorem blind_unlocked (i : SlotId) (x : Slot) : Blind (unlocked i x) := by
  intro a s
  unfold unlocked
  cases x.work with
  | param w =>
    dsimp only
    rw [releaseLock_eq, releaseLock_eq]
    rfl
  | _ => rfl

theorem blind_finishSlot (i : SlotId) (st : Status) : Blind (finishSlot i st) := by
  intro a s
  cases slot : s.slot i with
  | none =>
    have slot' : (withAdmin a s).slot i = none := slot
    simp only [finishSlot, slot, slot']
  | some x =>
    have slot' : (withAdmin a s).slot i = some x := slot
    have detail : slotDetail (withAdmin a s) st x = slotDetail s st x := rfl
    rw [finishSlot_eq slot, finishSlot_eq slot', detail, blind_unlocked, blind_ended]

theorem blind_commitUpdate (l : Line) (w : ParamWork) : Blind (commitUpdate l w) := by
  intro a s
  unfold commitUpdate
  cases w.outcome <;> rfl

theorem blind_endSlot (i : SlotId) (st : Status) (narrow : Bool) : Blind (endSlot i st narrow) := by
  intro a s
  cases slot : s.slot i with
  | none =>
    have slot' : (withAdmin a s).slot i = none := slot
    simp only [endSlot, slot, slot']
  | some x =>
    have slot' : (withAdmin a s).slot i = some x := slot
    cases work : x.work with
    | param w =>
      simp only [endSlot, slot, slot', work, finishCommit]
      split
      · exact (blind_finishSlot i st).comp (blind_commitUpdate x.line _) a (s.setSlot i _)
      · exact blind_finishSlot i st a (s.setSlot i _)
    | discover w =>
      simp only [endSlot, slot, slot', work]
      exact blind_finishSlot i st a (s.setSlot i _)
    | _ =>
      simp only [endSlot, slot, slot', work]
      exact blind_finishSlot i st a s

theorem blind_decideSlot (i : SlotId) (x : Slot) (w : Work) (st : Status) (narrow : Bool) :
    Blind (decideSlot i x w st narrow) := fun a s =>
  blind_endSlot i st narrow a (s.setSlot i (some { x with work := w }))

theorem blind_stepFollows (i : SlotId) (x : Slot) (w : Work) : Blind (stepFollows i x w) :=
  fun _ _ => rfl

theorem blind_pauseSlot (i : SlotId) (x : Slot) (w : Work) : Blind (pauseSlot i x w) :=
  fun _ _ => rfl

/-! ## The ends of steps -/

theorem blind_callStepEnd (i : SlotId) (x : Slot) (w : CallWork) (g : Bool) (o : TryOutcome) :
    Blind (callStepEnd i x w g o) := by
  intro a s
  unfold callStepEnd
  rw [blind_tableUpdate (tableUpdate_followUnassign x.line w o) a s]
  cases o with
  | replied r =>
    dsimp only
    cases r.status with
    | busy =>
      dsimp only
      split
      · split
        · exact blind_decideSlot ..
        · exact blind_pauseSlot ..
      · exact blind_decideSlot ..
    | _ => exact blind_decideSlot ..
  | _ => exact blind_decideSlot ..

theorem blind_sweepStepEnd (i : SlotId) (x : Slot) (w : SweepWork) : Blind (sweepStepEnd i x w) := by
  intro a s
  unfold sweepStepEnd
  split
  · exact blind_decideSlot ..
  · exact blind_stepFollows ..

theorem blind_commitAborts (i : SlotId) (x : Slot) (w : ParamWork) (narrow : Bool) (c : CommitCont) :
    Blind (commitAborts i x w narrow c) := by
  intro a s
  unfold commitAborts
  cases c with
  | pause =>
    dsimp only
    split
    · exact blind_decideSlot ..
    · exact blind_pauseSlot ..
  | _ => exact blind_decideSlot ..

theorem blind_goOn (i : SlotId) (x : Slot) (w : ParamWork) : Blind fun s =>
    if w.budgetPassed then decideSlot i x (.param w) .commitTimeout true s
    else stepFollows i x (.param w) s := by
  intro a s
  dsimp only
  split
  · exact blind_decideSlot ..
  · exact blind_stepFollows ..

theorem blind_commitContinues (i : SlotId) (x : Slot) (w : ParamWork) (polled : Bool) (c : CommitCont) :
    Blind (commitContinues i x w polled c) := by
  intro a s
  unfold commitContinues
  cases c with
  | result st data => exact blind_decideSlot ..
  | pause =>
    dsimp only
    split
    · unfold pausePastBudget
      split
      · exact blind_decideSlot ..
      · exact blind_stepFollows ..
    · exact blind_pauseSlot ..
  | step => exact blind_goOn i x w a s
  | failed =>
    dsimp only
    cases w.nextAttempt with
    | none => exact blind_decideSlot ..
    | some w' => exact blind_goOn i x w' a s

theorem blind_commitStepEnd (i : SlotId) (x : Slot) (w : ParamWork) (o : TryOutcome) :
    Blind (commitStepEnd i x w o) := by
  intro a s
  unfold commitStepEnd
  cases w.phase with
  | none => rfl
  | some p =>
    dsimp only
    split
    · exact blind_commitAborts ..
    · exact blind_commitContinues ..

theorem blind_discoverContinues (i : SlotId) (x : Slot) (w : DiscoverWork) :
    Blind (discoverContinues i x w) := by
  intro a s
  unfold discoverContinues
  split
  · exact blind_stepFollows ..
  · exact blind_decideSlot ..

theorem blind_discoverStepEnd (i : SlotId) (x : Slot) (w : DiscoverWork) (o : TryOutcome) :
    Blind (discoverStepEnd i x w o) := by
  intro a s
  unfold discoverStepEnd
  rw [blind_tableUpdate (tableUpdate_followAssign x.line w o) a s]
  have judged : w.judgedStep (withAdmin a (followAssign x.line w o s)) x.line o =
      w.judgedStep (followAssign x.line w o s) x.line o := rfl
  dsimp only
  rw [judged]
  split
  · exact blind_decideSlot ..
  · exact blind_discoverContinues ..

theorem blind_slotStepEnd (i : SlotId) (st : Step) (o : TryOutcome) : Blind (slotStepEnd i st o) := by
  intro a s
  unfold slotStepEnd
  rw [withAdmin_slot]
  cases s.slot i with
  | none => rfl
  | some x =>
    dsimp only
    cases x.work with
    | call w => exact blind_callStepEnd ..
    | sweep w => exact blind_sweepStepEnd ..
    | param w => exact blind_commitStepEnd ..
    | discover w => exact blind_discoverStepEnd ..
    | unknown => rfl

/-! ## The ends of tries and windows -/

theorem blind_markUnverified (l : Line) : Blind (markUnverified l) := by
  intro a s
  unfold markUnverified
  rw [withAdmin_engine]
  cases (s.engine l).holder with
  | slot i =>
    dsimp only
    rw [withAdmin_slot]
    cases s.slot i with
    | none => rfl
    | some x =>
      dsimp only
      cases x.work with
      | param w =>
        dsimp only
        split <;> rfl
      | _ => rfl
  | _ => rfl

theorem blind_noteLostCommit (l : Line) (o : TryOutcome) : Blind (noteLostCommit l o) := by
  cases o with
  | noReply => exact blind_markUnverified l
  | garbled => exact blind_markUnverified l
  | _ => exact fun _ _ => rfl

theorem blind_notePending (l : Line) (o : TryOutcome) : Blind (notePending l o) := by
  intro a s
  rw [notePending_eq, notePending_eq]
  rfl

theorem blind_windowEnd (l : Line) (out : WindowOutcome) : Blind (windowEnd l out) := by
  intro a s
  unfold windowEnd
  dsimp only
  rw [withAdmin_engine]
  cases (s.engine l).series with
  | none => rfl
  | some sr =>
    dsimp only
    split
    · rfl
    · split
      · rfl
      · split <;> rfl

theorem blind_queueAfterGrant (l : Line) : Blind (queueAfterGrant l) := by
  intro a s
  unfold queueAfterGrant
  rw [withAdmin_engine]
  cases (s.engine l).headEnd <;> rfl

/-! ## The settings at the end of a grant -/

/-- The end of a grant, whether a LINE_SET waits for it or not. -/
theorem grantEnded_withSettings {l : Line} {c : LineConfig} {code : Byte} {tag : Word} {p : State}
    (admin : p.admin = some ⟨code, tag, .settingLine l c⟩)
    (active : (p.resultRing 0).out.state = .active) :
    WithSettings l c code tag (grantEnded l (withAdmin none p)) (grantEnded l p) := by
  rw [grantEnded_sets admin active, grantEnded_noWaiting (s := withAdmin none p) rfl]
  generalize hq : p.setEngine l (grantOver (p.engine l)) = q
  have plain : (withAdmin none p).setEngine l (grantOver ((withAdmin none p).engine l)) =
      withAdmin none q := congrArg (withAdmin none) hq
  rw [plain]
  obtain ⟨rest, engine, otherEngine, table⟩ := withConfig_configured l c q
  generalize withConfig l c q = v at *
  obtain ⟨entry, otherTable, buffer, lost⟩ :=
    lineSet_over (s := withAdmin none q) table rfl rfl rfl rfl rfl
  have ring : ∀ k, v.resultRing k = q.resultRing k := fun k =>
    (congrArg (fun u : State => u.resultRing k) rest :)
  have own : (answered code tag .ok [] v).resultRing 0 = _ := resultRing_setResultRing_self v 0 _
  have others : ∀ k, k ≠ 0 → (answered code tag .ok [] v).resultRing k = q.resultRing k :=
    fun k other => (resultRing_setResultRing_ne v _ other).trans (ring k)
  refine ⟨engine, otherEngine, ⟨entry, otherTable, buffer, lost⟩, rfl, ?_, fun k => ?_, others, ?_⟩
  · rw [own, ring]
    rfl
  · by_cases zero : k = 0
    · subst zero
      rw [own, ring]
      rfl
    · rw [others k zero]
      rfl
  · exact (congrArg (fun u : State => withAdmin none { u with results := q.results }) rest :)

/-- The work of a command before the end of the grant, the same with and without a request. -/
structure Ending (l : Line) (s : State) (f g : State → State) : Prop where
  blind : Blind f
  worked : Worked s (f s)
  ends : ∀ a, noCut (withAdmin a s) l = true → g (withAdmin a s) = grantEnded l (f (withAdmin a s))

theorem ending_withSettings {l : Line} {s : State} {f g : State → State} (h : Ending l s f g)
    {c : LineConfig} {code : Byte} {tag : Word}
    (admin : s.admin = some ⟨code, tag, .settingLine l c⟩)
    (active : (s.resultRing 0).out.state = .active) :
    WithSettings l c code tag (g (withAdmin none s)) (g s) := by
  have goes : noCut s l = true := by
    unfold noCut
    rw [admin]
  have whole : g s = grantEnded l (f s) := h.ends s.admin goes
  rw [whole, h.ends none rfl, h.blind none s]
  exact grantEnded_withSettings ((h.blind.keeps s).trans admin)
    ((congrArg OutputRing.state (h.worked.out 0) :).trans active)

theorem blind_tried (l : Line) (st : Step) (o : TryOutcome) : Blind (tried l st o) := fun a s =>
  blind_noteLostCommit l o a (s.setEngine l ((s.engine l).afterTry (st.afterTry o) o))

theorem worked_tried (l : Line) (st : Step) (o : TryOutcome) (s : State) : Worked s (tried l st o s) :=
  worked_noteLostCommit (worked_setEngine (worked_refl s) l _) l o

theorem tried_holder (l : Line) (st : Step) (o : TryOutcome) (s : State) :
    ((tried l st o s).engine l).holder = (s.engine l).holder ∧
      ((tried l st o s).engine l).series = (s.engine l).series := by
  have engine : (tried l st o s).engine l = (s.engine l).afterTry (st.afterTry o) o :=
    (congrArg (fun m : State => m.engine l) (tried_rest l st o s) :).trans
      (engine_setEngine_self s l _)
  rw [engine]
  exact ⟨rfl, rfl⟩

theorem blind_reported (l : Line) (st : Step) (o : TryOutcome) : Blind (reported l st o) :=
  (blind_notePending l o).comp
    ((blind_tableUpdate (tableUpdate_reportStep l _ _ o)).comp (blind_tried l st o))

theorem worked_reported (l : Line) (st : Step) (o : TryOutcome) (s : State) :
    Worked s (reported l st o s) :=
  worked_notePending (worked_reportStep (worked_tried l st o s) l _ _ o) l o

/-- The end of the last try of a holder's step ends its grant. -/
theorem endTry_ending {l : Line} {s : State} {st : Step} {o : TryOutcome}
    (step : (s.engine l).step = some st) (held : (s.engine l).holder ≠ .none)
    (last : stepOver (s.engine l) (st.afterTry o) o = true) : ∃ f, Ending l s f (endTry l o) := by
  have whole : ∀ a, noCut (withAdmin a s) l = true → endTry l o (withAdmin a s) =
      endStep l (st.afterTry o) o (tried l st o (withAdmin a s)) := fun a goes =>
    endTry_over (s := withAdmin a s) step goes last
  have holder : ∀ a, ((tried l st o (withAdmin a s)).engine l).holder = (s.engine l).holder :=
    fun a => (tried_holder l st o (withAdmin a s)).1
  have series : ∀ a, ((tried l st o (withAdmin a s)).engine l).series = (s.engine l).series :=
    fun a => (tried_holder l st o (withAdmin a s)).2
  cases hold : (s.engine l).holder with
  | none => exact absurd hold held
  | slot i =>
    refine ⟨fun s => slotStepEnd i (st.afterTry o) o (reported l st o s),
      (blind_slotStepEnd i _ o).comp (blind_reported l st o),
      worked_slotStepEnd (worked_reported l st o s) i _ o, fun a goes => ?_⟩
    rw [whole a goes]
    unfold endStep
    rw [holder, hold]
    rfl
  | reflex =>
    refine ⟨fun s => queueAfterGrant l (tried l st o s),
      (blind_queueAfterGrant l).comp (blind_tried l st o),
      worked_queueAfterGrant (worked_tried l st o s) l, fun a goes => ?_⟩
    rw [whole a goes]
    unfold endStep
    rw [holder, hold]
  | series =>
    cases ser : (s.engine l).series with
    | none =>
      refine ⟨tried l st o, blind_tried l st o, worked_tried l st o s, fun a goes => ?_⟩
      rw [whole a goes]
      unfold endStep
      rw [holder, hold]
      dsimp only
      rw [series, ser]
    | some sr =>
      cases ack : sr.ack with
      | none =>
        refine ⟨fun s => windowEnd l .empty (tried l st o s),
          (blind_windowEnd l _).comp (blind_tried l st o),
          worked_windowEnd (worked_tried l st o s) l _, fun a goes => ?_⟩
        rw [whole a goes]
        unfold endStep
        rw [holder, hold]
        dsimp only
        rw [series, ser]
        dsimp only
        rw [ack]
      | some k =>
        refine ⟨fun s => windowEnd l .valid (reported l st o s),
          (blind_windowEnd l _).comp (blind_reported l st o),
          worked_windowEnd (worked_reported l st o s) l _, fun a goes => ?_⟩
        rw [whole a goes]
        unfold endStep
        rw [holder, hold]
        dsimp only
        rw [series, ser]
        dsimp only
        rw [ack]
        rfl

/-- The end of a window without a valid notice ends its grant. -/
theorem endWindow_ending (l : Line) (s : State) (out : WindowOutcome) :
    ∃ f, Ending l s f (endWindow l out) := by
  refine ⟨fun s => windowEnd l out (s.setEngine l { s.engine l with
      state := .idle, frameStarted := false, quiet := (s.engine l).quiet && out == .empty }),
    fun a s => blind_windowEnd l out a (s.setEngine l _),
    worked_windowEnd (worked_setEngine (worked_refl s) l _) l out, fun a goes => ?_⟩
  have uncut : ∀ e, ((withAdmin a s).setEngine l e).cutting l = false := fun e => by
    have same : ((withAdmin a s).setEngine l e).cutting l = (withAdmin a s).cutting l := rfl
    rw [same, cutting_iff, goes]
    rfl
  unfold endWindow
  dsimp only
  rw [uncut, if_neg Bool.false_ne_true]

theorem stepOver_last {e : LineEngine} {st : Step} {o : TryOutcome}
    (last : o = .noReply ∨ o = .garbled ∨ o = .collided → st.retryLimit < st.tries) :
    stepOver e (st.afterTry o) o = true := by
  unfold stepOver
  cases o with
  | sent => rfl
  | replied r => rfl
  | noReply => exact Bool.or_eq_true_iff.2 (.inl (decide_eq_true (last (.inl rfl))))
  | garbled => exact Bool.or_eq_true_iff.2 (.inl (decide_eq_true (last (.inr (.inl rfl)))))
  | collided => exact Bool.or_eq_true_iff.2 (.inl (decide_eq_true (last (.inr (.inr rfl)))))

/-- Settles O24. -/
theorem lineSetAppliesBetweenGrants : Obligations.LineSetAppliesBetweenGrants := by
  refine ⟨fun r s l c h fields => setLine_cases h fields,
    fun l c code tag s admin active => grantEnded_set admin active,
    fun l c code tag s sr live admin active listening unopened series =>
      windowEmpty_sets live admin active listening unopened series,
    fun l c code tag s n i live admin active cases => ?_⟩
  rcases cases with ⟨st, o, step, held, ends, notListen, last, rfl⟩ | ⟨listening, started, hi, rfl⟩
  · obtain ⟨f, ending⟩ := endTry_ending step held (stepOver_last last)
    exact ⟨_, _, _,
      tryEnds_exec (s := withAdmin none s) live step ends fun _ sent holder => notListen holder sent,
      afterLine_after l _, tryEnds_exec live step ends fun _ sent holder => notListen holder sent,
      afterLine_after l _, ending_withSettings ending admin active⟩
  · obtain ⟨f, ending⟩ := endWindow_ending l s .garbled
    exact ⟨_, _, _, exec_windowGarbled (s := withAdmin none s) live listening started hi,
      afterLine_after l _, exec_windowGarbled live listening started hi, afterLine_after l _,
      ending_withSettings ending admin active⟩

end Sys2Proof.Blindness

/-! Cuts: what LINE_RESET and LINE_DISABLE end of a line at once, and the end of the cut. -/

namespace Sys2Proof.Cuts

open Sys2Proof Sys2Proof.Machine Sys2Proof.Safety Sys2Proof.Laws Sys2Proof.NodeTable
  Sys2Proof.Registers Sys2Proof.Decoding Sys2Proof.Requests Sys2Proof.RingFaults
  Sys2Proof.FieldLines Sys2Proof.SlotEnds Sys2Proof.Reports Sys2Proof.Steps Sys2Proof.Windows
  Sys2Proof.CommitSteps Sys2Proof.SlotRounds Sys2Proof.Aborts Sys2Proof.GrantEnds
  Sys2Proof.Settings Sys2Proof.Blindness

/-! ## The end of a cut -/

/-- The line once its cut has ended, before the answer (R41, R42, R60). -/
def cutDone (l : Line) (disable forget : Bool) (s : State) : State :=
  if disable then enterOff l (forgotten l forget (dueCleared l s))
  else forgotten l forget (dueCleared l s)

/-- The engine of a line that a cut has taken OFF, or that goes on (R41, R42). -/
def engineDone (disable : Bool) (e : LineEngine) : LineEngine :=
  if disable then { e with
    state := .off, lowTimer := 0, debounce := none, settle := none, listenTimer := none,
    listenDue := false, series := none, quiet := false }
  else { e with listenDue := false }

/-- What the end of a cut leaves of a line. -/
structure CutLeaves (l : Line) (disable forget : Bool) (s m : State) : Prop where
  engine : m.engine l = engineDone disable (s.engine l)
  queue : m.queue l = if disable then [] else s.queue l
  otherQueue : ∀ k, k ≠ l → m.queue k = s.queue k
  forgets : forget = true → ∀ a, m.entry l a = NodeEntry.initial
  nodes : forget = false → m.nodes = s.nodes
  rest : { m with lines := s.lines, nodes := s.nodes, queues := s.queues, work := s.work } = s

theorem forgetLine_entry (l : Line) (s : State) (a : Addr) :
    (forgetLine l s).entry l a = NodeEntry.initial := by
  unfold forgetLine State.entry
  rw [table_setTable_self]
  exact Vector.getElem_replicate _

theorem cutDone_leaves (l : Line) (disable forget : Bool) (s : State) :
    CutLeaves l disable forget s (cutDone l disable forget s) := by
  generalize hn : forgotten l forget (dueCleared l s) = n
  have engine : n.engine l = { s.engine l with listenDue := false } := by
    rw [← hn]
    unfold forgotten
    split <;> exact engine_setEngine_self s l _
  have queue : n.queues = s.queues := by
    rw [← hn]
    unfold forgotten
    split <;> rfl
  have entry : forget = true → ∀ a, n.entry l a = NodeEntry.initial := by
    rintro rfl a
    rw [← hn]
    exact forgetLine_entry l _ a
  have nodes : forget = false → n.nodes = s.nodes := by
    rintro rfl
    rw [← hn]
    rfl
  have rest : { n with lines := s.lines, nodes := s.nodes } = s := by
    rw [← hn]
    unfold forgotten
    split <;> rfl
  have same : ∀ k, n.queue k = s.queue k := fun k => by
    unfold State.queue
    rw [queue]
  unfold cutDone
  rw [hn]
  cases disable with
  | false =>
    exact ⟨engine, same l, fun k _ => same k, entry, nodes,
      (congrArg (fun v : State => { v with queues := s.queues, work := s.work }) rest :)⟩
  | true =>
    refine ⟨?_, queue_setQueue_self n l [], fun k other => ?_, entry, nodes,
      (congrArg (fun v : State => { v with queues := s.queues, work := s.work }) rest :)⟩
    · have off : (enterOff l n).engine l = { n.engine l with
          state := .off, lowTimer := 0, debounce := none, settle := none, listenTimer := none,
          listenDue := false, series := none, quiet := false } := engine_setEngine_self n l _
      refine off.trans ?_
      rw [engine]
      rfl
    · exact (queue_setQueue_other n [] other).trans (same k)

/-- The end of a cut answers the request (R41). -/
theorem finishCut_answered {l : Line} {disable forget : Bool} {s : State} {a : AdminRequest}
    (admin : s.admin = some a) (active : (s.resultRing 0).out.state = .active) :
    finishCut l disable forget s = answered a.code a.tag .ok [] (cutDone l disable forget s) := by
  have rest := (cutDone_leaves l disable forget s).rest
  have whole : finishCut l disable forget s = adminAnswer .ok [] (cutDone l disable forget s) := rfl
  have admin' : (cutDone l disable forget s).admin = some a := (congrArg State.admin rest :).trans admin
  rw [whole, adminAnswer_active admin'
    ((congrArg (fun v : State => (v.resultRing 0).out.state) rest :).trans active)]

theorem grantEnded_cuts {l : Line} {disable forget : Bool} {code : Byte} {tag : Word} {s : State}
    (admin : s.admin = some ⟨code, tag, .cutting l disable forget⟩)
    (active : (s.resultRing 0).out.state = .active) : grantEnded l s = answered code tag .ok []
      (cutDone l disable forget (s.setEngine l (grantOver (s.engine l)))) := by
  have ends : grantEnded l s = finishCut l disable forget (s.setEngine l (grantOver (s.engine l))) := by
    unfold grantEnded afterGrant
    rw [show (s.setEngine l { s.engine l with
      holder := .none, step := none, next := .none, frame := [], frameStarted := false
      headEnd := .normal }).admin = _ from admin]
    exact if_pos rfl
  rw [ends]
  exact finishCut_answered (s := s.setEngine l _) admin active

/-! ## What waits on the line -/

/-- What the application of a cut makes of a slot (R86). -/
def cuts (l : Line) (x : Slot) : Verdict :=
  if x.line = l ∧ x.state ≠ .finishing ∧ x.state ≠ .onLine then .ends x .lineReset else .stays

theorem cutSlot_eq (l : Line) : cutSlot l = visit fun _ => cuts l := by
  funext s i
  unfold cutSlot visit cuts
  cases slot : s.slot i with
  | none => rfl
  | some x =>
    dsimp only
    have ends : endSlot i .lineReset false s = carryOut i s (.ends x .lineReset) := by
      show _ = endSlot i .lineReset false (s.setSlot i (some x))
      rw [setSlot_self slot]
    by_cases line : x.line = l
    · rw [if_pos line, ends]
      cases state : x.state with
      | finishing => rw [if_neg (by simp)]; rfl
      | onLine => rw [if_neg (by simp)]; rfl
      | _ => rw [if_pos ⟨line, by simp⟩]
    · rw [if_neg line, if_neg fun h => line h.1]
      rfl

/-- An engine once a cut has reached its series (R33). -/
def seriesCut (now : Word) (e : LineEngine) : LineEngine :=
  if e.holder = .series ∨ e.series = none then e
  else { e with
    series := none
    listenTimer := some (now + BitVec.ofNat 32 e.config.listenInterval) }

theorem seriesCut_eq (l : Line) (s : State) :
    cutSeries l s = s.setEngine l (seriesCut s.ms (s.engine l)) := by
  have stays : s = s.setEngine l (s.engine l) := (setEngine_self s l).symm
  by_cases kept : (s.engine l).holder = .series ∨ (s.engine l).series = none
  · have same : cutSeries l s = s := by
      unfold cutSeries
      rcases kept with holder | series
      · rw [holder]
      · rw [series]
        cases (s.engine l).holder <;> rfl
    rw [same, seriesCut, if_pos kept]
    exact stays
  · have ends : cutSeries l s = endSeries l s := by
      obtain ⟨holder, series⟩ := not_or.1 kept
      unfold cutSeries
      have some_ := Option.isSome_iff_ne_none.2 series
      cases h : (s.engine l).holder with
      | series => exact absurd h holder
      | _ => exact if_pos some_
    rw [ends, seriesCut, if_neg kept]
    rfl

/-- A reflex queue once a cut has reached its line (R167). -/
def queueCut (e : LineEngine) (q : List QueuedCall) : List QueuedCall :=
  if e.holder = .reflex then q else []

theorem queueCut_eq (l : Line) (s : State) :
    cutQueue l s = s.setQueue l (queueCut (s.engine l) (s.queue l)) := by
  unfold cutQueue queueCut
  cases (s.engine l).holder with
  | reflex => cases l <;> rfl
  | _ => rfl

theorem cutWaiting_eq (l : Line) (s : State) : cutWaiting l s =
    ((visitAll (fun _ => cuts l) s).setQueue l (queueCut (s.engine l) (s.queue l))).setEngine l
      (seriesCut s.ms (s.engine l)) := by
  have grows := visitAll_grows (fun _ => cuts l) s
  have slots : allSlots.foldl (cutSlot l) s = visitAll (fun _ => cuts l) s :=
    congrArg (fun f => allSlots.foldl f s) (cutSlot_eq l)
  unfold cutWaiting
  rw [slots]
  generalize visitAll (fun _ => cuts l) s = v at *
  have ms : (v.setQueue l (queueCut (s.engine l) (s.queue l))).ms = s.ms := grows.ms
  have engine : (v.setQueue l (queueCut (s.engine l) (s.queue l))).engine l = s.engine l :=
    grows.engine l
  rw [queueCut_eq, seriesCut_eq, grows.engine, grows.queue, ms, engine]

theorem cuts_plain (l : Line) (s : State) : Plain (fun _ => cuts l)
    (fun _ x => x.line = l ∧ x.state ≠ .finishing ∧ x.state ≠ .onLine) s := by
  intro i x _
  show _ ∨ _ ∧ ∀ y st, cuts l x ≠ .ends y st
  by_cases cut : x.line = l ∧ x.state ≠ .finishing ∧ x.state ≠ .onLine
  · exact .inl ⟨cut, .lineReset, .inr rfl, if_pos cut⟩
  · refine .inr ⟨cut, fun y st => ?_⟩
    have stays : cuts l x = .stays := if_neg cut
    rw [stays]
    nofun

/-! ## What a cut has made of a slot -/

/-- Between two states the application of a cut has reached a slot. -/
def Reset (l : Line) (i : SlotId) (x : Slot) (s m : State) : Prop :=
  if x.line = l then CutOff i x s m else m.slot i = some x

theorem visit_reset {l : Line} {s : State} {i : SlotId} {x : Slot} (slot : s.slot i = some x) :
    Reset l i x s (visitAll (fun _ => cuts l) s) := by
  have met := visitAll_met (fun _ => cuts l) s slot
  unfold cuts at met
  unfold Reset
  by_cases line : x.line = l
  · rw [if_pos line]
    refine ⟨fun still => ?_, fun open_ free => ?_⟩
    · rw [if_neg fun h => still.elim h.2.1 h.2.2] at met
      exact met
    · rw [if_pos ⟨line, open_, free⟩] at met
      exact (endedBy_iff (.inr rfl)).2 met
  · rw [if_neg line]
    rw [if_neg fun h => line h.1] at met
    exact met

theorem endedBy_over {st : Status} {i : SlotId} {x : Slot} {s n m : State} (h : EndedBy st i x n m)
    (bound : ∀ r, (n.workRing r).bound = (s.workRing r).bound) (results : n.results = s.results)
    (nodes : n.nodes = s.nodes) (ms : n.ms = s.ms) : EndedBy st i x s m := by
  have ring : n.resultRing = s.resultRing := funext fun q => congrArg (fun v => v[q]) results
  have detail : ∀ z, endedDetail n st z = endedDetail s st z := fun z => by
    unfold endedDetail State.table
    rw [nodes, ms]
  obtain ⟨taken, lost⟩ := h
  unfold RingTakes at taken lost
  rw [bound, ring, detail] at taken
  rw [bound, ring] at lost
  exact ⟨taken, lost⟩

theorem Reset.over {l : Line} {i : SlotId} {x : Slot} {s n m : State} (h : Reset l i x n m)
    (bound : ∀ r, (n.workRing r).bound = (s.workRing r).bound) (results : n.results = s.results)
    (nodes : n.nodes = s.nodes) (ms : n.ms = s.ms) : Reset l i x s m := by
  unfold Reset at h ⊢
  split at h
  · next line =>
    rw [if_pos line]
    exact ⟨h.left, fun a b => endedBy_over (h.ends a b) bound results nodes ms⟩
  · next line =>
    rw [if_neg line]
    exact h

theorem Reset.later {l : Line} {i : SlotId} {x : Slot} {s n m : State} (h : Reset l i x s n)
    (adds : Adds n m) (slot : m.slot i = n.slot i) : Reset l i x s m := by
  unfold Reset at h ⊢
  split at h
  · next line =>
    rw [if_pos line]
    exact ⟨fun still => slot.trans (h.left still), fun a b => endsAmong_later (h.ends a b) adds slot⟩
  · next line =>
    rw [if_neg line]
    exact slot.trans h

/-! ## The cut of the slot that holds the line -/

/-- What a cut makes of the work of a slot's step, whose last try has ended with an outcome or none was
in progress (R86, R101, R124, R141). -/
def cutWork (last : Option TryOutcome) : Work → Work
  | .call w => .call (match last with
    | some (.replied r) => { w with allGarbled := false }.withReply r
    | _ => { w with allGarbled := false })
  | .sweep w => .sweep (match last with
    | some (.replied _) => w.pinged
    | _ => w)
  | .param w => .param (match w.phase, last with
    | some p, some (.replied r) => (phaseReply p r w.countPoll).1
    | _, _ => w.countPoll)
  | .discover w => .discover (w.cutStep last)
  | .unknown => .unknown

/-- A slot as a cut of its step leaves it before its end. -/
def cutForm (tries : Nat) (last : Option TryOutcome) (x : Slot) : Slot :=
  { x with tries := tries, work := cutWork last x.work }

/-- The table follows an UNASSIGN or an ASSIGN whose step is cut (R53 to R55, R86, R141). -/
def tableFollows (last : Option TryOutcome) (x : Slot) (s : State) : State :=
  match x.work, last with
  | .call w, some o => followUnassign x.line w o s
  | .discover w, some o => followAssign x.line w o s
  | _, _ => s

theorem followUnassign_unheard {l : Line} {w : CallWork} {o : TryOutcome} {s : State}
    (h : o = .noReply ∨ o = .garbled ∨ o = .collided) : followUnassign l w o s = s := by
  unfold followUnassign
  split
  · rcases h with rfl | rfl | rfl <;> cases w.target <;> rfl
  · rfl

theorem slotCut_eq {s : State} {i : SlotId} {x : Slot} (slot : s.slot i = some x)
    (known : x.work ≠ .unknown) (n : Nat) (last : Option TryOutcome) : slotCut i n last s =
      carryOut i (tableFollows last x s) (.ends (cutForm n last x) .lineReset) := by
  unfold slotCut cutForm tableFollows
  rw [slot]
  dsimp only
  cases work : x.work with
  | unknown => exact absurd work known
  | sweep w =>
    dsimp only [sweepCut]
    cases last with
    | none => rfl
    | some o => cases o <;> rfl
  | param w =>
    dsimp only [commitCut, cutWork]
    cases w.phase with
    | none => rfl
    | some p =>
      cases last with
      | none => rfl
      | some o => cases o <;> rfl
  | discover w =>
    dsimp only [discoverCut]
    cases last <;> rfl
  | call w =>
    dsimp only [callCut]
    cases last with
    | none => rfl
    | some o =>
      cases o with
      | sent => rfl
      | replied r => rfl
      | noReply => dsimp only; rw [followUnassign_unheard (.inl rfl)]; rfl
      | garbled => dsimp only; rw [followUnassign_unheard (.inr (.inl rfl))]; rfl
      | collided => dsimp only; rw [followUnassign_unheard (.inr (.inr rfl))]; rfl

theorem slotCut_free {s : State} {i : SlotId} (slot : s.slot i = none) (n : Nat)
    (last : Option TryOutcome) : slotCut i n last s = s := by
  unfold slotCut
  rw [slot]

theorem slotCut_unknown {s : State} {i : SlotId} {x : Slot} (slot : s.slot i = some x)
    (work : x.work = .unknown) (n : Nat) (last : Option TryOutcome) : slotCut i n last s = s := by
  unfold slotCut
  rw [slot]
  dsimp only
  rw [work]

theorem tableFollows_none (x : Slot) (s : State) : tableFollows none x s = s := by
  unfold tableFollows
  cases x.work <;> rfl

/-! ## Slots end whatever the lines and the queues are -/

/-- A state with other lines and queues. -/
def aside (lines : Pair LineEngine) (queues : Pair (List QueuedCall)) (s : State) : State :=
  { s with lines := lines, queues := queues }

theorem carryOut_aside (L : Pair LineEngine) (Q : Pair (List QueuedCall)) (i : SlotId) (s : State)
    (o : Verdict) : carryOut i (aside L Q s) o = aside L Q (carryOut i s o) := by
  cases o with
  | stays => rfl
  | becomes y => rfl
  | ends y st =>
    have left : entryLeft i st y ((aside L Q s).setSlot i (some y)) =
        aside L Q (entryLeft i st y (s.setSlot i (some y))) := by
      unfold entryLeft
      cases y.work <;> rfl
    have detail : slotDetail (aside L Q s) st (decided st y) = slotDetail s st (decided st y) := rfl
    rw [carryOut_ends, carryOut_ends, left, detail]
    generalize entryLeft i st y (s.setSlot i (some y)) = n
    unfold ended
    by_cases takes : RingTakes (decided st y) n
    · have takes' : RingTakes (decided st y) (aside L Q n) := takes
      rw [if_pos takes, if_pos takes']
      rfl
    · have takes' : ¬ RingTakes (decided st y) (aside L Q n) := takes
      rw [if_neg takes, if_neg takes']
      rfl

theorem slotCut_aside (L : Pair LineEngine) (Q : Pair (List QueuedCall)) (i : SlotId) (n : Nat)
    (s : State) : slotCut i n none (aside L Q s) = aside L Q (slotCut i n none s) := by
  cases slot : s.slot i with
  | none =>
    rw [slotCut_free slot, slotCut_free (s := aside L Q s) slot]
  | some x =>
    by_cases known : x.work = .unknown
    · rw [slotCut_unknown slot known, slotCut_unknown (s := aside L Q s) slot known]
    · rw [slotCut_eq slot known, slotCut_eq (s := aside L Q s) slot known, tableFollows_none,
        tableFollows_none, carryOut_aside]

theorem slotCut_grows (i : SlotId) (n : Nat) (s : State) : Grows s (slotCut i n none s) := by
  cases slot : s.slot i with
  | none =>
    rw [slotCut_free slot]
    exact Grows.refl s
  | some x =>
    by_cases known : x.work = .unknown
    · rw [slotCut_unknown slot known]
      exact Grows.refl s
    · rw [slotCut_eq slot known, tableFollows_none]
      exact carryOut_grows i s _

theorem aside_eq {u v : State} (lines : u.lines = v.lines) (queues : u.queues = v.queues) (l : Line)
    (q : List QueuedCall) (e : LineEngine) : (u.setQueue l q).setEngine l e =
      aside ((v.setQueue l q).setEngine l e).lines ((v.setQueue l q).setEngine l e).queues u := by
  unfold aside State.setEngine State.setQueue
  dsimp only
  rw [lines, queues]

theorem slotCut_line (i : SlotId) (n : Nat) (s : State) (l : Line) (q : List QueuedCall)
    (e : LineEngine) : slotCut i n none ((s.setQueue l q).setEngine l e) =
      ((slotCut i n none s).setQueue l q).setEngine l e := by
  have grows := slotCut_grows i n s
  rw [aside_eq grows.lines grows.queues, ← slotCut_aside]
  rfl

/-! ## The entries of cut commits -/

theorem committed_again (i : SlotId) (w : ParamWork) (e : NodeEntry) :
    committed i w (committed i w e) = committed i w e := by
  unfold committed
  cases w.outcome <;> by_cases own : e.lock = some i <;> simp [own]
  all_goals simp_all

/-- The slot as the first end under a cut leaves it, or as it was. -/
structure StillHeld (x z : Slot) : Prop where
  line : z.line = x.line
  started : z.started = x.started
  work : z.work = x.work ∨ z.work = decidedWork .lineReset x.work

theorem entryEnded_again {x z : Slot} (h : StillHeld x z) (l : Line) (a : Addr) (i : SlotId) (n : Nat)
    (e : NodeEntry) :
    entryEnded l a i (cutForm n none z) .lineReset e = entryEnded l a i x .lineReset e := by
  obtain ⟨line, started, work⟩ := h
  have kept : ∀ v : ParamWork, commitOutcome .lineReset false v.countPoll =
      commitOutcome .lineReset false v ∧ v.countPoll.addr = v.addr ∧ v.countPoll.index = v.index ∧
      v.countPoll.data = v.data := fun v => by
    unfold ParamWork.countPoll
    split <;> exact ⟨rfl, rfl, rfl, rfl⟩
  have left : ∀ (b : Bool) (u v : ParamWork), u.outcome = v.outcome → u.index = v.index →
      u.data = v.data → leftEntry i b u e = leftEntry i b v e := fun b u v outcome index data => by
    unfold leftEntry committed
    rw [outcome, index, data]
  by_cases commit : ∃ w, x.work = .param w
  · obtain ⟨w, own⟩ := commit
    obtain ⟨v, form, addr, index, data, outcome⟩ : ∃ v, z.work = .param v ∧ v.addr = w.addr ∧
        v.index = w.index ∧ v.data = w.data ∧
        commitOutcome .lineReset false v = commitOutcome .lineReset false w := by
      rcases work with work | work
      · exact ⟨w, work.trans own, rfl, rfl, rfl, rfl⟩
      · rw [own] at work
        exact ⟨_, work, rfl, rfl, rfl, rfl⟩
    obtain ⟨same, pollAddr, pollIndex, pollData⟩ := kept v
    have polled : (cutForm n none z).work = .param v.countPoll := by
      unfold cutForm cutWork
      rw [form]
      dsimp only
      cases v.phase <;> rfl
    rw [entryEnded_commit polled, entryEnded_commit own, pollAddr, addr]
    have here : (cutForm n none z).line = x.line := line
    have on : (cutForm n none z).started = x.started := started
    rw [here, on]
    refine if_congr Iff.rfl (left _ _ _ ?_ (pollIndex.trans index) (pollData.trans data)) rfl
    exact same.trans outcome
  · have plain : ∀ w, z.work ≠ .param w := fun w form => by
      rcases work with work | work
      · exact commit ⟨w, work.symm.trans form⟩
      · rw [work] at form
        unfold decidedWork at form
        split at form
        · next v own => exact commit ⟨v, own⟩
        · cases form
        · exact commit ⟨w, form⟩
    have plain' : ∀ w, (cutForm n none z).work ≠ .param w := fun w form => by
      have : cutWork none z.work = .param w := form
      cases own : z.work with
      | param v => exact plain v own
      | _ =>
        rw [own] at this
        cases this
    rw [entryEnded_plain fun w form => absurd form (plain' w),
      entryEnded_plain fun w form => absurd ⟨w, form⟩ commit]

/-- The slot that holds the line after the application of the cut, before the cut of its own step. -/
theorem stillHeld {l : Line} {s : State} {i : SlotId} {x z : Slot} (slot : s.slot i = some x)
    (held : (visitAll (fun _ => cuts l) s).slot i = some z) : StillHeld x z := by
  have met := visitAll_met (fun _ => cuts l) s slot
  unfold cuts at met
  split at met
  · have ends : EndsAmong i (decided .lineReset x) .lineReset
        (slotDetail s .lineReset (decided .lineReset x)) s (visitAll (fun _ => cuts l) s) := met
    by_cases takes : RingTakes (decided .lineReset x) s
    · obtain rfl := Option.some.inj (held.symm.trans (ends.taken takes).1)
      exact ⟨rfl, rfl, .inr rfl⟩
    · rw [(ends.lost takes).1] at held
      cases held
  · obtain rfl := Option.some.inj (held.symm.trans met)
    exact ⟨rfl, rfl, .inl rfl⟩

/-- The slots of a line once a cut has reached what waits on it and the step of its holder. -/
def cutHeld (l : Line) (i : SlotId) (n : Nat) (s : State) : State :=
  slotCut i n none (visitAll (fun _ => cuts l) s)

theorem decidedWork_unknown {st : Status} {u : Work} (h : decidedWork st u = .unknown) :
    u = .unknown := by
  cases u with
  | unknown => rfl
  | _ => cases h

/-- What the cut of the holder's step makes of an entry. -/
theorem cutHeld_entry {l : Line} {i : SlotId} {n : Nat} {s : State} {x : Slot}
    (slot : s.slot i = some x) (known : x.work ≠ .unknown) (a : Addr) :
    (cutHeld l i n s).entry l a = (visitAll (fun _ => cuts l) s).entry l a ∧
        (visitAll (fun _ => cuts l) s).slot i = none ∨
      (cutHeld l i n s).entry l a =
        entryEnded l a i x .lineReset ((visitAll (fun _ => cuts l) s).entry l a) := by
  unfold cutHeld
  have held := fun z => stillHeld (l := l) (z := z) slot
  generalize visitAll (fun _ => cuts l) s = v at *
  cases now : v.slot i with
  | none =>
    rw [slotCut_free now]
    exact .inl ⟨rfl, rfl⟩
  | some z =>
    have again := held z now
    have known' : z.work ≠ .unknown := fun e => by
      rcases again.work with work | work
      · exact known (work.symm.trans e)
      · exact known (decidedWork_unknown (work.symm.trans e))
    rw [slotCut_eq now known', tableFollows_none, carryOut_entry]
    exact .inr (entryEnded_again again l a i n _)

theorem cutHeld_commitsEnded {l : Line} {i : SlotId} {n : Nat} {s : State}
    (known : ∀ x, s.slot i = some x → x.work ≠ .unknown) :
    CommitsEnded l (fun j x => j = i ∨ (x.state ≠ .finishing ∧ x.state ≠ .onLine)) s
      (cutHeld l i n s) := by
  have plain := cuts_plain l s
  obtain ⟨entry, others⟩ := visitAll_commitsEnded plain l
  have held := fun j x a (slot : s.slot j = some x) => visitAll_entry_held plain (l := l) (a := a) slot
  have met := fun x (slot : s.slot i = some x) => visitAll_met (fun _ => cuts l) s slot
  have cut := fun x (slot : s.slot i = some x) a =>
    cutHeld_entry (l := l) (n := n) slot (known x slot) a
  have free : s.slot i = none → cutHeld l i n s = visitAll (fun _ => cuts l) s := fun none =>
    slotCut_free (visitAll_free _ s none) n Option.none
  generalize visitAll (fun _ => cuts l) s = v at *
  generalize cutHeld l i n s = m at *
  have own : ∀ x w, s.slot i = some x → x.line = l → x.work = .param w → x.started = true →
      ∀ e, entryEnded l w.addr i x .lineReset e = committed i { w with outcome := outcomeOf true w } e :=
    fun x w slot line work started e => by
      rw [entryEnded_commit work, if_pos ⟨line, rfl⟩, started, outcome_narrow (.inr rfl)]
      rfl
  refine ⟨fun j x w slot line work started ends lock alone => ?_, fun a none => ?_⟩
  · by_cases holds : j = i
    · subst holds
      by_cases first : x.line = l ∧ x.state ≠ .finishing ∧ x.state ≠ .onLine
      · have done := entry j x w slot line work started first lock alone
        rcases cut x slot w.addr with ⟨same, -⟩ | again
        · rw [same, done]
        · rw [again, done, own x w slot line work started, committed_again]
      · have still := held j x w.addr slot first lock alone
        rcases cut x slot w.addr with ⟨-, gone⟩ | again
        · have kept : v.slot j = some x := by
            have met := met x slot
            unfold cuts at met
            rwa [if_neg first] at met
          rw [gone] at kept
          cases kept
        · rw [again, still, own x w slot line work started]
    · have done := entry j x w slot line work started ⟨line, ends.resolve_left holds⟩ lock alone
      cases other : s.slot i with
      | none => rw [free other, done]
      | some y =>
        rcases cut y other w.addr with ⟨same, -⟩ | again
        · rw [same, done]
        · rw [again, done]
          by_cases commit : ∃ u, y.work = .param u ∧ y.line = l ∧ u.addr = w.addr
          · obtain ⟨u, work', line', addr⟩ := commit
            have released : (committed j { w with outcome := outcomeOf true w }
                (s.entry l w.addr)).lock ≠ some i := by
              rw [show (committed j { w with outcome := outcomeOf true w } (s.entry l w.addr)).lock =
                Option.none from if_pos lock]
              nofun
            rw [entryEnded_commit work', if_pos ⟨line', addr⟩,
              Alone.unstarted alone (fun e => holds e.symm) other line' work' addr]
            exact leftEntry_unlocked released
          · exact entryEnded_plain (fun u work' same => commit ⟨u, work', same⟩) _ _
  · have same := others a fun j x w slot line work ends => none j x w slot line work (.inr ends.2)
    cases other : s.slot i with
    | none => rw [free other, same]
    | some y =>
      rcases cut y other a with ⟨kept, -⟩ | again
      · rw [kept, same]
      · rw [again, same]
        exact entryEnded_plain (fun u work here => none i y u other here.1 work (.inl rfl) here.2) _ _

/-! ## The application of a cut -/

/-- An engine whose series, if it had one, is over (R38). -/
def seriesGone (now : Word) (e : LineEngine) : LineEngine := { e with
  series := none
  listenTimer := if e.series.isSome = true then
    some (now + BitVec.ofNat 32 e.config.listenInterval) else e.listenTimer }

theorem seriesCut_gone {e : LineEngine} (h : e.holder ≠ .series) (now : Word) :
    seriesCut now e = seriesGone now e := by
  unfold seriesCut seriesGone
  by_cases series : e.series = none
  · have timer : (if e.series.isSome = true then
        some (now + BitVec.ofNat 32 e.config.listenInterval) else e.listenTimer) = e.listenTimer :=
      if_neg (by rw [series]; exact Bool.false_ne_true)
    rw [if_pos (.inr series), timer, ← series]
  · rw [if_neg fun c => c.elim h series, if_pos (Option.isSome_iff_ne_none.2 series)]

/-- The slots once a cut of a line that has no try in progress has been applied. -/
def cutSlots (l : Line) (s : State) : State :=
  match (s.engine l).holder with
  | .slot i => cutHeld l i (s.engine l).triesBegun s
  | .none | .reflex | .series => visitAll (fun _ => cuts l) s

theorem cutSlots_other {l : Line} {s : State} (h : ∀ i, (s.engine l).holder ≠ .slot i) :
    cutSlots l s = visitAll (fun _ => cuts l) s := by
  unfold cutSlots
  cases holder : (s.engine l).holder with
  | slot i => exact absurd holder (h i)
  | _ => rfl

theorem cutSlots_held {l : Line} {s : State} {i : SlotId} (h : (s.engine l).holder = .slot i) :
    cutSlots l s = cutHeld l i (s.engine l).triesBegun s := by
  unfold cutSlots
  rw [h]

theorem cutSlots_grows (l : Line) (s : State) : Grows s (cutSlots l s) := by
  unfold cutSlots
  have waiting := visitAll_grows (fun _ => cuts l) s
  cases (s.engine l).holder with
  | slot i => exact waiting.trans (slotCut_grows i _ _)
  | _ => exact waiting

/-- The engine of a line whose holder, if it has one, has lost its grant. -/
def freed (e : LineEngine) : LineEngine := if e.holder = .none then e else grantOver e

/-- The line once a cut that finds no try in progress has been applied, before its end. -/
def cutAtOnce (l : Line) (s : State) : State :=
  ((cutSlots l s).setQueue l []).setEngine l (seriesGone s.ms (freed (s.engine l)))

theorem cutWaiting_engine (l : Line) (s : State) :
    (cutWaiting l s).engine l = seriesCut s.ms (s.engine l) := by
  rw [cutWaiting_eq, engine_setEngine_self]

theorem seriesCut_held (now : Word) (e : LineEngine) :
    (seriesCut now e).holder = e.holder ∧ (seriesCut now e).state = e.state ∧
      (seriesCut now e).triesBegun = e.triesBegun := by
  unfold seriesCut
  split <;> exact ⟨rfl, rfl, rfl⟩

/-- A grant that ends with the cut of its line. -/
theorem heldCut_eq {l : Line} {s w : State} (waiting : w = cutWaiting l s)
    (held : (s.engine l).holder ≠ .none)
    (series : (s.engine l).holder = .series → (s.engine l).series ≠ none) :
    ∃ n, cutHolder l none w = grantEnded l n ∧
      n.setEngine l (grantOver (n.engine l)) = cutAtOnce l s ∧ n.admin = s.admin ∧
      ∀ q, (n.resultRing q).out = (s.resultRing q).out := by
  have engine : w.engine l = seriesCut s.ms (s.engine l) := by
    rw [waiting]
    exact cutWaiting_engine l s
  obtain ⟨holder, -, tries⟩ := seriesCut_held s.ms (s.engine l)
  have grows := cutSlots_grows l s
  have visited := visitAll_grows (fun _ => cuts l) s
  rw [cutWaiting_eq] at waiting
  unfold cutHolder cutAtOnce freed
  dsimp only
  rw [engine, holder, tries, if_neg held]
  cases hold : (s.engine l).holder with
  | none => exact absurd hold held
  | slot i =>
    have gone := seriesCut_gone (e := s.engine l) (by rw [hold]; nofun) s.ms
    have whole : slotCut i (s.engine l).triesBegun none w =
        ((cutSlots l s).setQueue l []).setEngine l (seriesGone s.ms (s.engine l)) := by
      rw [waiting, slotCut_line, cutSlots_held hold, gone, queueCut, if_neg (by rw [hold]; nofun)]
      rfl
    refine ⟨_, rfl, ?_, ?_, fun q => ?_⟩
    · show (slotCut i (s.engine l).triesBegun none w).setEngine l
        (grantOver ((slotCut i (s.engine l).triesBegun none w).engine l)) = _
      rw [whole, engine_setEngine_self, setEngine_setEngine]
      rfl
    · show (slotCut i (s.engine l).triesBegun none w).admin = _
      rw [whole]
      exact grows.admin
    · show ((slotCut i (s.engine l).triesBegun none w).resultRing q).out = _
      rw [whole]
      exact grows.out q
  | reflex =>
    have gone := seriesCut_gone (e := s.engine l) (by rw [hold]; nofun) s.ms
    rw [gone] at engine waiting
    have slots := cutSlots_other (l := l) (s := s) fun i => by rw [hold]; nofun
    rw [← slots] at waiting
    generalize cutSlots l s = u at *
    refine ⟨_, rfl, ?_, ?_, fun q => ?_⟩
    · have same : (w.setQueue l []).engine l = seriesGone s.ms (s.engine l) := engine
      rw [same, waiting]
      have order : ∀ (v : State) (e f : LineEngine) (q : List QueuedCall),
          (((v.setQueue l q).setEngine l e).setQueue l []).setEngine l f =
            (v.setQueue l []).setEngine l f := fun v e f q => by cases l <;> rfl
      rw [order]
      rfl
    · rw [waiting]
      exact grows.admin
    · rw [waiting]
      exact grows.out q
  | series =>
    have stays : seriesCut s.ms (s.engine l) = s.engine l := if_pos (.inl hold)
    rw [stays] at engine waiting
    have slots := cutSlots_other (l := l) (s := s) fun i => by rw [hold]; nofun
    rw [queueCut, if_neg (by rw [hold]; nofun), ← slots] at waiting
    generalize cutSlots l s = u at *
    have now : w.ms = s.ms := by
      rw [waiting]
      exact grows.ms
    have ends : endSeries l (reportLast l none w) =
        (u.setQueue l []).setEngine l (seriesOver s.ms (s.engine l)) := by
      show endSeries l w = _
      rw [endSeries_eq, engine, now, waiting, setEngine_setEngine]
    refine ⟨_, rfl, ?_, ?_, fun q => ?_⟩
    · rw [ends, engine_setEngine_self, setEngine_setEngine]
      have some_ := Option.isSome_iff_ne_none.2 (series hold)
      unfold seriesOver seriesGone grantOver
      dsimp only
      rw [some_]
      rfl
    · rw [ends]
      exact grows.admin
    · rw [ends]
      exact grows.out q

/-- A cut that finds no try in progress ends at once (R33, R41). -/
theorem applyCut_ends {l : Line} {disable forget : Bool} {code : Byte} {tag : Word} {s : State}
    (admin : s.admin = some ⟨code, tag, .cutting l disable forget⟩)
    (active : (s.resultRing 0).out.state = .active)
    (idle : (s.engine l).holder ≠ .none → (s.engine l).state = .idle)
    (series : (s.engine l).holder = .series → (s.engine l).series ≠ none) :
    applyCut l disable forget s =
      answered code tag .ok [] (cutDone l disable forget (cutAtOnce l s)) := by
  obtain ⟨holder, state, -⟩ := seriesCut_held s.ms (s.engine l)
  unfold applyCut
  dsimp only
  rw [cutWaiting_engine, holder, state]
  by_cases held : (s.engine l).holder = .none
  · have grows := cutSlots_grows l s
    have whole : cutWaiting l s = cutAtOnce l s := by
      rw [cutWaiting_eq, cutAtOnce, cutSlots_other (by rw [held]; nofun), freed, if_pos held, queueCut,
        if_neg (by rw [held]; nofun), seriesCut_gone (by rw [held]; nofun)]
    rw [held, whole]
    exact finishCut_answered (s := cutAtOnce l s) (a := ⟨code, tag, .cutting l disable forget⟩)
      (grows.admin.trans admin)
      ((congrArg OutputRing.state (grows.out 0) :).trans active)
  · obtain ⟨n, ends, over_, same, out⟩ := heldCut_eq rfl held series
    have now : cutHolder l none (cutWaiting l s) =
        answered code tag .ok [] (cutDone l disable forget (cutAtOnce l s)) := by
      rw [ends, grantEnded_cuts (same.trans admin)
        ((congrArg OutputRing.state (out 0) :).trans active), over_]
    rw [idle held]
    cases hold : (s.engine l).holder with
    | none => exact absurd hold held
    | _ => exact now

end Sys2Proof.Cuts

/-! LINE_RESET and LINE_DISABLE: a line that they cut at once, and one whose try in progress they wait
for. -/

namespace Sys2Proof.CutRequests

open Sys2Proof Sys2Proof.Machine Sys2Proof.Safety Sys2Proof.Laws Sys2Proof.NodeTable
  Sys2Proof.Registers Sys2Proof.Decoding Sys2Proof.Requests Sys2Proof.RingFaults
  Sys2Proof.FieldLines Sys2Proof.SlotEnds Sys2Proof.Reports Sys2Proof.Steps Sys2Proof.Windows
  Sys2Proof.CommitSteps Sys2Proof.SlotRounds Sys2Proof.Aborts Sys2Proof.GrantEnds Sys2Proof.Settings
  Sys2Proof.Blindness Sys2Proof.Cuts

/-- The state in which a cut of a line is applied: its request is current. -/
def cutTaken (r : Record) (l : Line) (disable forget : Bool) (s : State) : State :=
  { requestTaken r s with
    admin := some { code := r[0], tag := recordTag r, phase := .cutting l disable forget } }

/-- Both requests cut the line that they name. -/
theorem cut_runs {r : Record} {s : State} {l : Line} {c : Instr} {disable : Bool} (h : AdminReady s)
    (hc : (c, disable) ∈ [(Instr.lineReset r, false), (Instr.lineDisable r, true)])
    (code : r[12] = (match l with | .a => 0 | .b => 1)) :
    exec c s = .next (serviceRings (settleLine l (applyCut l disable (!disable && r[13].getLsbD 0)
      (cutTaken r l disable (!disable && r[13].getLsbD 0) s)))) := by
  have fields : lineOf r[12] = some l := by
    rw [code]
    exact lineOf_code l
  rcases List.mem_cons.1 hc with reset | disables
  · obtain ⟨rfl, rfl⟩ := Prod.mk.inj reset
    have arm : exec (.lineReset r) s = .next (takeAdmin r
      (checked (lineOf r[12]) fun l => cutLine l false (r[13].getLsbD 0)) s) := rfl
    exact request_runs h arm fields
  · obtain ⟨rfl, rfl⟩ := Prod.mk.inj (List.mem_singleton.1 disables)
    have arm : exec (.lineDisable r) s = .next (takeAdmin r
      (checked (lineOf r[12]) fun l => cutLine l true false) s) := rfl
    exact request_runs h arm fields

theorem cutTaken_bound (r : Record) (l : Line) (disable forget : Bool) (s : State) (k : WorkRingId) :
    ((cutTaken r l disable forget s).workRing k).bound = (s.workRing k).bound :=
  requestTaken_bound r s k

theorem worked_cutTaken {r : Record} {l : Line} {disable forget : Bool} {s m : State}
    (h : Worked (cutTaken r l disable forget s) m) : Worked (requestTaken r s) m :=
  ⟨h.device, h.halt, h.intEnable, h.boot, h.bootRead, h.ms, h.notice, h.deviceEvent, h.workFetch,
    h.adminFetch, h.imageWrite, h.fetchSeq, h.served, h.reflexes, h.resetPinLow, h.pending, h.work,
    h.out, h.results, h.free, h.slot⟩

theorem engineDone_gone (disable : Bool) (now : Word) (e : LineEngine) :
    engineDone disable (seriesGone now (freed e)) =
      if disable = true then
        { (if e.holder = .none then e else grantOver e) with
          state := .off, lowTimer := 0, debounce := none, settle := none, listenTimer := none,
          listenDue := false, series := none, quiet := false }
      else
        { (if e.holder = .none then e else grantOver e) with
          listenDue := false, series := none
          listenTimer := if e.series.isSome = true then
            some (now + BitVec.ofNat 32 e.config.listenInterval) else e.listenTimer } := by
  unfold freed engineDone seriesGone
  split <;> split <;> rfl

theorem adds_cut {l : Line} {disable forget : Bool} {code : Byte} {tag : Word} {s : State} :
    Adds (cutSlots l s) (answered code tag .ok [] (cutDone l disable forget (cutAtOnce l s))) := by
  have rest := (cutDone_leaves l disable forget (cutAtOnce l s)).rest
  have same : (cutDone l disable forget (cutAtOnce l s)).results = (cutSlots l s).results :=
    (congrArg State.results rest :)
  exact (adds_of_results same).trans (answered_adds _ _ _ _ _)

theorem cut_slot {l : Line} {disable forget : Bool} {code : Byte} {tag : Word} {s : State} (i : SlotId) :
    (answered code tag .ok [] (cutDone l disable forget (cutAtOnce l s))).slot i =
      (cutSlots l s).slot i := by
  have rest := (cutDone_leaves l disable forget (cutAtOnce l s)).rest
  exact (congrArg (fun v : State => v.slot i) rest :)

/-- A cut at once leaves what its rounds over the slots have made of those that wait. -/
theorem cutSlots_reset {l : Line} {s : State} {i : SlotId} {x : Slot} (slot : s.slot i = some x)
    (other : (s.engine l).holder ≠ .slot i) : Reset l i x s (cutSlots l s) := by
  have reset := visit_reset (l := l) slot
  unfold cutSlots
  cases holder : (s.engine l).holder with
  | slot j =>
    have ne : i ≠ j := fun e => other (by rw [holder, e])
    refine reset.later (slotCut_grows j _ _).adds ?_
    show (slotCut j _ none (visitAll (fun _ => cuts l) s)).slot i = _
    generalize visitAll (fun _ => cuts l) s = v
    cases held : v.slot j with
    | none => rw [slotCut_free held]
    | some z =>
      by_cases known : z.work = .unknown
      · rw [slotCut_unknown held known]
      · rw [slotCut_eq held known, tableFollows_none, carryOut_other _ _ _ ne]
  | _ => exact reset

/-- The slot that held the line between two tries. -/
theorem cutSlots_own {l : Line} {s : State} {i : SlotId} {x : Slot} (slot : s.slot i = some x)
    (holder : (s.engine l).holder = .slot i) (onLine : x.state = .onLine) (known : x.work ≠ .unknown) :
    EndedBy .lineReset i (cutForm (s.engine l).triesBegun none x) s (cutSlots l s) := by
  have still : (visitAll (fun _ => cuts l) s).slot i = some x := by
    have met := visitAll_met (fun _ => cuts l) s slot
    unfold cuts at met
    rwa [if_neg fun h => h.2.2 onLine] at met
  have grows := visitAll_grows (fun _ => cuts l) s
  rw [cutSlots_held holder, cutHeld, slotCut_eq still known, tableFollows_none, endedBy_iff (.inr rfl)]
  exact (carryOut_met still (.ends _ .lineReset)).earlier grows

theorem countPoll_polls (w : ParamWork) : w.countPoll = { w with
    polls := if w.phase = some .poll ∨ w.phase = some .final then min 255 (w.polls + 1)
      else w.polls } := by
  rcases Option.eq_none_or_eq_some w.phase with phase | ⟨p, phase⟩
  · rw [if_neg (by rw [phase]; nofun)]
    unfold ParamWork.countPoll
    rw [phase]
    show w = _
    rw [← phase]
  · rw [countPoll_eq phase]
    simp only [Option.some.injEq, phase]

theorem cutForm_at_once (e : LineEngine) (x : Slot) : cutForm e.triesBegun none x = { x with
    tries := (e.step.map fun st => st.tries).getD 0
    work := match x.work with
      | .call w => .call { w with allGarbled := false }
      | .param w => .param { w with
          polls := if w.phase = some .poll ∨ w.phase = some .final then
            min 255 (w.polls + 1) else w.polls }
      | v => v } := by
  have tries : e.triesBegun = (e.step.map fun st => st.tries).getD 0 := by
    unfold LineEngine.triesBegun
    cases e.step <;> rfl
  unfold cutForm cutWork
  rw [tries]
  cases x.work with
  | param w =>
    have polled : (match w.phase, (none : Option TryOutcome) with
        | some p, some (.replied r) => (phaseReply p r w.countPoll).1
        | _, _ => w.countPoll) = w.countPoll := by
      cases w.phase <;> rfl
    dsimp only
    rw [← countPoll_polls]
    exact congrArg (fun v : ParamWork => { x with
      tries := (e.step.map fun st : Step => st.tries).getD 0, work := .param v }) polled
  | discover w =>
    dsimp only
    congr 2
    unfold DiscoverWork.cutStep
    cases w.phase <;> rfl
  | _ => rfl

/-- A line without a try in progress is cut at once. -/
theorem cut_at_once {r : Record} {s : State} {l : Line} {c : Instr} {disable : Bool} (h : AdminReady s)
    (hc : (c, disable) ∈ [(Instr.lineReset r, false), (Instr.lineDisable r, true)])
    (code : r[12] = (match l with | .a => 0 | .b => 1))
    (idle : (s.engine l).holder ≠ .none → (s.engine l).state = .idle)
    (series : (s.engine l).holder = .series → (s.engine l).series ≠ none)
    (known : ∀ i, (s.engine l).holder = .slot i → ∀ x, s.slot i = some x → x.work ≠ .unknown) :
    ∃ (m t : State) (e : LineEngine), exec c s = .next t ∧ Worked (requestTaken r s) m ∧
      After l m t ∧
      e = (if (s.engine l).holder = .none then s.engine l else grantOver (s.engine l)) ∧
      m.engine l =
        (if disable = true then
          { e with
            state := .off, lowTimer := 0, debounce := none, settle := none, listenTimer := none,
            listenDue := false, series := none, quiet := false }
        else
          { e with
            listenDue := false, series := none
            listenTimer := if (s.engine l).series.isSome = true then
              some (s.ms + BitVec.ofNat 32 (s.engine l).config.listenInterval)
              else (s.engine l).listenTimer }) ∧
      m.queue l = [] ∧
      (∀ i x, s.slot i = some x → (s.engine l).holder ≠ .slot i →
        if x.line = l then CutOff i x s m else m.slot i = some x) ∧
      (∀ i x x', s.slot i = some x → (s.engine l).holder = .slot i → x.state = .onLine →
        x' = { x with
          tries := ((s.engine l).step.map fun st => st.tries).getD 0
          work := match x.work with
            | .call w => .call { w with allGarbled := false }
            | .param w => .param { w with
                polls := if w.phase = some .poll ∨ w.phase = some .final then
                  min 255 (w.polls + 1) else w.polls }
            | v => v } →
        EndedBy .lineReset i x' s m) ∧
      (if disable = false ∧ r[13].getLsbD 0 = true then ∀ a, m.entry l a = NodeEntry.initial
        else CommitsEnded l (fun i x => (s.engine l).holder = .slot i ∨
          (x.state ≠ .finishing ∧ x.state ≠ .onLine)) s m) ∧
      Answered r[0] (recordTag r) .ok [] (requestTaken r s) m := by
  have run := cut_runs h hc code
  generalize hf : (!disable && r[13].getLsbD 0) = forget at run
  generalize hp : cutTaken r l disable forget s = p at run
  have engine : p.engine l = s.engine l := by
    rw [← hp]
    rfl
  have slots : ∀ i, p.slot i = s.slot i := fun i => by
    rw [← hp]
    rfl
  have bound : ∀ k, (p.workRing k).bound = (s.workRing k).bound := fun k => by
    rw [← hp]
    exact cutTaken_bound r l disable forget s k
  have results : p.results = s.results := by
    rw [← hp]
    rfl
  have nodes : p.nodes = s.nodes := by
    rw [← hp]
    rfl
  have ms : p.ms = s.ms := by
    rw [← hp]
    rfl
  have worked : Worked (requestTaken r s) (applyCut l disable forget p) := by
    refine worked_cutTaken (l := l) (disable := disable) (forget := forget) ?_
    rw [hp]
    exact worked_applyCut (worked_refl p) l disable forget
  have cut : applyCut l disable forget p = answered r[0] (recordTag r) .ok []
      (cutDone l disable forget (cutAtOnce l p)) := by
    refine applyCut_ends ?_ ?_ ?_ ?_
    · rw [← hp]
      rfl
    · rw [← hp]
      exact h.ring
    · rw [engine]
      exact idle
    · rw [engine]
      exact series
  have leaves := cutDone_leaves l disable forget (cutAtOnce l p)
  have adds : Adds (cutSlots l p) (answered r[0] (recordTag r) .ok []
      (cutDone l disable forget (cutAtOnce l p))) := adds_cut
  have same : ∀ i, (answered r[0] (recordTag r) .ok []
      (cutDone l disable forget (cutAtOnce l p))).slot i = (cutSlots l p).slot i := cut_slot
  refine ⟨applyCut l disable forget p, _, _, run, worked, afterLine_after l _, rfl, ?_⟩
  rw [cut]
  refine ⟨?_, ?_, fun i x slot other => ?_, fun i x x' slot holder onLine hx => ?_, ?_, ?_⟩
  · refine leaves.engine.trans ?_
    have atOnce : (cutAtOnce l p).engine l = seriesGone s.ms (freed (s.engine l)) := by
      rw [← engine, ← ms]
      exact engine_setEngine_self _ l _
    rw [atOnce, engineDone_gone]
  · refine leaves.queue.trans ?_
    have atOnce : (cutAtOnce l p).queue l = [] := queue_setQueue_self _ l []
    rw [atOnce]
    split <;> rfl
  · have reset := cutSlots_reset (l := l) ((slots i).trans slot) (by rw [engine]; exact other)
    exact (reset.later adds (same i)).over bound results nodes ms
  · have own := cutSlots_own ((slots i).trans slot) (by rw [engine]; exact holder) onLine
      (known i holder x slot)
    rw [hx, ← cutForm_at_once, ← engine]
    exact endedBy_over (endsAmong_later own adds (same i)) bound results nodes ms
  · split
    · next forgets =>
      refine leaves.forgets ?_
      rw [← hf, forgets.1, forgets.2]
      rfl
    · next kept =>
      have keeps : forget = false := by
        rw [← hf]
        cases disable <;> simp_all
      have table : ∀ a, (answered r[0] (recordTag r) .ok []
          (cutDone l disable forget (cutAtOnce l p))).entry l a = (cutSlots l p).entry l a := fun a => by
        have tables := leaves.nodes keeps
        unfold State.entry State.table
        exact congrArg (fun v : Pair (Vector NodeEntry 80) => (v.get l)[a]) tables
      have before : ∀ a, p.entry l a = s.entry l a := fun a => by
        unfold State.entry State.table
        rw [nodes]
      have ended : CommitsEnded l (fun i x => (s.engine l).holder = .slot i ∨
          (x.state ≠ .finishing ∧ x.state ≠ .onLine)) p (cutSlots l p) := by
        by_cases held : ∃ i, (s.engine l).holder = .slot i
        · obtain ⟨i, holder⟩ := held
          have names : (fun (j : SlotId) (x : Slot) => (s.engine l).holder = .slot j ∨
              (x.state ≠ .finishing ∧ x.state ≠ .onLine)) =
              fun j x => j = i ∨ (x.state ≠ .finishing ∧ x.state ≠ .onLine) := by
            funext j x
            rw [holder, Holder.slot.injEq, eq_comm (a := i)]
          rw [names, cutSlots_held (by rw [engine]; exact holder)]
          exact cutHeld_commitsEnded fun x slot => known i holder x ((slots i).symm.trans slot)
        · have free := not_exists.1 held
          rw [cutSlots_other (by rw [engine]; exact free)]
          obtain ⟨entry, others⟩ := visitAll_commitsEnded (cuts_plain l p) l
          exact ⟨fun i x w slot line work started ends => entry i x w slot line work started
              ⟨line, ends.resolve_left (free i)⟩,
            fun a none => others a fun i x w slot line work ends =>
              none i x w slot line work (.inr ends.2)⟩
      obtain ⟨entry, others⟩ := ended
      refine ⟨fun i x w slot line work started ends lock alone => ?_, fun a none => ?_⟩
      · rw [table, ← before]
        exact entry i x w ((slots i).trans slot) line work started ends (by rw [before]; exact lock)
          fun j y v ne slot => alone j y v ne ((slots j).symm.trans slot)
      · rw [table, ← before]
        exact others a fun i x w slot => none i x w ((slots i).symm.trans slot)
  · have answer : Answered r[0] (recordTag r) .ok [] p (answered r[0] (recordTag r) .ok []
        (cutDone l disable forget (cutAtOnce l p))) :=
      answered_after ((cutSlots_grows l p).adds.trans (adds_of_results
        (congrArg State.results leaves.rest :))) _ _ _ _
    rw [← hp] at answer ⊢
    exact answer

/-- A line with a try in progress: the request waits for its end, and what waits on the line is cut. -/
theorem cut_waits {r : Record} {s : State} {l : Line} {c : Instr} {disable : Bool} (h : AdminReady s)
    (hc : (c, disable) ∈ [(Instr.lineReset r, false), (Instr.lineDisable r, true)])
    (code : r[12] = (match l with | .a => 0 | .b => 1)) (held : (s.engine l).holder ≠ .none)
    (busy : (s.engine l).state ≠ .idle) :
    ∃ m t, exec c s = .next t ∧ Worked (requestTaken r s) m ∧ After l m t ∧
      t.admin = some { code := r[0], tag := recordTag r,
                       phase := .cutting l disable (!disable && r[13].getLsbD 0) } ∧
      m.admin = t.admin ∧
      m.engine l = (if (s.engine l).series = none ∨ (s.engine l).holder = .series then s.engine l
        else { s.engine l with
          series := none
          listenTimer := some (s.ms + BitVec.ofNat 32 (s.engine l).config.listenInterval) }) ∧
      m.queue l = (if (s.engine l).holder = .reflex then s.queue l else []) ∧
      (∀ i x, s.slot i = some x → if x.line = l then CutOff i x s m else m.slot i = some x) ∧
      CommitsEnded l (fun _ x => x.state ≠ .finishing ∧ x.state ≠ .onLine) s m := by
  have run := cut_runs h hc code
  generalize hf : (!disable && r[13].getLsbD 0) = forget at run
  generalize hp : cutTaken r l disable forget s = p at run
  have engine : p.engine l = s.engine l := by
    rw [← hp]
    rfl
  have queue : p.queue l = s.queue l := by
    rw [← hp]
    rfl
  have ms : p.ms = s.ms := by
    rw [← hp]
    rfl
  have slots : ∀ i, p.slot i = s.slot i := fun i => by
    rw [← hp]
    rfl
  have entries : ∀ a, p.entry l a = s.entry l a := fun a => by
    rw [← hp]
    rfl
  have admin : p.admin = some ⟨r[0], recordTag r, .cutting l disable forget⟩ := by
    rw [← hp]
    rfl
  have live : p.device ≠ .halted := by
    rw [← hp]
    exact h.live
  have reset : ∀ i x, s.slot i = some x → Reset l i x s (visitAll (fun _ => cuts l) p) :=
    fun i x slot => by
      refine (visit_reset (l := l) ((slots i).trans slot)).over ?_ ?_ ?_ ?_
      · rw [← hp]
        exact cutTaken_bound r l disable forget s
      all_goals rw [← hp]; rfl
  have worked : Worked (requestTaken r s) (applyCut l disable forget p) := by
    refine worked_cutTaken (l := l) (disable := disable) (forget := forget) ?_
    rw [hp]
    exact worked_applyCut (worked_refl p) l disable forget
  have waits : applyCut l disable forget p = cutWaiting l p := by
    obtain ⟨holder, state, -⟩ := seriesCut_held p.ms (p.engine l)
    unfold applyCut
    dsimp only
    rw [cutWaiting_engine, holder, state, engine]
    cases hold : (s.engine l).holder with
    | none => exact absurd hold held
    | _ =>
      dsimp only
      cases now : (s.engine l).state with
      | idle => exact absurd now busy
      | _ => rfl
  obtain ⟨entry, others⟩ := visitAll_commitsEnded (cuts_plain l p) l
  have grows := visitAll_grows (fun _ => cuts l) p
  have after := afterLine_after l (applyCut l disable forget p)
  unfold afterLine at after
  generalize serviceRings (settleLine l (applyCut l disable forget p)) = t at run after
  rw [waits, cutWaiting_eq, engine, queue, ms] at worked after
  generalize visitAll (fun _ => cuts l) p = v at *
  obtain ⟨n, settled, served⟩ := after
  have current : n.admin = some ⟨r[0], recordTag r, .cutting l disable forget⟩ :=
    settled.kept.admin.trans (grows.admin.trans admin)
  have stays : t.admin = some ⟨r[0], recordTag r, .cutting l disable forget⟩ := by
    have alive : n.device ≠ .halted := by
      rw [settled.kept.device]
      exact fun e => live (grows.device.symm.trans e)
    obtain ⟨same, -, -⟩ := served.admin alive (closeDetail_none current (by simp) (by simp) (by simp))
    exact same.trans current
  refine ⟨_, t, run, worked, ⟨n, settled, served⟩, stays, (grows.admin.trans admin).trans stays.symm, ?_,
    ?_, fun i x slot => (reset i x slot).later (adds_of_results rfl) rfl,
    ⟨fun i x w slot line work started ends lock alone => ?_, fun a none => ?_⟩⟩
  · rw [engine_setEngine_self, seriesCut]
    simp only [or_comm]
  · exact queue_setQueue_self v l _
  · rw [← entries] at lock ⊢
    exact entry i x w ((slots i).trans slot) line work started ⟨line, ends⟩ lock
      fun j y u ne slot => alone j y u ne ((slots j).symm.trans slot)
  · rw [← entries]
    exact others a fun i x w slot line work ends =>
      none i x w ((slots i).symm.trans slot) line work ends.2

end Sys2Proof.CutRequests

/-! A cut that has waited for the end of a try: what it makes of the slot, the reflex head or the series
that holds the line. -/

namespace Sys2Proof.HeldCuts

open Sys2Proof Sys2Proof.Machine Sys2Proof.Safety Sys2Proof.Laws Sys2Proof.NodeTable
  Sys2Proof.Registers Sys2Proof.FieldLines Sys2Proof.SlotEnds Sys2Proof.Reports Sys2Proof.Steps
  Sys2Proof.CallEnds Sys2Proof.Rounds Sys2Proof.Discoveries Sys2Proof.Windows Sys2Proof.CommitSteps
  Sys2Proof.SlotRounds Sys2Proof.Aborts Sys2Proof.GrantEnds Sys2Proof.Settings
  Sys2Proof.Blindness Sys2Proof.Cuts

/-! ## The end of a cut that has waited -/

theorem cutEnds_done {l : Line} {disable forget : Bool} {code : Byte} {tag : Word} {e : LineEngine}
    {s q : State} (engine : ({ q.engine l with listenDue := false } : LineEngine) =
      { grantOver e with listenDue := false }) (adds : Adds s q) :
    CutEnds l code tag disable forget e s
      (answered code tag .ok [] (cutDone l disable forget q)) := by
  have leaves := cutDone_leaves l disable forget q
  refine ⟨leaves.engine.trans ?_, ?_, leaves.forgets, rfl, ?_⟩
  · have only : ∀ f : LineEngine,
        engineDone disable f = engineDone disable { f with listenDue := false } := fun f => by
      cases disable <;> rfl
    rw [only, engine, ← only]
    rfl
  · rintro rfl
    exact leaves.queue.trans (if_pos rfl)
  · exact answered_after (adds.trans (adds_of_results (congrArg State.results leaves.rest :))) _ _ _ _

/-- What the end of a cut leaves of a state in which the grant is over. -/
structure CutLeft (l : Line) (disable forget : Bool) (q m : State) : Prop where
  slot : ∀ j, m.slot j = q.slot j
  adds : Adds q m
  buffer : m.buffer = q.buffer
  lost : m.lost = q.lost
  queue : ∀ k, k ≠ l ∨ disable = false → m.queue k = q.queue k
  nodes : forget = false → m.nodes = q.nodes

theorem cutDone_left (l : Line) (disable forget : Bool) (code : Byte) (tag : Word) (q : State) :
    CutLeft l disable forget q (answered code tag .ok [] (cutDone l disable forget q)) := by
  have leaves := cutDone_leaves l disable forget q
  have rest := leaves.rest
  refine ⟨fun j => ?_, ?_, ?_, ?_, fun k hk => ?_, leaves.nodes⟩
  · exact (congrArg (fun v : State => v.slot j) rest :)
  · have results : (cutDone l disable forget q).results = q.results := (congrArg State.results rest :)
    exact (adds_of_results results).trans (answered_adds _ _ _ _ _)
  · exact (congrArg State.buffer rest :)
  · exact (congrArg State.lost rest :)
  · rcases eq_or_ne k l with rfl | other
    · refine leaves.queue.trans (if_neg ?_)
      rw [hk.resolve_left (not_not.2 rfl)]
      exact Bool.false_ne_true
    · exact leaves.otherQueue k other

/-! ## The end of a try under a cut -/

/-- What a true reply of the cut step's last try makes of the table (R32, R33). -/
def lastReported (l : Line) (st : Step) (o : TryOutcome) (s : State) : State :=
  match o with
  | .replied _ => reportStep l st.call false o s
  | _ => s

theorem tableUpdate_lastReported (l : Line) (st : Step) (o : TryOutcome) :
    TableUpdate l (lastReported l st o) := by
  cases o with
  | replied r => exact tableUpdate_reportStep l _ _ _
  | _ => exact tableUpdate_id l

theorem cutting_of {s : State} {l : Line} {code : Byte} {tag : Word} {disable forget : Bool}
    (admin : s.admin = some ⟨code, tag, .cutting l disable forget⟩) : s.cutting l = true := by
  unfold State.cutting
  rw [admin]
  exact beq_self_eq_true l

/-- The end of a try of a line that is to be cut ends its grant. -/
theorem endTry_cut {l : Line} {s : State} {st : Step} (step : (s.engine l).step = some st)
    {code : Byte} {tag : Word} {disable forget : Bool}
    (admin : s.admin = some ⟨code, tag, .cutting l disable forget⟩) (o : TryOutcome) :
    endTry l o s = cutHolder l (some o) (tried l st o s) := by
  have same : (tried l st o s).admin = s.admin := (congrArg State.admin (tried_rest l st o s) :)
  have goes := cutting_of (same.trans admin)
  unfold endTry
  dsimp only
  rw [step]
  unfold tried at goes
  dsimp only
  rw [goes, if_pos rfl]
  rfl

theorem reportLast_tried {l : Line} {s : State} (st : Step) (o : TryOutcome)
    (i : SlotId) (x : Option Slot)
    (form : tried l st o s = (s.setEngine l ((s.engine l).afterTry (st.afterTry o) o)).setSlot i x) :
    reportLast l (some o) (tried l st o s) =
      ((lastReported l st o s).setEngine l (overEngine st o (s.engine l))).setSlot i x := by
  have engine := tried_engine l st o s
  have silent : asksListen o = false → overEngine st o (s.engine l) =
      (s.engine l).afterTry (st.afterTry o) o := fun h => by
    unfold overEngine
    rw [h, Bool.or_false]
    rfl
  unfold reportLast
  rw [engine]
  cases o with
  | replied r =>
    have update := tableUpdate_reportStep l st.call false (.replied r)
    show notePending l (.replied r) (reportStep l st.call false (.replied r) (tried l st _ s)) = _
    rw [form, update.setSlot, update.setEngine s
      (e := (s.engine l).afterTry (st.afterTry (.replied r)) (.replied r)) rfl, notePending_eq]
    have own : (((reportStep l st.call false (.replied r) s).setEngine l
        ((s.engine l).afterTry (st.afterTry (.replied r)) (.replied r))).setSlot i x).engine l =
        (s.engine l).afterTry (st.afterTry (.replied r)) (.replied r) := engine_setEngine_self _ l _
    rw [own]
    exact congrArg (fun m => State.setSlot m i x) (setEngine_setEngine _ l _ _)
  | _ => exact form.trans (by rw [silent rfl]; rfl)

/-- An engine at the end of a try (R22). -/
def triedIdle (o : TryOutcome) (e : LineEngine) : LineEngine := { e with
  state := .idle
  quiet := e.quiet && (match o with | .noReply => true | _ => false) }

theorem cutEngine_eq (st : Step) (o : TryOutcome) (e : LineEngine) :
    ({ grantOver (overEngine st o e) with listenDue := false } : LineEngine) =
      { grantOver (triedIdle o e) with listenDue := false } := rfl

/-! ## The slot that holds the line -/

theorem tableUpdate_tableFollows (last : Option TryOutcome) (x : Slot) :
    TableUpdate x.line (tableFollows last x) := by
  unfold tableFollows
  cases last with
  | none => cases x.work <;> exact tableUpdate_id _
  | some o =>
    cases x.work with
    | call w => exact tableUpdate_followUnassign x.line w o
    | discover w => exact tableUpdate_followAssign x.line w o
    | _ => exact tableUpdate_id _

theorem noted_commit_work {x : Slot} {w : ParamWork} (work : x.work = .param w) (o : TryOutcome) :
    ∃ v, (noted o x).work = .param v := by
  unfold noted
  rw [work]
  cases o with
  | noReply => dsimp only; split <;> exact ⟨_, by first | rfl | exact work⟩
  | garbled => dsimp only; split <;> exact ⟨_, by first | rfl | exact work⟩
  | _ => exact ⟨w, work⟩

theorem tableFollows_noted (o : TryOutcome) (x : Slot) (s : State) :
    tableFollows (some o) (noted o x) s = tableFollows (some o) x s := by
  by_cases commit : ∃ w, x.work = .param w
  · obtain ⟨w, work⟩ := commit
    obtain ⟨v, form⟩ := noted_commit_work work o
    unfold tableFollows
    rw [work, form]
  · rw [noted_plain (not_exists.1 commit)]

theorem noted_known {o : TryOutcome} {x : Slot} : (noted o x).work = .unknown ↔ x.work = .unknown := by
  by_cases commit : ∃ w, x.work = .param w
  · obtain ⟨w, work⟩ := commit
    obtain ⟨v, form⟩ := noted_commit_work work o
    rw [work, form]
    simp
  · rw [noted_plain (not_exists.1 commit)]

/-- The table once the cut step's last reply has been reported and followed. -/
def cutTable (l : Line) (st : Step) (o : TryOutcome) (x : Slot) (s : State) : State :=
  tableFollows (some o) x (lastReported l st o s)

theorem tableUpdate_cutTable (st : Step) (o : TryOutcome) (x : Slot) :
    TableUpdate x.line (cutTable x.line st o x) :=
  (tableUpdate_tableFollows (some o) x).comp (tableUpdate_lastReported x.line st o)

/-- The state in which the cut of the holder's step ends its slot. -/
def cutHeard (l : Line) (st : Step) (i : SlotId) (x : Slot) (o : TryOutcome) (s : State) : State :=
  ((cutTable l st o x s).setEngine l (overEngine st o (s.engine l))).setSlot i (some (noted o x))

/-- A slot once the cut of its step has judged what its last try has left of it. -/
def cutSlotForm (st : Step) (o : TryOutcome) (x : Slot) : Slot :=
  cutForm st.tries (some o) (noted o x)

/-- The end of the slot whose step is cut. -/
def cutSlotEnd (l : Line) (st : Step) (i : SlotId) (x : Slot) (o : TryOutcome) (s : State) : State :=
  if x.work = .unknown then cutHeard l st i x o s
  else carryOut i (cutHeard l st i x o s) (.ends (cutSlotForm st o x) .lineReset)

theorem endTry_slotCut {l : Line} {s : State} {st : Step} {i : SlotId} {x : Slot}
    (step : (s.engine l).step = some st) (holder : (s.engine l).holder = .slot i)
    (slot : s.slot i = some x) (line : x.line = l) {code : Byte} {tag : Word} {disable forget : Bool}
    (admin : s.admin = some ⟨code, tag, .cutting l disable forget⟩) (o : TryOutcome) :
    endTry l o s = grantEnded l (cutSlotEnd l st i x o s) := by
  have held := reportLast_tried st o i (some (noted o x)) (tried_slot holder slot st o)
  have engine := tried_engine l st o s
  have tries : ((tried l st o s).engine l).triesBegun = st.tries := by
    rw [engine]
    rfl
  have hold : ((tried l st o s).engine l).holder = .slot i := by
    rw [engine]
    exact holder
  rw [endTry_cut step admin]
  unfold cutHolder
  dsimp only
  rw [hold, tries]
  refine congrArg (grantEnded l) ?_
  rw [held]
  generalize hb : ((lastReported l st o s).setEngine l (overEngine st o (s.engine l))).setSlot i
    (some (noted o x)) = b
  have now : b.slot i = some (noted o x) := by
    rw [← hb]
    exact slot_setSlot_self _ i _
  have heard : tableFollows (some o) (noted o x) b = cutHeard l st i x o s := by
    have update := line ▸ tableUpdate_tableFollows (some o) x
    rw [tableFollows_noted, ← hb, update.setSlot, update.setEngine (lastReported l st o s)
      (e := overEngine st o (s.engine l)) ?_]
    · rfl
    · exact (congrArg LineEngine.config ((tableUpdate_lastReported l st o).engine s l).symm :)
  unfold cutSlotEnd
  by_cases known : x.work = .unknown
  · rw [if_pos known, slotCut_unknown now (noted_known.2 known), ← heard, tableFollows_noted]
    unfold tableFollows
    rw [known]
  · rw [if_neg known, slotCut_eq now (mt noted_known.1 known), heard]
    rfl

theorem cutSlotEnd_grows (l : Line) (st : Step) (i : SlotId) (x : Slot) (o : TryOutcome) (s : State) :
    Grows (cutHeard l st i x o s) (cutSlotEnd l st i x o s) := by
  unfold cutSlotEnd
  split
  · exact Grows.refl _
  · exact carryOut_grows i _ _

theorem endsFirst_ended {i : SlotId} {y : Slot} {st : Status} {d : List Byte} {s n : State}
    (results : n.resultRing = s.resultRing) (rings : n.workRing = s.workRing) {m : State}
    (adds : Adds (ended i y st d n) m) (slot : m.slot i = (ended i y st d n).slot i) :
    EndsFirst i y st d s m := by
  obtain ⟨taken, lost⟩ := ended_decided i y st d s (n := n) results rings
  refine ⟨fun takes => ?_, fun closed => ?_⟩
  · obtain ⟨held, pending, -⟩ := taken takes
    obtain ⟨more, after⟩ := adds.pending (s.workRing y.ring).bound
    refine ⟨slot.trans held, more, ?_⟩
    rw [after, pending, List.append_assoc]
    rfl
  · obtain ⟨free, -, count⟩ := lost closed
    have := adds.lost (s.workRing y.ring).bound
    exact ⟨slot.trans free, by omega⟩

/-- What the cut of a slot's step has made of the slot and of the table. -/
structure SlotCutOff (l : Line) (st : Step) (i : SlotId) (x : Slot) (o : TryOutcome) (forget : Bool)
    (s m : State) : Prop where
  ends : EndsFirst i (decided .lineReset (cutSlotForm st o x)) .lineReset
    (slotDetail (cutTable l st o x s) .lineReset (decided .lineReset (cutSlotForm st o x))) s m
  buffer : m.buffer = (cutTable l st o x s).buffer
  lost : m.lost = (cutTable l st o x s).lost
  nodes : forget = false → m.nodes =
    (entryLeft i .lineReset (cutSlotForm st o x) (cutTable l st o x s)).nodes

theorem entryLeft_nodes {i : SlotId} {st : Status} {y : Slot} {u v : State} (nodes : u.nodes = v.nodes) :
    (entryLeft i st y u).nodes = (entryLeft i st y v).nodes := by
  unfold entryLeft
  cases y.work with
  | param w =>
    dsimp only
    unfold State.setEntry State.setTable State.entry State.table
    dsimp only
    rw [nodes]
  | _ => exact nodes

theorem entryLeft_notices (i : SlotId) (st : Status) (y : Slot) (s : State) :
    { entryLeft i st y s with nodes := s.nodes } = s := by
  unfold entryLeft
  cases y.work <;> rfl

/-- A try that ends under a cut of its line, and the slot that holds it. -/
theorem slotCut_ends {l : Line} {s : State} {st : Step} {i : SlotId} {x : Slot} {c : Instr}
    {o : TryOutcome} {code : Byte} {tag : Word} {disable forget : Bool} (live : s.device ≠ .halted)
    (step : (s.engine l).step = some st) (holder : (s.engine l).holder = .slot i)
    (slot : s.slot i = some x) (line : x.line = l) (ends : TryEnds l s st c o)
    (admin : s.admin = some ⟨code, tag, .cutting l disable forget⟩)
    (active : (s.resultRing 0).out.state = .active) :
    ∃ m t : State, exec c s = .next t ∧ Worked s m ∧ After l m t ∧
      CutEnds l code tag disable forget (triedIdle o (s.engine l)) s m ∧
      (∀ j, j ≠ i → m.slot j = s.slot j) ∧
      (x.work ≠ .unknown → SlotCutOff l st i x o forget s m) := by
  have run := tryEnds_exec live step ends fun _ _ => by rw [holder]; nofun
  have worked := worked_endTry (worked_refl s) l o
  have whole := endTry_slotCut step holder slot line admin o
  have grows := cutSlotEnd_grows l st i x o s
  have update := line ▸ tableUpdate_cutTable st o x
  have results : (cutHeard l st i x o s).results = s.results := update.results s
  have rings : (cutHeard l st i x o s).resultRing = s.resultRing := update.resultRing s
  have engine : (cutSlotEnd l st i x o s).engine l = overEngine st o (s.engine l) := by
    rw [grows.engine]
    exact engine_setEngine_self _ l _
  have admin' : (cutSlotEnd l st i x o s).admin = some ⟨code, tag, .cutting l disable forget⟩ :=
    grows.admin.trans ((update.admin s).trans admin)
  have active' : ((cutSlotEnd l st i x o s).resultRing 0).out.state = .active := by
    rw [grows.out, rings]
    exact active
  rw [grantEnded_cuts admin' active', engine] at whole
  have adds : Adds s (cutSlotEnd l st i x o s) := (adds_of_results results).trans grows.adds
  obtain ⟨slots, more, buffer, lost, -, nodes⟩ := cutDone_left l disable forget code tag
    ((cutSlotEnd l st i x o s).setEngine l (grantOver (overEngine st o (s.engine l))))
  rw [← whole] at slots more buffer lost nodes
  refine ⟨endTry l o s, _, run, worked, afterLine_after l _, ?_, fun j other => ?_, fun known => ?_⟩
  · rw [whole]
    refine cutEnds_done ?_ (adds.trans (adds_of_results rfl))
    rw [engine_setEngine_self]
    exact cutEngine_eq st o (s.engine l)
  · refine (slots j).trans ?_
    have heard : (cutHeard l st i x o s).slot j = s.slot j :=
      (slot_setSlot_ne _ _ other).trans (update.slot s j)
    show (cutSlotEnd l st i x o s).slot j = _
    unfold cutSlotEnd
    split
    · exact heard
    · exact (carryOut_other i _ _ other).trans heard
  · have form : cutSlotEnd l st i x o s = ended i (decided .lineReset (cutSlotForm st o x)) .lineReset
        (slotDetail (cutTable l st o x s) .lineReset (decided .lineReset (cutSlotForm st o x)))
        (entryLeft i .lineReset (cutSlotForm st o x)
          ((cutHeard l st i x o s).setSlot i (some (cutSlotForm st o x)))) := by
      unfold cutSlotEnd
      rw [if_neg known, carryOut_ends]
      rfl
    have notices := entryLeft_notices i .lineReset (cutSlotForm st o x)
      ((cutHeard l st i x o s).setSlot i (some (cutSlotForm st o x)))
    have tables := entryLeft_nodes (i := i) (st := .lineReset) (y := cutSlotForm st o x)
      (u := (cutHeard l st i x o s).setSlot i (some (cutSlotForm st o x)))
      (v := cutTable l st o x s) rfl
    generalize entryLeft i .lineReset (cutSlotForm st o x)
      ((cutHeard l st i x o s).setSlot i (some (cutSlotForm st o x))) = n at *
    refine ⟨?_, buffer.trans ?_, lost.trans ?_, fun keeps => (nodes keeps).trans ?_⟩
    · refine endsFirst_ended (n := n) ?_ ?_ ?_ ?_
      · exact (congrArg State.resultRing notices :).trans rings
      · exact (congrArg State.workRing notices :).trans (update.workRing s)
      · rw [← form]
        exact ⟨more.pending, more.lost⟩
      · rw [← form]
        exact slots i
    · show (cutSlotEnd l st i x o s).buffer = _
      rw [form, ended_buffer]
      exact (congrArg State.buffer notices :)
    · show (cutSlotEnd l st i x o s).lost = _
      rw [form, ended_lost]
      exact (congrArg State.lost notices :)
    · show (cutSlotEnd l st i x o s).nodes = _
      rw [form, ended_nodes]
      exact tables

end Sys2Proof.HeldCuts

/-! What the cut of a holder's step leaves of each kind of slot. -/

namespace Sys2Proof.CutKinds

open Sys2Proof Sys2Proof.Machine Sys2Proof.Safety Sys2Proof.Laws Sys2Proof.NodeTable
  Sys2Proof.Registers Sys2Proof.FieldLines Sys2Proof.SlotEnds Sys2Proof.Reports Sys2Proof.Steps
  Sys2Proof.CallEnds Sys2Proof.Rounds Sys2Proof.Discoveries Sys2Proof.Windows Sys2Proof.CommitSteps
  Sys2Proof.SlotRounds Sys2Proof.Aborts Sys2Proof.GrantEnds Sys2Proof.Settings
  Sys2Proof.Blindness Sys2Proof.Cuts Sys2Proof.HeldCuts

theorem endsFirst_detail {i : SlotId} {x : Slot} {st : Status} {d d' : List Byte} {s m : State}
    (h : EndsFirst i x st d s m) (same : d = d') : EndsFirst i x st d' s m := same ▸ h

theorem decided_narrow {st : Status} (h : st = .aborted ∨ st = .lineReset) (y : Slot) :
    decided st y = { y with work := endedWork st y.work } := by
  unfold decided
  rw [decidedWork_narrow h]

theorem discover_no_commit (w : DiscoverWork) (v : ParamWork) : Work.discover w ≠ .param v := by nofun

/-! ## CALL -/

/-- A CALL whose step is cut (R86). -/
def callCutWork (o : TryOutcome) (w : CallWork) : CallWork :=
  match o with
  | .replied r => { w with
      lastReply := some r.status, noticePending := r.noticePending, data := r.data
      allGarbled := false }
  | _ => { w with allGarbled := false }

theorem cutSlotForm_call {x : Slot} {w : CallWork} (work : x.work = .call w) (st : Step)
    (o : TryOutcome) :
    cutSlotForm st o x = { x with tries := st.tries, work := .call (callCutWork o w) } := by
  unfold cutSlotForm cutForm
  rw [noted_call work, work]
  cases o <;> rfl

section

variable {l : Line} {st : Step} {i : SlotId} {x : Slot} {o : TryOutcome} {forget : Bool} {s m : State}

theorem cutCall_ends (h : SlotCutOff l st i x o forget s m) {w : CallWork} (work : x.work = .call w) :
    EndsFirst i { x with tries := st.tries, work := .call (callCutWork o w) } .lineReset
      ([byteOf st.tries, byteOf w.busyRounds,
        lastReplyByte (callCutWork o w).lastReply,
        flagBit (callCutWork o w).noticePending 1, 0] ++ padTo 8 []) s m := by
  have ends := h.ends
  rw [cutSlotForm_call work, decided_narrow (.inr rfl), slotDetail_narrow (.inr rfl)] at ends
  refine endsFirst_detail ends ?_
  have quiet : (callCutWork o w).allGarbled = false := by cases o <;> rfl
  have rounds : (callCutWork o w).busyRounds = w.busyRounds := by cases o <;> rfl
  unfold endedDetail endedWork
  dsimp only
  rw [if_neg (by simp), quiet, flagBit_or_false, rounds]

theorem cutTable_call {w : CallWork} (work : x.work = .call w) : cutTable l st o x s =
    followUnassign x.line w o (lastReported l st o s) := by
  unfold cutTable tableFollows
  rw [work]

theorem cutCall_table (h : SlotCutOff l st i x o forget s m) (line : x.line = l) {w : CallWork}
    (work : x.work = .call w) : m.buffer = (lastReported l st o s).buffer ∧
      m.lost = (lastReported l st o s).lost ∧
      (forget = false → m.nodes = (followUnassign l w o (lastReported l st o s)).nodes) := by
  obtain ⟨-, buffer, lost, nodes⟩ := h
  have notices := followUnassign_buffer l w o (lastReported l st o s)
  rw [cutTable_call work, line] at buffer lost nodes
  refine ⟨buffer.trans (congrArg State.buffer notices :), lost.trans (congrArg State.lost notices :),
    fun keeps => (nodes keeps).trans ?_⟩
  rw [cutSlotForm_call work]
  exact congrArg State.nodes (entryLeft_plain i .lineReset _ fun v => call_no_commit _ v)

theorem followUnassign_other {w : CallWork} (verb : w.verb ≠ verbUnassign) (l : Line) (o : TryOutcome)
    (s : State) : followUnassign l w o s = s := if_neg verb

theorem lastReported_unheard (h : ∀ r, o ≠ .replied r) : lastReported l st o s = s := by
  unfold lastReported
  cases o with
  | replied r => exact absurd rfl (h r)
  | _ => rfl

theorem lastReported_heard {r : Reply} {a : Addr} (target : st.call.target = .node a)
    (reply : st.call.reply = true) (verb : st.call.verb ≠ verbPing) :
    lastReported l st (.replied r) s = hear l a s := by
  show reportStep l st.call false (.replied r) s = _
  rw [reportStep_of_node target reply]
  exact hearReply_eq_hear (.inl verb)

/-! ## SWEEP -/

/-- A SWEEP whose ping is cut (R101). -/
def sweepCutWork (a : Addr) (o : TryOutcome) (w : SweepWork) : SweepWork :=
  match o with
  | .replied _ => { w with
      step := none
      marks := w.marks.map fun p => if p.1 = a then (a, .pinged) else p }
  | _ => w

theorem cutSlotForm_sweep {w : SweepWork} {a : Addr} (work : x.work = .sweep w)
    (step : w.step = some a) :
    cutSlotForm st o x = { x with tries := st.tries, work := .sweep (sweepCutWork a o w) } := by
  unfold cutSlotForm cutForm
  rw [noted_plain (fun v => by rw [work]; nofun), work]
  cases o with
  | replied r =>
    unfold cutWork sweepCutWork
    dsimp only
    rw [pinged_eq step]
  | _ => rfl

theorem cutSweep_ends (h : SlotCutOff l st i x o forget s m) (line : x.line = l) {w : SweepWork}
    {a : Addr} (work : x.work = .sweep w) (step : w.step = some a) :
    EndsFirst i { x with tries := st.tries, work := .sweep (sweepCutWork a o w) } .lineReset
      (sweepDetail ((lastReported l st o s).table l) (sweepCutWork a o w)) s m ∧
    m.buffer = (lastReported l st o s).buffer ∧ m.lost = (lastReported l st o s).lost ∧
    (forget = false → m.nodes = (lastReported l st o s).nodes) := by
  have table : cutTable l st o x s = lastReported l st o s := by
    unfold cutTable tableFollows
    rw [work]
  obtain ⟨ends, buffer, lost, nodes⟩ := h
  rw [table] at ends buffer lost nodes
  rw [cutSlotForm_sweep work step] at ends nodes
  refine ⟨?_, buffer, lost, fun keeps => (nodes keeps).trans ?_⟩
  · rw [decided_narrow (.inr rfl), slotDetail_narrow (.inr rfl)] at ends
    refine endsFirst_detail ends ?_
    unfold endedDetail endedWork
    dsimp only
    rw [if_neg (by simp), line]
  · exact congrArg State.nodes (entryLeft_plain i .lineReset _ fun v => sweep_no_commit _ v)

/-! ## PARAM_WRITE -/

/-- A commit whose step is cut (R108, R124), before its outcome. -/
def commitCutWork (p : Phase) (o : TryOutcome) (w : ParamWork) : ParamWork :=
  { (match o with
    | TryOutcome.replied r => lastJudged p r w
    | .noReply | .garbled => { w with unverified := w.unverified || p == Phase.commit }
    | .sent | .collided => w) with
    polls := if p = Phase.poll ∨ p = Phase.final then min 255 (w.polls + 1) else w.polls }

theorem matched_iff (w : ParamWork) (r : Reply) :
    w.matched r = true ↔ replyDigest r.data = some w.digest := by
  unfold ParamWork.matched
  exact beq_iff_eq

/-- The last reply of a cut commit is judged by its phase (R124). -/
theorem phaseReply_lastJudged (p : Phase) (r : Reply) (w : ParamWork) (k : Nat) :
    (phaseReply p r { w with polls := k }).1 = { lastJudged p r w with polls := k } := by
  rw [phaseReply_eq rfl]
  have fits : ∀ v : ParamWork, v.digest = w.digest →
      (v.matched r = true ↔ replyDigest r.data = some w.digest) := fun v same => by
    rw [matched_iff, same]
  unfold lastJudged
  cases p with
  | prelude => unfold preludeReply; cases r.status <;> rfl
  | stage1 => unfold stageReply; cases r.status <;> rfl
  | stage2 => unfold stageReply; cases r.status <;> rfl
  | commit =>
    unfold commitReply
    cases status : r.status with
    | done =>
      dsimp only
      by_cases own : replyDigest r.data = some w.digest
      · refine (congrArg Prod.fst (if_pos ((fits _ rfl).2 own))).trans ?_
        rw [if_pos own]
      · refine (congrArg Prod.fst (if_neg (mt (fits _ rfl).1 own))).trans ?_
        rw [if_neg own]
    | _ => rfl
  | poll =>
    unfold pollReply
    cases status : r.status with
    | done =>
      dsimp only
      by_cases own : replyDigest r.data = some w.digest
      · refine (congrArg Prod.fst (if_pos ((fits _ rfl).2 own))).trans ?_
        rw [if_pos own]
      · refine (congrArg Prod.fst (if_neg (mt (fits _ rfl).1 own))).trans ?_
        rw [if_neg own]
    | _ => rfl
  | final =>
    unfold finalReply
    cases status : r.status with
    | done =>
      dsimp only
      by_cases own : w.accepted = true ∧ replyDigest r.data = some w.digest
      · refine (congrArg Prod.fst (if_pos ⟨own.1, (fits _ rfl).2 own.2⟩)).trans ?_
        rw [if_pos own]
      · refine (congrArg Prod.fst (if_neg fun h => own ⟨h.1, (fits _ rfl).1 h.2⟩)).trans ?_
        rw [if_neg own]
    | _ => rfl

theorem cutSlotForm_commit {w : ParamWork} {p : Phase} (work : x.work = .param w)
    (phase : w.phase = some p) :
    cutSlotForm st o x = { x with tries := st.tries, work := .param (commitCutWork p o w) } := by
  have phase' := (lostCommit_same p o w).2.1.trans phase
  have counted := countPoll_eq phase'
  have polls : (lostCommit p o w).polls = w.polls := by
    unfold lostCommit
    cases o <;> rfl
  rw [polls] at counted
  unfold cutSlotForm cutForm
  rw [noted_commit work phase]
  have form : cutWork (some o) (.param (lostCommit p o w)) = .param (commitCutWork p o w) := by
    unfold cutWork
    dsimp only
    rw [phase']
    cases o with
    | replied r =>
      dsimp only
      rw [counted]
      exact congrArg Work.param (phaseReply_lastJudged p r w _)
    | _ =>
      dsimp only
      rw [counted]
      rfl
  dsimp only
  rw [form]

theorem lastJudged_addr (p : Phase) (r : Reply) (w : ParamWork) : (lastJudged p r w).addr = w.addr := by
  have same := congrArg ParamWork.addr (phaseReply_lastJudged p r w w.polls)
  rw [phaseReply_addr] at same
  exact same.symm

theorem commitCutWork_addr (p : Phase) (o : TryOutcome) (w : ParamWork) :
    (commitCutWork p o w).addr = w.addr := by
  unfold commitCutWork
  cases o with
  | replied r => exact lastJudged_addr p r w
  | _ => rfl

theorem cutCommit_ends (h : SlotCutOff l st i x o forget s m) (line : x.line = l) {w w' : ParamWork}
    {p : Phase} (work : x.work = .param w) (phase : w.phase = some p) (started : x.started = true)
    (hw' : w' = commitCutWork p o w) :
    EndsFirst i { x with tries := st.tries, work := endedWork .lineReset (.param w') } .lineReset
      (paramDetail s.ms { w' with outcome := outcomeOf true w' }) s m ∧
    m.buffer = (lastReported l st o s).buffer ∧ m.lost = (lastReported l st o s).lost ∧
    (forget = false → ∀ a, m.entry l a = if a = w.addr then
      committed i { w' with outcome := outcomeOf true w' } ((lastReported l st o s).entry l a)
      else (lastReported l st o s).entry l a) := by
  have table : cutTable l st o x s = lastReported l st o s := by
    unfold cutTable tableFollows
    rw [work]
  have now : (lastReported l st o s).ms = s.ms := (tableUpdate_lastReported l st o).msKept s
  have addr : w'.addr = w.addr := by rw [hw', commitCutWork_addr]
  obtain ⟨ends, buffer, lost, nodes⟩ := h
  rw [table] at ends buffer lost nodes
  rw [cutSlotForm_commit work phase, ← hw'] at ends nodes
  refine ⟨?_, buffer, lost, fun keeps a => ?_⟩
  · rw [decided_narrow (.inr rfl), slotDetail_narrow (.inr rfl)] at ends
    refine endsFirst_detail ends ?_
    unfold endedDetail endedWork
    dsimp only
    rw [if_neg (by simp), now]
  · have same : m.entry l a = (entryLeft i .lineReset { x with tries := st.tries, work := .param w' }
        (lastReported l st o s)).entry l a := by
      unfold State.entry State.table
      rw [nodes keeps]
    rw [same, entryLeft_entry, entryEnded_commit rfl]
    dsimp only
    rw [addr, line, outcome_narrow (.inr rfl), started]
    simp only [true_and, eq_comm (a := a)]
    rfl

/-! ## DISCOVER -/

/-- A DISCOVER whose step is cut (R141), before its end reason. -/
def discoverCutWork (o : TryOutcome) (w : DiscoverWork) : DiscoverWork :=
  match w.phase, o with
  | .pick, .replied _ => pickClassed o w
  | .assign, .replied r =>
    if r.status = .ok then
      (match w.current, w.candidate with
      | some c, some a => assignSettled c a
          ((pingData r.data).map (fun d => d.1) == some c.identity) w
      | _, _ => w)
    else w
  | _, _ => w

theorem placed_settled {w : DiscoverWork} {r : Reply} (ok : r.status = .ok) (c : CleanPosition)
    (a : Addr) : w.placed c a (.replied r) =
      assignSettled c a ((pingData r.data).map (fun d => d.1) == some c.identity) w := by
  have data : assignData (.replied r) = pingData r.data := if_pos ok
  by_cases own : (pingData r.data).map (fun d => d.1) = some c.identity
  · rw [own, beq_self_eq_true]
    exact placed_taken (by rw [data]; exact own)
  · rw [beq_false_of_ne own]
    exact placed_lost (by rw [data]; exact own)

theorem cutStep_eq (o : TryOutcome) (w : DiscoverWork) : w.cutStep (some o) = discoverCutWork o w := by
  unfold DiscoverWork.cutStep discoverCutWork
  cases w.phase with
  | pick =>
    cases o with
    | replied r => exact classed_eq (.replied r) w
    | _ => rfl
  | assign =>
    cases o with
    | replied r =>
      dsimp only
      by_cases ok : r.status = .ok
      · rw [if_pos ok, if_pos ok]
        cases w.current with
        | none => rfl
        | some c =>
          cases w.candidate with
          | none => rfl
          | some a => exact placed_settled ok c a
      · rw [if_neg ok, if_neg ok]
    | _ => rfl
  | _ => cases o <;> rfl

theorem cutSlotForm_discover {w : DiscoverWork} (work : x.work = .discover w) :
    cutSlotForm st o x = { x with tries := st.tries, work := .discover (discoverCutWork o w) } := by
  unfold cutSlotForm cutForm
  rw [noted_plain (fun v => by rw [work]; nofun), work, ← cutStep_eq]
  rfl

theorem cutDiscover_ends (h : SlotCutOff l st i x o forget s m) (line : x.line = l)
    {w w' : DiscoverWork} (work : x.work = .discover w) (hw' : w' = discoverCutWork o w) :
    EndsFirst i { x with tries := st.tries, work := .discover { w' with endReason := .cut } } .lineReset
      (discoverDetail { w' with endReason := .cut }) s m ∧
    m.buffer = (followAssign l w o (lastReported l st o s)).buffer ∧
    m.lost = (followAssign l w o (lastReported l st o s)).lost ∧
    (forget = false → m.nodes = (followAssign l w o (lastReported l st o s)).nodes) := by
  have table : cutTable l st o x s = followAssign l w o (lastReported l st o s) := by
    unfold cutTable tableFollows
    rw [work, line]
  obtain ⟨ends, buffer, lost, nodes⟩ := h
  rw [table] at ends buffer lost nodes
  rw [cutSlotForm_discover work, ← hw'] at ends nodes
  refine ⟨?_, buffer, lost, fun keeps => (nodes keeps).trans ?_⟩
  · rw [decided_narrow (.inr rfl), slotDetail_narrow (.inr rfl)] at ends
    exact ends
  · exact congrArg State.nodes (entryLeft_plain i .lineReset _ fun v => discover_no_commit _ v)

end

end Sys2Proof.CutKinds

/-! Cuts that wait for the end of a reflex call or of a listen window, and the requests LINE_RESET and
LINE_DISABLE. -/

namespace Sys2Proof.WindowCuts

open Sys2Proof Sys2Proof.Machine Sys2Proof.Safety Sys2Proof.Laws Sys2Proof.NodeTable
  Sys2Proof.Registers Sys2Proof.RingFaults Sys2Proof.FieldLines Sys2Proof.SlotEnds Sys2Proof.Reports Sys2Proof.Steps
  Sys2Proof.CallEnds Sys2Proof.Windows Sys2Proof.Firings
  Sys2Proof.SlotRounds Sys2Proof.Aborts Sys2Proof.GrantEnds Sys2Proof.Settings
  Sys2Proof.Blindness Sys2Proof.Cuts Sys2Proof.CutRequests Sys2Proof.HeldCuts Sys2Proof.CutKinds

/-- The answer of a cut that ends a grant. -/
theorem grantEnded_cutEnds {l : Line} {code : Byte} {tag : Word} {disable forget : Bool}
    {e : LineEngine} {s p : State} (admin : p.admin = some ⟨code, tag, .cutting l disable forget⟩)
    (active : (p.resultRing 0).out.state = .active)
    (engine : ({ grantOver (p.engine l) with listenDue := false } : LineEngine) =
      { grantOver e with listenDue := false }) (adds : Adds s p) :
    CutEnds l code tag disable forget e s (grantEnded l p) ∧
      CutLeft l disable forget p (grantEnded l p) := by
  rw [grantEnded_cuts admin active]
  refine ⟨cutEnds_done ?_ (adds.trans (adds_of_results rfl)), ?_⟩
  · rw [engine_setEngine_self]
    exact engine
  · obtain ⟨slot, more, buffer, lost, queue, nodes⟩ := cutDone_left l disable forget code tag
      (p.setEngine l (grantOver (p.engine l)))
    exact ⟨slot, ⟨more.pending, more.lost⟩, buffer, lost, queue, nodes⟩

/-! ## A reflex call -/

theorem reflexCut_ends {l : Line} {s : State} {st : Step} {c : Instr} {o : TryOutcome} {code : Byte}
    {tag : Word} {disable forget : Bool} (live : s.device ≠ .halted)
    (step : (s.engine l).step = some st) (holder : (s.engine l).holder = .reflex)
    (ends : TryEnds l s st c o)
    (admin : s.admin = some ⟨code, tag, .cutting l disable forget⟩)
    (active : (s.resultRing 0).out.state = .active) :
    ∃ m t, exec c s = .next t ∧ Worked s m ∧ After l m t ∧
      CutEnds l code tag disable forget (triedIdle o (s.engine l)) s m ∧ m.queue l = [] ∧
      (∀ j, m.slot j = s.slot j) ∧ m.buffer = s.buffer ∧ (forget = false → m.nodes = s.nodes) := by
  have free : ∀ i, (s.engine l).holder ≠ .slot i := fun i => by rw [holder]; nofun
  have whole : endTry l o s = grantEnded l
      ((s.setEngine l ((s.engine l).afterTry (st.afterTry o) o)).setQueue l []) := by
    rw [endTry_cut step admin, tried_other free]
    unfold cutHolder
    dsimp only
    rw [engine_setEngine_self, show ((s.engine l).afterTry (st.afterTry o) o).holder = .reflex from
      holder]
  generalize hp : (s.setEngine l ((s.engine l).afterTry (st.afterTry o) o)).setQueue l [] = p at whole
  have engine : p.engine l = (s.engine l).afterTry (st.afterTry o) o := by
    rw [← hp]
    exact engine_setEngine_self s l _
  have emptied : p.queue l = [] := by
    rw [← hp]
    exact queue_setQueue_self _ l []
  have rest : { p with lines := s.lines, queues := s.queues } = s := by
    rw [← hp]
    rfl
  obtain ⟨cut, left⟩ := grantEnded_cutEnds (e := triedIdle o (s.engine l)) (s := s) (p := p)
    ((congrArg State.admin rest :).trans admin)
    ((congrArg (fun v : State => (v.resultRing 0).out.state) rest :).trans active)
    (by rw [engine]; rfl) (adds_of_results (congrArg State.results rest :))
  refine ⟨endTry l o s, _, tryEnds_exec live step ends fun _ _ => by rw [holder]; nofun,
    worked_endTry (worked_refl s) l o, afterLine_after l _, ?_⟩
  rw [whole]
  refine ⟨cut, ?_, fun j => (left.slot j).trans (congrArg (fun v : State => v.slot j) rest :),
    left.buffer.trans (congrArg State.buffer rest :),
    fun keeps => (left.nodes keeps).trans (congrArg State.nodes rest :)⟩
  cases disable with
  | true => exact cut.queue rfl
  | false => exact (left.queue l (.inr rfl)).trans emptied

/-! ## The step of a series -/

/-- The engine of a line whose series a cut has ended (R38). -/
def seriesEnded (now : Word) (e : LineEngine) : LineEngine := { e with
  series := none
  listenTimer := some (now + BitVec.ofNat 32 e.config.listenInterval) }

theorem seriesCut_ends {l : Line} {s : State} {st : Step} {c : Instr} {o : TryOutcome} {code : Byte}
    {tag : Word} {disable forget : Bool} (live : s.device ≠ .halted)
    (step : (s.engine l).step = some st) (holder : (s.engine l).holder = .series) (unsent : o ≠ .sent)
    (ends : TryEnds l s st c o)
    (admin : s.admin = some ⟨code, tag, .cutting l disable forget⟩)
    (active : (s.resultRing 0).out.state = .active) :
    ∃ m t, exec c s = .next t ∧ Worked s m ∧ After l m t ∧
      CutEnds l code tag disable forget (seriesEnded s.ms (triedIdle o (s.engine l))) s m ∧
      (∀ j, m.slot j = s.slot j) ∧ m.buffer = (lastReported l st o s).buffer ∧
      m.lost = (lastReported l st o s).lost ∧
      (forget = false → m.nodes = (lastReported l st o s).nodes) := by
  have free : ∀ i, (s.engine l).holder ≠ .slot i := fun i => by rw [holder]; nofun
  have update := tableUpdate_lastReported l st o
  have last : reportLast l (some o) (tried l st o s) =
      (lastReported l st o s).setEngine l (overEngine st o (s.engine l)) := by
    have own : ∀ m : State, m.slots = s.slots → m.setSlot 0 (s.slot 0) = m := fun m same =>
      setSlot_self (congrArg (fun v : Vector (Option Slot) 24 => v[(0 : SlotId)]) same)
    have form := (tried_other free st o).trans (own (s.setEngine l _) rfl).symm
    exact (reportLast_tried st o 0 (s.slot 0) form).trans (own _ (update.slots s))
  have whole : endTry l o s = grantEnded l ((lastReported l st o s).setEngine l
      (seriesOver s.ms (overEngine st o (s.engine l)))) := by
    rw [endTry_cut step admin]
    unfold cutHolder
    dsimp only
    rw [tried_engine, show ((s.engine l).afterTry (st.afterTry o) o).holder = .series from holder]
    dsimp only
    rw [last, endSeries_eq, setEngine_setEngine, engine_setEngine_self]
    have now : ((lastReported l st o s).setEngine l (overEngine st o (s.engine l))).ms = s.ms :=
      update.msKept s
    rw [now]
  have slots := update.slots s
  have results := update.results s
  have admin' := (update.admin s).trans admin
  generalize lastReported l st o s = n at *
  have rings : n.resultRing = s.resultRing := funext fun q =>
    congrArg (fun v : Vector ResultRing 4 => v[q]) results
  obtain ⟨cut, left⟩ := grantEnded_cutEnds (disable := disable) (forget := forget)
    (e := seriesEnded s.ms (triedIdle o (s.engine l))) (s := s)
    (p := n.setEngine l (seriesOver s.ms (overEngine st o (s.engine l)))) admin'
    ((congrArg (fun v : ResultRingId → ResultRing => (v 0).out.state) rings :).trans active)
    (by rw [engine_setEngine_self]; rfl) (adds_of_results results)
  refine ⟨endTry l o s, _, tryEnds_exec live step ends fun _ sent => absurd sent unsent,
    worked_endTry (worked_refl s) l o, afterLine_after l _, ?_⟩
  rw [whole]
  exact ⟨cut, fun j => (left.slot j).trans
      (congrArg (fun v : Vector (Option Slot) 24 => v[j]) slots), left.buffer, left.lost, left.nodes⟩

/-! ## A listen window -/

/-- The delivery of a notice of a window that a cut has ended, if it is a valid one (R147). -/
def noticeDelivered (l : Line) (notice : Option NodeNotice) (s : State) : State :=
  match notice with
  | none => s
  | some v =>
    let back := if (s.entry l v.source).state = .silent then
      createNotice (some l) (.nodeBack v.source (s.entry l v.source).identity) s else s
    if (s.entry l v.source).lastSeq = some v.seq then back
    else matchReflexes l v (createNotice (some l) (.nodeNotice v) back)

/-- The engine of a window whose series a cut has ended. -/
def windowEngine (s : State) (l : Line) : LineEngine := seriesEnded s.ms { s.engine l with
  state := .idle, quiet := (s.engine l).quiet && !(s.engine l).frameStarted }

/-- The cut of the series that holds the line, from the end of its window. -/
theorem windowCut_ends {l : Line} {code : Byte} {tag : Word} {disable forget : Bool} {s p : State}
    (holder : (p.engine l).holder = .series)
    (admin : p.admin = some ⟨code, tag, .cutting l disable forget⟩)
    (active : (p.resultRing 0).out.state = .active)
    (engine : ({ grantOver (seriesOver p.ms (p.engine l)) with listenDue := false } : LineEngine) =
      { grantOver (windowEngine s l) with listenDue := false }) (adds : Adds s p) :
    CutEnds l code tag disable forget (windowEngine s l) s (cutHolder l none p) ∧
      CutLeft l disable forget p (cutHolder l none p) := by
  have whole : cutHolder l none p = grantEnded l (p.setEngine l (seriesOver p.ms (p.engine l))) := by
    unfold cutHolder
    dsimp only
    rw [holder]
    rfl
  rw [whole]
  obtain ⟨cut, left⟩ := grantEnded_cutEnds (disable := disable) (forget := forget)
    (e := windowEngine s l) (s := s) (p := p.setEngine l (seriesOver p.ms (p.engine l))) admin active
    (by rw [engine_setEngine_self]; exact engine) (adds.trans (adds_of_results rfl))
  exact ⟨cut, ⟨left.slot, ⟨left.adds.pending, left.adds.lost⟩, left.buffer, left.lost, left.queue,
    left.nodes⟩⟩

theorem delivered_notices {l : Line} {v : NodeNotice} {s : State}
    (listening : (s.engine l).state = .listening) :
    (hearNotice l v (windowClosed l s)).reflexes = (noticeDelivered l (some v) s).reflexes ∧
    (hearNotice l v (windowClosed l s)).queues = (noticeDelivered l (some v) s).queues ∧
    (hearNotice l v (windowClosed l s)).buffer = (noticeDelivered l (some v) s).buffer ∧
    (hearNotice l v (windowClosed l s)).lost = (noticeDelivered l (some v) s).lost := by
  unfold noticeDelivered
  dsimp only
  by_cases same : (s.entry l v.source).lastSeq = some v.seq
  · rw [if_pos same, hearNotice_repeat (s := windowClosed l s) same]
    have frame := (tableUpdate_hear l v.source).frame (windowClosed l s)
    have notices := hear_notices l v.source (windowClosed l s)
    have back : ∀ b, (createNotice (some l) b (windowClosed l s)) =
        (createNotice (some l) b s).setEngine l { s.engine l with
          state := .idle, frameStarted := false, quiet := false } := fun b => by
      have room : (windowClosed l s).buffer = s.buffer := rfl
      unfold createNotice
      rw [room]
      split <;> rfl
    have entry : (windowClosed l s).entry l v.source = s.entry l v.source := rfl
    rw [entry, back] at notices
    generalize hear l v.source (windowClosed l s) = h at *
    have reflexes : h.reflexes = s.reflexes := (congrArg State.reflexes frame :)
    have queues : h.queues = s.queues := (congrArg State.queues frame :)
    split at notices
    · next silent =>
      have rest := createNotice_rest (some l) (.nodeBack v.source (s.entry l v.source).identity) s
      rw [if_pos silent]
      exact ⟨reflexes.trans (congrArg State.reflexes rest :).symm,
        queues.trans (congrArg State.queues rest :).symm, notices.1, notices.2⟩
    · next heard =>
      rw [if_neg heard]
      exact ⟨reflexes, queues, notices.1, notices.2⟩
  · rw [if_neg same, hearNotice_fresh (s := windowClosed l s) same, delivered_on listening rfl]
    exact ⟨rfl, rfl, rfl, rfl⟩

/-- A window that ends under a cut without a valid notice. -/
theorem emptyCut_ends {l : Line} {s : State} {c : Instr} {code : Byte} {tag : Word}
    {disable forget : Bool} (live : s.device ≠ .halted)
    (listening : (s.engine l).state = .listening) (holder : (s.engine l).holder = .series)
    (admin : s.admin = some ⟨code, tag, .cutting l disable forget⟩)
    (active : (s.resultRing 0).out.state = .active)
    (ends : (c = .listenWindowEmpty l ∧ (s.engine l).frameStarted = false) ∨
      ((s.engine l).frameStarted = true ∧ (c = .garbledReception l ∨
        ∃ frame, c = .noticeFrameEnd l frame ∧ judgeNotice frame = none))) :
    ∃ m t, exec c s = .next t ∧ Worked s m ∧ After l m t ∧
      CutEnds l code tag disable forget (windowEngine s l) s m ∧
      CutLeft l disable forget s m := by
  have window : ∀ out : WindowOutcome, (out == .empty) = !(s.engine l).frameStarted →
      CutEnds l code tag disable forget (windowEngine s l) s (endWindow l out s) ∧
        CutLeft l disable forget s (endWindow l out s) := fun out shows => by
    generalize hp : s.setEngine l { s.engine l with
      state := .idle, frameStarted := false, quiet := (s.engine l).quiet && out == .empty } = p
    have engine : p.engine l = { s.engine l with
        state := .idle, frameStarted := false
        quiet := (s.engine l).quiet && out == .empty } := by
      rw [← hp]
      exact engine_setEngine_self s l _
    have rest : { p with lines := s.lines } = s := by
      rw [← hp]
      rfl
    have admin' : p.admin = some ⟨code, tag, .cutting l disable forget⟩ :=
      (congrArg State.admin rest :).trans admin
    have now : p.ms = s.ms := (congrArg State.ms rest :)
    have first : Adds s p := adds_of_results (congrArg State.results rest :)
    have whole : endWindow l out s = cutHolder l none p := by
      unfold endWindow
      dsimp only
      rw [hp, cutting_of admin', if_pos rfl]
    obtain ⟨cut, left⟩ := windowCut_ends (s := s) (by rw [engine]; exact holder) admin'
      ((congrArg (fun v : State => (v.resultRing 0).out.state) rest :).trans active)
      (by rw [engine, now, shows]; rfl) first
    rw [whole]
    refine ⟨cut, fun j => (left.slot j).trans (congrArg (fun v : State => v.slot j) rest :),
      first.trans left.adds,
      left.buffer.trans (congrArg State.buffer rest :), left.lost.trans (congrArg State.lost rest :),
      fun k hk => (left.queue k hk).trans (congrArg (fun v : State => v.queue k) rest :),
      fun keeps => (left.nodes keeps).trans (congrArg State.nodes rest :)⟩
  rcases ends with ⟨rfl, unopened⟩ | ⟨started, hc⟩
  · obtain ⟨cut, left⟩ := window .empty (by rw [unopened]; rfl)
    exact ⟨_, _, exec_windowEmpty live listening unopened, worked_endWindow (worked_refl s) l _,
      afterLine_after l _, cut, left⟩
  · obtain ⟨cut, left⟩ := window .garbled (by rw [started]; rfl)
    exact ⟨_, _, exec_windowGarbled live listening started hc, worked_endWindow (worked_refl s) l _,
      afterLine_after l _, cut, left⟩

/-- A window that ends under a cut with a valid notice: it is delivered, but not taken. -/
theorem noticeCut_ends {l : Line} {s : State} {v : NodeNotice} {frame : List Byte} {code : Byte}
    {tag : Word} {disable forget : Bool} (live : s.device ≠ .halted)
    (listening : (s.engine l).state = .listening) (holder : (s.engine l).holder = .series)
    (started : (s.engine l).frameStarted = true)
    (admin : s.admin = some ⟨code, tag, .cutting l disable forget⟩)
    (active : (s.resultRing 0).out.state = .active) (valid : judgeNotice frame = some v) :
    ∃ m t, exec (.noticeFrameEnd l frame) s = .next t ∧
      Worked { s with reflexes := (noticeDelivered l (some v) s).reflexes } m ∧ AfterBoth m t ∧
      CutEnds l code tag disable forget (windowEngine s l) s m ∧
      CutLeft l disable forget (hearNotice l v (windowClosed l s)) m := by
  have rest := hearNotice_rest l v (windowClosed l s)
  obtain ⟨reflexes, -, -, -⟩ := delivered_notices (v := v) listening
  have engine : (hearNotice l v (windowClosed l s)).engine l =
      { s.engine l with state := .idle, frameStarted := false, quiet := false } := by
    rw [hearNotice_engine]
    exact engine_setEngine_self s l _
  have valued : ∀ h : State, h = hearNotice l v (windowClosed l s) →
      exec (.noticeFrameEnd l frame) s = .next (afterBoth (endWindowValid l v s)) ∧
        (h.cutting l = true → endWindowValid l v s = cutHolder l none h) := by
    rintro h rfl
    refine ⟨?_, fun cut => ?_⟩
    · show Host.Outcome.next (noticeEnds l frame s) = _
      unfold noticeEnds
      dsimp only
      rw [if_pos ⟨live_of_ne live, listening, started⟩, valid]
    · unfold endWindowValid
      dsimp only
      rw [← windowClosed, cut, if_pos rfl]
  have delivered : Worked { s with reflexes := (hearNotice l v (windowClosed l s)).reflexes }
      (hearNotice l v (windowClosed l s)) :=
    worked_delivered (congrArg (fun u : State => { u with lines := s.lines }) rest :)
  rw [reflexes] at delivered
  obtain ⟨run, whole⟩ := valued _ rfl
  generalize hearNotice l v (windowClosed l s) = h at *
  have admin' : h.admin = some ⟨code, tag, .cutting l disable forget⟩ :=
    (congrArg State.admin rest :).trans admin
  obtain ⟨cut, left⟩ := windowCut_ends (s := s) (by rw [engine]; exact holder) admin'
    ((congrArg (fun u : State => (u.resultRing 0).out.state) rest :).trans active)
    (by
      have now : h.ms = s.ms := (congrArg State.ms rest :)
      rw [engine, now]
      unfold windowEngine
      rw [started, Bool.not_true, Bool.and_false]
      rfl)
    (adds_of_results (congrArg State.results rest :))
  rw [whole (cutting_of admin')] at run
  exact ⟨_, _, run, worked_cutHolder delivered l none, afterBoth_after _, cut, left⟩

/-! ## The clauses -/

/-- The kinds of slot that may hold the line, once the try in progress has ended. -/
theorem heldCut_kinds {l : Line} {s n : State} {st : Step} {i : SlotId} {x x' : Slot} {c : Instr}
    {o : TryOutcome} {code : Byte} {tag : Word} {disable forget : Bool} (live : s.device ≠ .halted)
    (step : (s.engine l).step = some st) (holder : (s.engine l).holder = .slot i)
    (slot : s.slot i = some x) (line : x.line = l) (ends : TryEnds l s st c o)
    (admin : s.admin = some ⟨code, tag, .cutting l disable forget⟩)
    (active : (s.resultRing 0).out.state = .active) (hn : n = lastReported l st o s)
    (hx' : x' = { x with tries := st.tries }) :
    ∃ m t : State, exec c s = .next t ∧ Worked s m ∧ After l m t ∧
      CutEnds l code tag disable forget (triedIdle o (s.engine l)) s m ∧
      (∀ j, j ≠ i → m.slot j = s.slot j) ∧
      (∀ w, x.work = .call w →
        EndsFirst i { x' with work := .call (callCutWork o w) } .lineReset
          ([byteOf st.tries, byteOf w.busyRounds, lastReplyByte (callCutWork o w).lastReply,
            flagBit (callCutWork o w).noticePending 1, 0] ++ padTo 8 []) s m ∧
        m.buffer = n.buffer ∧ m.lost = n.lost ∧
        (forget = false → m.nodes = (followUnassign l w o n).nodes) ∧
        (forget = false → (∀ r, o ≠ .replied r) → w.verb ≠ verbUnassign → m.nodes = s.nodes) ∧
        (forget = false → ∀ r a, o = .replied r → st.call.target = .node a →
          st.call.reply = true → st.call.verb ≠ verbPing → w.verb ≠ verbUnassign →
          m.entry l a = (s.entry l a).heard s.ms ∧ ∀ b, b ≠ a → m.entry l b = s.entry l b)) ∧
      (∀ (w w' : SweepWork) (a : Addr), x.work = .sweep w → w.step = some a →
        w' = sweepCutWork a o w →
        EndsFirst i { x' with work := .sweep w' } .lineReset (sweepDetail (n.table l) w') s m ∧
        m.buffer = n.buffer ∧ m.lost = n.lost ∧ (forget = false → m.nodes = n.nodes)) ∧
      (∀ (w w' : ParamWork) (p : Phase), x.work = .param w → w.phase = some p →
        x.started = true → w' = commitCutWork p o w →
        EndsFirst i { x' with work := endedWork .lineReset (.param w') } .lineReset
          (paramDetail s.ms { w' with outcome := outcomeOf true w' }) s m ∧
        m.buffer = n.buffer ∧ m.lost = n.lost ∧
        (forget = false → ∀ a, m.entry l a = if a = w.addr then
          committed i { w' with outcome := outcomeOf true w' } (n.entry l a) else n.entry l a)) ∧
      (∀ w w' : DiscoverWork, x.work = .discover w → w' = discoverCutWork o w →
        EndsFirst i { x' with work := .discover { w' with endReason := .cut } } .lineReset
          (discoverDetail { w' with endReason := .cut }) s m ∧
        m.buffer = (followAssign l w o n).buffer ∧ m.lost = (followAssign l w o n).lost ∧
        (forget = false → m.nodes = (followAssign l w o n).nodes)) := by
  subst hn hx'
  obtain ⟨m, t, run, worked, after, cut, others, kinds⟩ :=
    slotCut_ends live step holder slot line ends admin active
  refine ⟨m, t, run, worked, after, cut, others, fun w work => ?_, fun w w' a work step hw => ?_,
    fun w w' p work phase started hw => ?_, fun w w' work hw => ?_⟩
  · have off := kinds (by rw [work]; nofun)
    obtain ⟨buffer, lost, nodes⟩ := cutCall_table off line work
    refine ⟨cutCall_ends off work, buffer, lost, nodes, fun keeps unheard verb => ?_,
      fun keeps r a replied target reply ping verb => ?_⟩
    · rw [nodes keeps, followUnassign_other verb, lastReported_unheard unheard]
    · subst replied
      have same := nodes keeps
      rw [followUnassign_other verb, lastReported_heard target reply ping] at same
      have entry : ∀ b, m.entry l b = (hear l a s).entry l b := fun b => by
        unfold State.entry State.table
        rw [same]
      exact ⟨(entry a).trans (hear_entry l a s),
        fun b other => (entry b).trans (hear_entry_ne l s other)⟩
  · subst hw
    exact cutSweep_ends (kinds (by rw [work]; nofun)) line work step
  · exact cutCommit_ends (kinds (by rw [work]; nofun)) line work phase started hw
  · exact cutDiscover_ends (kinds (by rw [work]; nofun)) line work hw

/-- An entry once a window has ended, with a valid notice or without one (R147). -/
def entryDelivered (l : Line) (notice : Option NodeNotice) (s : State) (a : Addr) : NodeEntry :=
  match notice with
  | none => s.entry l a
  | some v => if a = v.source then
      { (s.entry l a).heard s.ms with lastSeq := some v.seq } else s.entry l a

/-- A listen window that ends under a cut. -/
theorem listenCut_ends {l : Line} {s n : State} {c : Instr} {notice : Option NodeNotice}
    {code : Byte} {tag : Word} {disable forget : Bool} (live : s.device ≠ .halted)
    (listening : (s.engine l).state = .listening) (holder : (s.engine l).holder = .series)
    (admin : s.admin = some ⟨code, tag, .cutting l disable forget⟩)
    (active : (s.resultRing 0).out.state = .active)
    (ends : (c = .listenWindowEmpty l ∧ (s.engine l).frameStarted = false ∧ notice = none) ∨
      ((s.engine l).frameStarted = true ∧ ((c = .garbledReception l ∧ notice = none) ∨
        ∃ frame, c = .noticeFrameEnd l frame ∧ notice = judgeNotice frame)))
    (hn : n = noticeDelivered l notice s) :
    ∃ m t, exec c s = .next t ∧ Worked { s with reflexes := n.reflexes } m ∧
      (if notice = none then After l m t else AfterBoth m t) ∧
      CutEnds l code tag disable forget (windowEngine s l) s m ∧ (∀ j, m.slot j = s.slot j) ∧
      m.buffer = n.buffer ∧ m.lost = n.lost ∧
      (∀ k, k ≠ l ∨ disable = false → m.queue k = n.queue k) ∧
      (forget = false → ∀ a, m.entry l a = entryDelivered l notice s a) := by
  cases notice with
  | none =>
    have cases : (c = .listenWindowEmpty l ∧ (s.engine l).frameStarted = false) ∨
        ((s.engine l).frameStarted = true ∧ (c = .garbledReception l ∨
          ∃ frame, c = .noticeFrameEnd l frame ∧ judgeNotice frame = Option.none)) := by
      rcases ends with ⟨empty, unopened, -⟩ | ⟨started, ⟨garbled, -⟩ | ⟨frame, hc, bad⟩⟩
      · exact .inl ⟨empty, unopened⟩
      · exact .inr ⟨started, .inl garbled⟩
      · exact .inr ⟨started, .inr ⟨frame, hc, bad.symm⟩⟩
    obtain ⟨m, t, run, worked, after, cut, left⟩ :=
      emptyCut_ends live listening holder admin active cases
    subst hn
    refine ⟨m, t, run, worked, by rw [if_pos rfl]; exact after, cut, left.slot, left.buffer, left.lost,
      left.queue, fun keeps a => ?_⟩
    unfold State.entry State.table
    rw [left.nodes keeps]
    rfl
  | some v =>
    obtain ⟨started, frame, rfl, valid⟩ : (s.engine l).frameStarted = true ∧
        ∃ frame, c = .noticeFrameEnd l frame ∧ judgeNotice frame = some v := by
      rcases ends with ⟨-, -, none⟩ | ⟨started, ⟨-, none⟩ | ⟨frame, hc, valid⟩⟩
      · cases none
      · cases none
      · exact ⟨started, frame, hc, valid.symm⟩
    obtain ⟨m, t, run, worked, after, cut, left⟩ :=
      noticeCut_ends live listening holder started admin active valid
    obtain ⟨-, queues, buffer, lost⟩ := delivered_notices (v := v) listening
    have rest := hearNotice_rest l v (windowClosed l s)
    have entry := hearNotice_entry l v (windowClosed l s)
    subst hn
    generalize hearNotice l v (windowClosed l s) = h at *
    refine ⟨m, t, run, worked, by rw [if_neg (by simp)]; exact after, cut,
      fun j => (left.slot j).trans (congrArg (fun u : State => u.slot j) rest :),
      left.buffer.trans buffer, left.lost.trans lost, fun k hk => ?_, fun keeps a => ?_⟩
    · rw [left.queue k hk]
      unfold State.queue
      rw [queues]
    · have same : m.entry l a = h.entry l a := by
        unfold State.entry State.table
        rw [left.nodes keeps]
      rw [same, entry]
      by_cases own : a = v.source
      · subst own
        exact (if_pos rfl).trans (if_pos rfl).symm
      · exact (if_neg own).trans (if_neg own).symm

/-- Settles O26. -/
theorem cutsEndTheWorkOfALine : Obligations.CutsEndTheWorkOfALine := by
  refine ⟨fun r s l c disable h hc code idle series known =>
      cut_at_once h hc code idle series known,
    fun r s l c disable h hc code held busy => cut_waits h hc code held busy,
    fun l s n st i x x' c o code tag disable forget live step holder slot line ends admin active hn
      hx' => ?_,
    fun l s n st c o e code tag disable forget live step ends admin active hn he =>
      ⟨fun holder => ?_, fun holder unsent => ?_⟩,
    fun l s n c e notice code tag disable forget live listening holder admin active ends he hn => ?_⟩
  · have reports : n = lastReported l st o s := by
      rw [hn]
      cases o <;> rfl
    obtain ⟨m, t, run, worked, after, cut, others, call, sweep, commit, discover⟩ :=
      heldCut_kinds live step holder slot line ends admin active reports hx'
    refine ⟨m, t, run, worked, after, cut, others, fun w work => ?_, fun w w' a work at_ hw =>
      sweep w w' a work at_ ?_, fun w w1 w' p work phase started hw1 hw =>
      commit w w' p work phase started ?_, fun w w' work hw => discover w w' work ?_⟩
    · have own := call w work
      cases o <;> exact own
    · rw [hw]
      cases o <;> rfl
    · rw [hw, hw1]
      cases o <;> rfl
    · rw [hw]
      unfold discoverCutWork
      cases w.phase <;> cases o <;> rfl
  · have free : e = triedIdle o (s.engine l) := by
      rw [he]
      cases o <;> rfl
    rw [free]
    exact reflexCut_ends live step holder ends admin active
  · have free : e = triedIdle o (s.engine l) := by
      rw [he]
      cases o <;> rfl
    have reports : n = lastReported l st o s := by
      rw [hn]
      cases o <;> rfl
    rw [free, reports]
    exact seriesCut_ends live step holder unsent ends admin active
  · have delivers : n = noticeDelivered l notice s := by
      rw [hn]
      cases notice <;> rfl
    rw [he]
    obtain ⟨m, t, run, worked, after, cut, slots, buffer, lost, queue, entry⟩ :=
      listenCut_ends live listening holder admin active ends delivers
    refine ⟨m, t, run, worked, after, cut, slots, buffer, lost, queue, fun keeps a => ?_⟩
    have own := entry keeps a
    cases notice <;> exact own

end Sys2Proof.WindowCuts

/-! The entry of a line to DOWN: what its slots hear of it. -/

namespace Sys2Proof.Downs

open Sys2Proof Sys2Proof.Machine Sys2Proof.Safety Sys2Proof.Laws Sys2Proof.NodeTable
  Sys2Proof.Registers Sys2Proof.RingFaults Sys2Proof.FieldLines Sys2Proof.SlotEnds Sys2Proof.Reports
  Sys2Proof.Steps Sys2Proof.CallEnds Sys2Proof.Rounds Sys2Proof.Discoveries Sys2Proof.Windows
  Sys2Proof.CommitSteps Sys2Proof.SlotDeadlines Sys2Proof.Fills Sys2Proof.SlotRounds
  Sys2Proof.Aborts Sys2Proof.GrantEnds Sys2Proof.Blindness Sys2Proof.Cuts Sys2Proof.CutRequests
  Sys2Proof.HeldCuts Sys2Proof.CutKinds

/-! ## The line goes to DOWN -/

/-- The holder's slot as the entry to DOWN finds it: a COMMIT in its reply window is marked (R108). -/
def downNoted (e : LineEngine) (x : Slot) : Slot :=
  if e.state = .awaiting ∨ e.state = .receiving then noted .garbled x else x

/-- The state with LINE_DOWN and the line DOWN, whatever the holder's slot is. -/
def lineDown (l : Line) (s : State) : State :=
  (createNotice (some l) (.lineDown (s.engine l).state) s).setEngine l (s.engine l).down

theorem createNotice_engine (k : Option Line) (b : NoticeBody) (s : State) (l : Line) :
    (createNotice k b s).engine l = s.engine l :=
  (congrArg (fun v : State => v.engine l) (createNotice_rest k b s) :)

theorem noteDownCommit_eq (l : Line) (s : State) : noteDownCommit l s =
    if (s.engine l).state = .awaiting ∨ (s.engine l).state = .receiving then
      noteLostCommit l .garbled s
    else s := by
  unfold noteDownCommit
  cases (s.engine l).state <;> rfl

theorem goDown_eq (l : Line) (s : State) : goDown l s =
    (noteDownCommit l (createNotice (some l) (.lineDown (s.engine l).state) s)).setEngine l
      (s.engine l).down := rfl

theorem goDown_slot {l : Line} {s : State} {i : SlotId} {x : Slot}
    (holder : (s.engine l).holder = .slot i) (slot : s.slot i = some x) :
    goDown l s = (lineDown l s).setSlot i (some (downNoted (s.engine l) x)) := by
  have engine := createNotice_engine (some l) (.lineDown (s.engine l).state) s l
  have held := (createNotice_slot (some l) (.lineDown (s.engine l).state) s i).trans slot
  rw [goDown_eq, lineDown]
  generalize createNotice (some l) (.lineDown (s.engine l).state) s = n at *
  have marks : noteDownCommit l n = n.setSlot i (some (downNoted (s.engine l) x)) := by
    rw [noteDownCommit_eq, engine]
    unfold downNoted
    split
    · exact noteLostCommit_slot (by rw [engine]; exact holder) held _
    · exact (setSlot_self held).symm
  rw [marks]
  rfl

theorem goDown_other {l : Line} {s : State}
    (free : ∀ i, (s.engine l).holder = .slot i → s.slot i = none) : goDown l s = lineDown l s := by
  have engine := createNotice_engine (some l) (.lineDown (s.engine l).state) s l
  have slots := createNotice_slot (some l) (.lineDown (s.engine l).state) s
  rw [goDown_eq, lineDown]
  generalize createNotice (some l) (.lineDown (s.engine l).state) s = n at *
  have stays : noteLostCommit l .garbled n = n := by
    show markUnverified l n = n
    unfold markUnverified
    rw [engine]
    cases holder : (s.engine l).holder with
    | slot i =>
      dsimp only
      rw [slots, free i holder]
    | _ => rfl
  rw [noteDownCommit_eq, stays, ite_self]

/-- What LINE_DOWN and the state DOWN leave. -/
theorem lineDown_rest (l : Line) (s : State) :
    { lineDown l s with lines := s.lines, buffer := s.buffer, lost := s.lost } = s :=
  (congrArg (fun v : State => { v with lines := s.lines })
    (createNotice_rest (some l) (.lineDown (s.engine l).state) s) :)

/-- What the entry of a line to DOWN leaves before its slots hear of it. -/
structure Gone (l : Line) (s g : State) : Prop where
  rest : { g with lines := s.lines, slots := s.slots, buffer := s.buffer, lost := s.lost } = s
  engine : g.engine l = (s.engine l).down
  buffer : g.buffer = (createNotice (some l) (.lineDown (s.engine l).state) s).buffer
  lost : g.lost = (createNotice (some l) (.lineDown (s.engine l).state) s).lost
  held : ∀ i x, (s.engine l).holder = .slot i → s.slot i = some x →
    g.slot i = some (downNoted (s.engine l) x)
  free : ∀ i, s.slot i = none → g.slot i = none
  other : ∀ i, (s.engine l).holder ≠ .slot i → g.slot i = s.slot i

theorem goDown_gone (l : Line) (s : State) : Gone l s (goDown l s) := by
  have rest := lineDown_rest l s
  have slots : ∀ i, (lineDown l s).slot i = s.slot i := fun i =>
    (congrArg (fun v : State => v.slot i) rest :)
  by_cases holds : ∃ i x, (s.engine l).holder = .slot i ∧ s.slot i = some x
  · obtain ⟨i, x, holder, slot⟩ := holds
    rw [goDown_slot holder slot]
    refine ⟨(congrArg (fun v : State => { v with slots := s.slots }) rest :),
      engine_setEngine_self _ l _, rfl, rfl, fun j y held own => ?_, fun j free => ?_,
      fun j other => ?_⟩
    · obtain rfl : i = j := Holder.slot.inj (holder.symm.trans held)
      obtain rfl := Option.some.inj (slot.symm.trans own)
      exact slot_setSlot_self _ i _
    · have ne : j ≠ i := by
        rintro rfl
        rw [slot] at free
        cases free
      exact (slot_setSlot_ne _ _ ne).trans ((slots j).trans free)
    · have ne : j ≠ i := by
        rintro rfl
        exact other holder
      exact (slot_setSlot_ne _ _ ne).trans (slots j)
  · have none : ∀ i, (s.engine l).holder = .slot i → s.slot i = none := fun i holder => by
      cases slot : s.slot i with
      | none => rfl
      | some x => exact absurd ⟨i, x, holder, slot⟩ holds
    rw [goDown_other none]
    refine ⟨(congrArg (fun v : State => { v with slots := s.slots }) rest :),
      engine_setEngine_self _ l _, rfl, rfl, fun j y held own => absurd ⟨j, y, held, own⟩ holds,
      fun j free => (slots j).trans free, fun j _ => slots j⟩

/-! ## The slots that did not hold the line -/

/-- The round of a discovery that DOWN has ended goes on, or the discovery ends (R139). -/
def roundDown (x : Slot) (w : DiscoverWork) : Verdict :=
  if w.endReason = .none then .becomes { x with state := .ready, work := .discover w }
  else .ends { x with work := .discover w } .ok

/-- What the entry to DOWN makes of a started slot of the line that did not hold it (R87). -/
def startedDown (x : Slot) : Verdict :=
  match x.work with
  | .call w => .ends { x with work := .call { w with allGarbled := false } }
      (if x.abortPending = true then .aborted else .lineDown)
  | .discover w =>
    match x.state with
    | .waiting _ | .ready => roundDown x (if w.phase ≠ .roll then w.roundEnd false else w)
    | .onLine | .paused | .finishing => .stays
  | .sweep _ | .param _ | .unknown => .stays

/-- What the entry to DOWN makes of a slot (R87). -/
def downs (l : Line) (e : LineEngine) (i : SlotId) (x : Slot) : Verdict :=
  if e.holder = .slot i then .stays
  else if x.line = l ∧ x.started = true ∧ x.unfinished = true then startedDown x
  else .stays

theorem discoverContinues_carried (i : SlotId) (x : Slot) (w : DiscoverWork) (s : State) :
    discoverContinues i x w s = carryOut i s (roundDown x w) := by
  unfold discoverContinues roundDown
  split <;> rfl

theorem otherDown_eq (l : Line) (e : LineEngine) : otherDown l e = visit (downs l e) := by
  funext s i
  unfold otherDown visit downs
  by_cases holder : e.holder = .slot i
  · rw [if_pos holder]
    cases s.slot i with
    | none => rfl
    | some x =>
      dsimp only
      rw [if_pos holder]
      rfl
  · rw [if_neg holder]
    cases slot : s.slot i with
    | none => rfl
    | some x =>
      dsimp only
      rw [if_neg holder]
      by_cases hears : x.line = l ∧ x.started = true ∧ x.unfinished = true
      · rw [if_pos hears, if_pos hears]
        unfold startedDown
        cases work : x.work with
        | call w => rfl
        | discover w =>
          dsimp only
          have goes : discoverDown i x w false s =
              carryOut i s (roundDown x (if w.phase ≠ .roll then w.roundEnd false else w)) := by
            unfold discoverDown
            simp only [Bool.false_eq_true, false_or, false_and, if_false]
            exact discoverContinues_carried i x _ s
          cases state : x.state with
          | waiting r => exact goes
          | ready => exact goes
          | _ => rfl
        | _ => rfl
      · rw [if_neg hears, if_neg hears]
        rfl

theorem hearDown_eq (l : Line) (e : LineEngine) (g : State) : hearDown l e g =
    visitAll (downs l e) (holderDown l e (g.cutting l) g) :=
  congrArg (fun f => allSlots.foldl f (holderDown l e (g.cutting l) g)) (otherDown_eq l e)

theorem unfinished_iff {x : Slot} : x.unfinished = true ↔ x.state ≠ .finishing := by
  unfold Slot.unfinished
  exact bne_iff_ne

theorem slotDetail_callDown {s : State} {st : Status} {y : Slot} {w : CallWork}
    (h : st = .aborted ∨ st = .lineDown) (work : y.work = .call w) (started : y.started = true)
    (garbled : w.allGarbled = false) : slotDetail s st y =
      [byteOf y.tries, byteOf w.busyRounds, lastReplyByte w.lastReply, flagBit w.noticePending 1, 0]
        ++ padTo 8 [] := by
  have whole : zeroDetail st y = false := by
    unfold zeroDetail
    rw [work, started]
    rcases h with rfl | rfl <;> rfl
  rw [slotDetail_call work whole]
  unfold callDetail
  rw [garbled, flagBit_or_false]
  rcases h with rfl | rfl <;> rfl

theorem slotDetail_discovery {s : State} {y : Slot} {w : DiscoverWork} {st : Status}
    (h : st = .ok ∨ st = .aborted) (work : y.work = .discover w) :
    slotDetail s st y = discoverDetail w := by
  have whole : zeroDetail st y = false := by
    unfold zeroDetail
    rw [work]
    rcases h with rfl | rfl <;> rfl
  unfold slotDetail
  rw [whole, work]
  rfl

theorem met_round {i : SlotId} {x z : Slot} {w : DiscoverWork} {s m : State}
    (h : Met i z s m (roundDown x w)) :
    if w.endReason = .none then m.slot i = some { x with state := .ready, work := .discover w }
    else EndsAmong i { x with work := .discover w } .ok (discoverDetail w) s m := by
  unfold roundDown at h
  split at h
  · next goes =>
    rw [if_pos goes]
    exact h
  · next over_ =>
    rw [if_neg over_]
    have ends : EndsAmong i { x with work := .discover w } .ok
        (slotDetail s .ok { x with work := .discover w }) s m := h
    rwa [slotDetail_discovery (.inl rfl) rfl] at ends

/-- What the round of DOWN over the slots makes of one that did not hold the line. -/
theorem hearsDown_met {l : Line} {e : LineEngine} {i : SlotId} {x : Slot} {s m : State}
    (h : Met i x s m (downs l e i x)) (other : e.holder ≠ .slot i) : HearsDown l i x s m := by
  unfold downs at h
  rw [if_neg other] at h
  refine ⟨fun left => ?_, fun w line started open_ work => ?_,
    fun w w' line started work state hw => ?_⟩
  · by_cases hears : x.line = l ∧ x.started = true ∧ x.unfinished = true
    · rw [if_pos hears] at h
      obtain ⟨line, started, unfinished⟩ := hears
      rcases left with other | off | done | ⟨w, work⟩ | ⟨w, work⟩
      · exact absurd line other
      · rw [started] at off
        cases off
      · exact absurd done (unfinished_iff.1 unfinished)
      · unfold startedDown at h
        rw [work] at h
        exact h
      · unfold startedDown at h
        rw [work] at h
        exact h
    · rw [if_neg hears] at h
      exact h
  · rw [if_pos ⟨line, started, unfinished_iff.2 open_⟩] at h
    unfold startedDown at h
    rw [work] at h
    have ends : EndsAmong i { x with work := .call { w with allGarbled := false } }
        (if x.abortPending = true then .aborted else .lineDown)
        (slotDetail s (if x.abortPending = true then .aborted else .lineDown)
          { x with work := .call { w with allGarbled := false } }) s m := h
    have detail := slotDetail_callDown (s := s)
      (st := if x.abortPending = true then .aborted else .lineDown)
      (y := { x with work := .call { w with allGarbled := false } }) (by split <;> simp) rfl started
      rfl
    rw [detail] at ends
    exact ends
  · have open_ : x.state ≠ .finishing := by
      rcases state with state | ⟨r, state⟩ <;> rw [state] <;> nofun
    rw [if_pos ⟨line, started, unfinished_iff.2 open_⟩] at h
    unfold startedDown at h
    rw [work] at h
    rw [hw]
    refine met_round (x := x) (z := x) ?_
    rcases state with state | ⟨r, state⟩ <;> rw [state] at h <;> exact h

/-! ## The round leaves the table -/

theorem carryOut_nodes {i : SlotId} {s : State} {o : Verdict}
    (plain : ∀ y st, o = .ends y st → ∀ w, y.work ≠ .param w) : (carryOut i s o).nodes = s.nodes := by
  cases o with
  | stays => rfl
  | becomes y => rfl
  | ends y st =>
    rw [carryOut_ends, ended_nodes, entryLeft_plain i st _ (plain y st rfl)]
    rfl

theorem visitAll_nodes {v : SlotId → Slot → Verdict} {s : State}
    (plain : ∀ i x y st, v i x = .ends y st → ∀ w, y.work ≠ .param w) :
    (visitAll v s).nodes = s.nodes := by
  have round : ∀ (ks : List SlotId) (m : State), (ks.foldl (visit v) m).nodes = m.nodes := by
    intro ks
    induction ks with
    | nil => exact fun m => rfl
    | cons k ks ih =>
      intro m
      refine (ih _).trans ?_
      unfold visit
      cases m.slot k with
      | none => rfl
      | some x => exact carryOut_nodes (plain k x)
  exact round allSlots s

theorem roundDown_plain {x y : Slot} {w : DiscoverWork} {st : Status}
    (h : roundDown x w = .ends y st) (p : ParamWork) : y.work ≠ .param p := by
  unfold roundDown at h
  split at h
  · cases h
  · obtain ⟨rfl, -⟩ := Verdict.ends.inj h
    exact discover_no_commit w p

theorem downs_plain {l : Line} {e : LineEngine} (i : SlotId) (x y : Slot) (st : Status)
    (h : downs l e i x = .ends y st) (w : ParamWork) : y.work ≠ .param w := by
  unfold downs at h
  split at h
  · cases h
  · split at h
    · unfold startedDown at h
      split at h
      · obtain ⟨rfl, -⟩ := Verdict.ends.inj h
        exact call_no_commit _ w
      · split at h
        · exact roundDown_plain h w
        · exact roundDown_plain h w
        all_goals cases h
      all_goals cases h
    · cases h

end Sys2Proof.Downs

/-! What the entry of a line to DOWN makes of the slot that holds the line. -/

namespace Sys2Proof.DownHolders

open Sys2Proof Sys2Proof.Machine Sys2Proof.Safety Sys2Proof.Laws Sys2Proof.NodeTable
  Sys2Proof.Registers Sys2Proof.RingFaults Sys2Proof.FieldLines Sys2Proof.SlotEnds Sys2Proof.Reports
  Sys2Proof.Steps Sys2Proof.CallEnds Sys2Proof.Rounds Sys2Proof.Discoveries Sys2Proof.Windows
  Sys2Proof.CommitSteps Sys2Proof.SlotDeadlines Sys2Proof.Fills Sys2Proof.Firings
  Sys2Proof.SlotRounds Sys2Proof.Aborts Sys2Proof.GrantEnds Sys2Proof.Blindness Sys2Proof.Cuts
  Sys2Proof.CutRequests Sys2Proof.HeldCuts Sys2Proof.CutKinds Sys2Proof.Downs

/-! ## Ends of slots, mismatches counted or not -/

/-- The end of a slot decides its result, once the entry of a commit has followed. -/
theorem endSlot_shape {s : State} {i : SlotId} {x : Slot} (slot : s.slot i = some x) (st : Status)
    (narrow : Bool) : ∃ y d n, endSlot i st narrow s = ended i y st d n ∧ Grows s n ∧
      ∀ j, n.slot j = s.slot j := by
  by_cases commit : ∃ w, x.work = .param w
  · obtain ⟨w, work⟩ := commit
    obtain ⟨v, hv⟩ : ∃ v : ParamWork, v = { w with outcome := commitOutcome st narrow w } := ⟨_, rfl⟩
    cases started : x.started with
    | true => exact ⟨_, _, _, endSlot_commit slot work started hv, Grows.setEntry rfl, fun _ => rfl⟩
    | false =>
      refine ⟨_, _, _, endSlot_unstarted slot work started hv, ?_, fun _ => ?_⟩
      · rw [releaseLock_eq]
        exact Grows.setEntry rfl
      · rw [releaseLock_eq]
        rfl
  · have plain := not_exists.1 commit
    by_cases discovery : ∃ w, x.work = .discover w
    · obtain ⟨w, work⟩ := discovery
      exact ⟨_, _, s, endSlot_discovery slot work st narrow, Grows.refl s, fun _ => rfl⟩
    · exact ⟨_, _, s, endSlot_direct slot plain (not_exists.1 discovery) st narrow, Grows.refl s,
        fun _ => rfl⟩

/-- Between two states a slot alone has been judged. -/
structure Judged (i : SlotId) (s m : State) : Prop where
  grows : Grows s m
  other : ∀ j, j ≠ i → m.slot j = s.slot j

theorem judged_refl (i : SlotId) (s : State) : Judged i s s := ⟨Grows.refl s, fun _ _ => rfl⟩

theorem judged_decideSlot (i : SlotId) (y : Slot) (w : Work) (st : Status) (narrow : Bool)
    (s : State) : Judged i s (decideSlot i y w st narrow s) := by
  obtain ⟨z, d, n, shape, grows, slots⟩ := endSlot_shape (slot_setSlot_self s i _) st narrow
  unfold decideSlot
  rw [shape]
  exact ⟨((Grows.setSlot s i _).trans grows).trans (grows_ended _ _ _ _ _), fun j other =>
    ((ended_slot_ne _ _ _ _ _ other).trans (slots j)).trans (slot_setSlot_ne s _ other)⟩

theorem judged_stepFollows (i : SlotId) (y : Slot) (w : Work) (s : State) :
    Judged i s (stepFollows i y w s) :=
  ⟨Grows.setSlot s i _, fun _ other => slot_setSlot_ne s _ other⟩

theorem judged_pauseSlot (i : SlotId) (y : Slot) (w : Work) (s : State) :
    Judged i s (pauseSlot i y w s) :=
  ⟨Grows.setSlot s i _, fun _ other => slot_setSlot_ne s _ other⟩

theorem judged_sweepStepEnd (i : SlotId) (y : Slot) (w : SweepWork) (s : State) :
    Judged i s (sweepStepEnd i y w s) := by
  unfold sweepStepEnd
  split
  · exact judged_decideSlot ..
  · exact judged_stepFollows ..

theorem judged_pauses (i : SlotId) (y : Slot) (w : ParamWork) (s : State) :
    Judged i s (commitAborts i y w true .pause s) := by
  unfold commitAborts
  dsimp only
  split
  · exact judged_decideSlot ..
  · exact judged_pauseSlot ..

theorem judged_turns (i : SlotId) (y : Slot) (w : ParamWork) (s : State) :
    Judged i s (budgetTurns i y w s) := by
  unfold budgetTurns
  split
  · split
    · exact judged_decideSlot ..
    · exact judged_stepFollows ..
  · exact judged_decideSlot ..

theorem judged_commitDown (i : SlotId) (y : Slot) (w : ParamWork) (s : State) :
    Judged i s (commitDown i y w s) := by
  unfold commitDown
  dsimp only
  split
  · exact judged_decideSlot ..
  · split
    · split
      · exact judged_pauses i y _ s
      · exact judged_decideSlot ..
    · split
      · exact judged_turns i y _ s
      · exact judged_stepFollows ..

theorem judged_discoverDown (i : SlotId) (y : Slot) (w : DiscoverWork) (held : Bool) (s : State) :
    Judged i s (discoverDown i y w held s) := by
  have goes : ∀ v : DiscoverWork, Judged i s (discoverContinues i y v s) := fun v => by
    unfold discoverContinues
    split
    · exact judged_stepFollows ..
    · exact judged_decideSlot ..
  unfold discoverDown
  dsimp only
  split
  · exact judged_decideSlot ..
  · exact goes _

theorem judged_slotDown (i : SlotId) (n : Nat) (s : State) : Judged i s (slotDown i n s) := by
  unfold slotDown
  cases s.slot i with
  | none => exact judged_refl i s
  | some x =>
    dsimp only
    cases x.work with
    | call w => exact judged_decideSlot ..
    | sweep w => exact judged_sweepStepEnd ..
    | param w => exact judged_commitDown ..
    | discover w => exact judged_discoverDown ..
    | unknown => exact judged_refl i s

theorem judged_slotCut (i : SlotId) (n : Nat) (s : State) : Judged i s (slotCut i n none s) := by
  refine ⟨slotCut_grows i n s, fun j other => ?_⟩
  cases slot : s.slot i with
  | none => rw [slotCut_free slot]
  | some x =>
    by_cases known : x.work = .unknown
    · rw [slotCut_unknown slot known]
    · rw [slotCut_eq slot known, tableFollows_none, carryOut_other _ _ _ other]

/-! ## The holder hears of DOWN first -/

/-- A reflex queue once DOWN has ended a grant of its head, with a cut that waits or without one
(R33, R165, R168). -/
def queueDown (e : LineEngine) (cutting : Bool) (q : List QueuedCall) : List QueuedCall :=
  if e.holder = .reflex ∧ (cutting = true ∨ e.headEnd = .emptyQueue) then [] else q

/-- The state once the holder has heard of the entry of its line to DOWN. -/
def holderHeard (l : Line) (s : State) : State :=
  holderDown l (s.engine l) (s.cutting l) (goDown l s)

/-- What the holder's hearing leaves of the state that DOWN has left. -/
structure HolderLeft (l : Line) (s g k : State) : Prop where
  grows : Grows (g.setQueue l (queueDown (s.engine l) (s.cutting l) (s.queue l))) k
  other : ∀ j, (s.engine l).holder ≠ .slot j → k.slot j = s.slot j

theorem queueAfterDown_eq (l : Line) (s : State) : queueAfterDown l s = s.setQueue l
    (if (s.engine l).headEnd = .emptyQueue then [] else s.queue l) := by
  unfold queueAfterDown
  cases (s.engine l).headEnd with
  | emptyQueue => rfl
  | _ => exact (setQueue_self s l).symm

theorem holderHeard_left (l : Line) (s : State) :
    HolderLeft l s (goDown l s) (holderHeard l s) := by
  have gone := goDown_gone l s
  have queue : (goDown l s).queue l = s.queue l := (congrArg (fun v : State => v.queue l) gone.rest :)
  have engine := gone.engine
  have other := gone.other
  unfold holderHeard
  generalize goDown l s = g at *
  have stays : g.setQueue l (s.queue l) = g := by
    rw [← queue]
    exact setQueue_self g l
  unfold holderDown
  cases holder : (s.engine l).holder with
  | slot i =>
    have same : queueDown (s.engine l) (s.cutting l) (s.queue l) = s.queue l :=
      if_neg fun h => by rw [holder] at h; cases h.1
    have judged : Judged i g (if s.cutting l = true then slotCut i (s.engine l).triesBegun none g
        else slotDown i (s.engine l).triesBegun g) := by
      split
      · exact judged_slotCut i _ g
      · exact judged_slotDown i _ g
    refine ⟨?_, fun j ne => ?_⟩
    · rw [same, stays]
      exact judged.grows
    · rw [← other j ne]
      refine judged.other j fun e => ne ?_
      rw [holder, e]
  | reflex =>
    refine ⟨?_, fun j _ => ?_⟩
    · have form : (if s.cutting l = true then g.setQueue l [] else queueAfterDown l g) =
          g.setQueue l (queueDown (s.engine l) (s.cutting l) (s.queue l)) := by
        unfold queueDown
        rw [holder, queueAfterDown_eq, queue, engine]
        cases s.cutting l with
        | true => rfl
        | false =>
          simp only [Bool.false_eq_true, if_false, true_and, false_or]
          rfl
      dsimp only
      rw [form]
      exact Grows.refl _
    · have slots := other j (by rw [holder]; nofun)
      rw [← slots]
      dsimp only
      split
      · rfl
      · rw [queueAfterDown_eq]
        rfl
  | _ =>
    have same : queueDown (s.engine l) (s.cutting l) (s.queue l) = s.queue l :=
      if_neg fun h => by rw [holder] at h; cases h.1
    refine ⟨?_, fun j _ => other j (by rw [holder]; nofun)⟩
    rw [same, stays]
    exact Grows.refl _

end Sys2Proof.DownHolders

/-! The kinds of slot that may hold a line as it goes to DOWN, and the rounds that follow. -/

namespace Sys2Proof.DownKinds

open Sys2Proof Sys2Proof.Machine Sys2Proof.Safety Sys2Proof.Laws Sys2Proof.NodeTable
  Sys2Proof.Registers Sys2Proof.RingFaults Sys2Proof.FieldLines Sys2Proof.SlotEnds Sys2Proof.Reports
  Sys2Proof.Steps Sys2Proof.CallEnds Sys2Proof.Rounds Sys2Proof.Discoveries Sys2Proof.Windows
  Sys2Proof.CommitSteps Sys2Proof.SlotDeadlines Sys2Proof.Fills Sys2Proof.Firings
  Sys2Proof.SlotRounds Sys2Proof.Aborts Sys2Proof.GrantEnds Sys2Proof.Blindness Sys2Proof.Cuts
  Sys2Proof.CutRequests Sys2Proof.HeldCuts Sys2Proof.CutKinds Sys2Proof.Downs Sys2Proof.DownHolders

/-! ## Results decided since an earlier state -/

/-- Between two states results have been decided over the same rings. -/
structure Since (s n : State) : Prop where
  workRing : n.workRing = s.workRing
  out : ∀ q, (n.resultRing q).out = (s.resultRing q).out
  adds : Adds s n

theorem endsAmong_since {i : SlotId} {x : Slot} {st : Status} {d : List Byte} {s n m : State}
    (since : Since s n) (h : EndsAmong i x st d n m) : EndsAmong i x st d s m := by
  obtain ⟨workRing, out, adds⟩ := since
  obtain ⟨taken, lost⟩ := h
  unfold RingTakes at taken lost
  rw [workRing, out] at taken lost
  refine ⟨fun takes => ?_, fun closed => ?_⟩
  · obtain ⟨held, rest, after, own⟩ := taken takes
    obtain ⟨more, before⟩ := adds.pending (s.workRing x.ring).bound
    exact ⟨held, more ++ rest, by rw [after, before, List.append_assoc],
      List.mem_append_right _ own⟩
  · obtain ⟨free, count⟩ := lost closed
    have := adds.lost (s.workRing x.ring).bound
    exact ⟨free, by omega⟩

theorem hearsDown_since {l : Line} {i : SlotId} {x : Slot} {s n m : State} (since : Since s n)
    (h : HearsDown l i x n m) : HearsDown l i x s m := by
  refine ⟨h.left, fun w line started open_ work =>
    endsAmong_since since (h.call w line started open_ work),
    fun w w' line started work state hw => ?_⟩
  have heard := h.discover w w' line started work state hw
  split at heard
  · next goes =>
    rw [if_pos goes]
    exact heard
  · next over_ =>
    rw [if_neg over_]
    exact endsAmong_since since heard

theorem hearsDown_later {l : Line} {i : SlotId} {x : Slot} {s n m : State} (h : HearsDown l i x s n)
    (adds : Adds n m) (slot : m.slot i = n.slot i) : HearsDown l i x s m := by
  refine ⟨fun left => slot.trans (h.left left), fun w line started open_ work =>
    endsAmong_later (h.call w line started open_ work) adds slot,
    fun w w' line started work state hw => ?_⟩
  have heard := h.discover w w' line started work state hw
  split at heard
  · next goes =>
    rw [if_pos goes]
    exact slot.trans heard
  · next over_ =>
    rw [if_neg over_]
    exact endsAmong_later heard adds slot

/-! ## The state once all slots have heard of DOWN -/

/-- The state once the slots of a line have heard of its entry to DOWN. -/
def allHeard (l : Line) (s : State) : State := visitAll (downs l (s.engine l)) (holderHeard l s)

theorem since_holderHeard (l : Line) (s : State) : Since s (holderHeard l s) := by
  have grows := (holderHeard_left l s).grows
  have gone := (goDown_gone l s).rest
  refine ⟨grows.workRing.trans ?_, fun q => (grows.out q).trans ?_, Adds.trans ?_ grows.adds⟩
  · exact funext fun r => (congrArg (fun v : State => v.workRing r) gone :)
  · exact (congrArg (fun v : State => (v.resultRing q).out) gone :)
  · exact adds_of_results (congrArg State.results gone :)

theorem allHeard_hears {l : Line} {s : State} {i : SlotId} {x : Slot} (slot : s.slot i = some x)
    (other : (s.engine l).holder ≠ .slot i) : HearsDown l i x s (allHeard l s) :=
  hearsDown_since (since_holderHeard l s) (hearsDown_met
    (visitAll_met _ _ (((holderHeard_left l s).other i other).trans slot)) other)

theorem allHeard_grows (l : Line) (s : State) : Grows (holderHeard l s) (allHeard l s) :=
  visitAll_grows _ _

theorem allHeard_own {l : Line} {s : State} {i : SlotId} (holder : (s.engine l).holder = .slot i) :
    (allHeard l s).slot i = (holderHeard l s).slot i := by
  cases slot : (holderHeard l s).slot i with
  | none => exact visitAll_free _ _ slot
  | some x =>
    have met := visitAll_met (downs l (s.engine l)) (holderHeard l s) slot
    unfold downs at met
    rw [if_pos holder] at met
    exact met

theorem allHeard_nodes (l : Line) (s : State) : (allHeard l s).nodes = (holderHeard l s).nodes :=
  visitAll_nodes downs_plain

/-- The state that the entry to DOWN leaves before the grant's end. -/
theorem enterDown_eq (l : Line) (s : State) : enterDown l s = judgeRings
    (if (s.engine l).holder = .none then allHeard l s else grantEnded l (allHeard l s)) := by
  have cutting : (goDown l s).cutting l = s.cutting l := by
    have admin : (goDown l s).admin = s.admin := (congrArg State.admin (goDown_gone l s).rest :)
    unfold State.cutting
    rw [admin]
  unfold enterDown allHeard holderHeard
  dsimp only
  rw [hearDown_eq, cutting]

/-- What the entry to DOWN leaves before the grant's end. -/
structure HeardRest (l : Line) (s f : State) : Prop where
  engine : f.engine l = (s.engine l).down
  queue : f.queue l = queueDown (s.engine l) (s.cutting l) (s.queue l)
  buffer : f.buffer = (createNotice (some l) (.lineDown (s.engine l).state) s).buffer
  lost : f.lost = (createNotice (some l) (.lineDown (s.engine l).state) s).lost
  since : Since s f
  admin : f.admin = s.admin

theorem allHeard_rest (l : Line) (s : State) : HeardRest l s (allHeard l s) := by
  have grows := (holderHeard_left l s).grows.trans (allHeard_grows l s)
  obtain ⟨rest, engine, buffer, lost, -, -, -⟩ := goDown_gone l s
  generalize goDown l s = g at *
  refine ⟨(grows.engine l).trans engine, ?_, grows.buffer.trans buffer, grows.noticesLost.trans lost,
    ⟨grows.workRing.trans ?_, fun q => (grows.out q).trans ?_, Adds.trans ?_ grows.adds⟩,
    grows.admin.trans (congrArg State.admin rest :)⟩
  · rw [grows.queue]
    exact queue_setQueue_self g l _
  · exact funext fun r => (congrArg (fun v : State => v.workRing r) rest :)
  · exact (congrArg (fun v : State => (v.resultRing q).out) rest :)
  · exact adds_of_results (congrArg State.results rest :)

/-! ## The holder's kinds -/

theorem met_over {i : SlotId} {x : Slot} {s n m : State} {o : Verdict} (h : Met i x n m o)
    (workRing : n.workRing = s.workRing) (results : n.results = s.results) (nodes : n.nodes = s.nodes)
    (ms : n.ms = s.ms) : Met i x s m o := by
  cases o with
  | stays => exact h
  | becomes y => exact h
  | ends y st =>
    have detail : ∀ z, slotDetail n st z = slotDetail s st z := fun z => by
      unfold slotDetail sweepDetail State.table
      rw [nodes, ms]
    have ends : EndsAmong i (decided st y) st (slotDetail n st (decided st y)) n m := h
    rw [detail] at ends
    have ring : n.resultRing = s.resultRing := funext fun q => congrArg (fun v => v[q]) results
    exact endsAmong_since ⟨workRing, fun q => by rw [ring], adds_of_results results⟩ ends

theorem downNoted_plain {x : Slot} (plain : ∀ w, x.work ≠ .param w) (e : LineEngine) :
    downNoted e x = x := by
  unfold downNoted
  rw [noted_plain plain, ite_self]

/-- A verdict on the holder's slot has been carried out. -/
theorem holder_met {l : Line} {s : State} {i : SlotId} {x : Slot} {o : Verdict}
    (holder : (s.engine l).holder = .slot i) (slot : s.slot i = some x)
    (form : ∀ g, g.slot i = some (downNoted (s.engine l) x) →
      holderDown l (s.engine l) (s.cutting l) g = carryOut i g o) :
    Met i (downNoted (s.engine l) x) s (allHeard l s) o := by
  have gone := goDown_gone l s
  have own := gone.held i x holder slot
  have same := form _ own
  have met : Met i (downNoted (s.engine l) x) (goDown l s) (holderHeard l s) o := by
    unfold holderHeard
    rw [same]
    exact carryOut_met own o
  refine Met.later (met_over met ?_ ?_ ?_ ?_) (allHeard_grows l s).adds (allHeard_own holder)
  · exact funext fun r => (congrArg (fun v : State => v.workRing r) gone.rest :)
  · exact (congrArg State.results gone.rest :)
  · exact (congrArg State.nodes gone.rest :)
  · exact (congrArg State.ms gone.rest :)

theorem triesBegun_eq (e : LineEngine) : e.triesBegun = (e.step.map fun st => st.tries).getD 0 := by
  unfold LineEngine.triesBegun
  cases e.step <;> rfl

theorem slotDetail_sweep {s : State} {y : Slot} {w : SweepWork} (work : y.work = .sweep w)
    (started : y.started = true) : slotDetail s .aborted y = sweepDetail (s.table y.line) w := by
  rw [slotDetail_narrow (.inl rfl)]
  unfold endedDetail
  rw [work, started]
  exact if_neg fun h => by cases h.2

theorem sweepStepEnd_carried (i : SlotId) (y : Slot) (w : SweepWork) (s : State) :
    sweepStepEnd i y w s = carryOut i s (if y.abortPending = true then
        .ends { y with work := .sweep w.pinged } .aborted
      else .becomes { y with state := .ready, work := .sweep w.pinged }) := by
  unfold sweepStepEnd
  split <;> rfl

theorem discoverDown_carried (i : SlotId) (y : Slot) (w : DiscoverWork) (s : State) :
    discoverDown i y w true s = carryOut i s (if y.abortPending = true then
        .ends { y with work := .discover (w.roundEnd false) } .aborted
      else roundDown y (w.roundEnd false)) := by
  unfold discoverDown
  simp only [true_or, if_true, true_and]
  split
  · rfl
  · exact discoverContinues_carried i y _ s

section

variable {g : State} {i : SlotId} {x x' : Slot} {n : Nat} (own : g.slot i = some x)
  (hx : x' = { x with tries := n })

include own hx

theorem slotDown_call {w : CallWork} (work : x.work = .call w) :
    slotDown i n g = callDown i x' w g := by
  subst hx
  unfold slotDown
  rw [own]
  dsimp only
  rw [work]

theorem slotDown_sweep {w : SweepWork} (work : x.work = .sweep w) :
    slotDown i n g = sweepStepEnd i x' w g := by
  subst hx
  unfold slotDown
  rw [own]
  dsimp only
  rw [work]

theorem slotDown_commit {w : ParamWork} (work : x.work = .param w) :
    slotDown i n g = commitDown i x' w g := by
  subst hx
  unfold slotDown
  rw [own]
  dsimp only
  rw [work]

theorem slotDown_discover {w : DiscoverWork} (work : x.work = .discover w) :
    slotDown i n g = discoverDown i x' w true g := by
  subst hx
  unfold slotDown
  rw [own]
  dsimp only
  rw [work]

end

section

variable {l : Line} {s : State} {i : SlotId} {x : Slot} (holder : (s.engine l).holder = .slot i)
  (slot : s.slot i = some x) (uncut : s.cutting l = false)

include holder slot uncut

/-- A verdict on a slot that holds the line and is no commit. -/
theorem holder_down {o : Verdict} (plain : ∀ w, x.work ≠ .param w)
    (form : ∀ g, g.slot i = some x → slotDown i (s.engine l).triesBegun g = carryOut i g o) :
    Met i x s (allHeard l s) o := by
  have met := holder_met (o := o) holder slot fun g own => by
    unfold holderDown
    rw [holder, uncut]
    rw [downNoted_plain plain] at own
    exact form g own
  rwa [downNoted_plain plain] at met

theorem holder_call {x' : Slot} {w : CallWork} (work : x.work = .call w) (started : x.started = true)
    (hx : x' = { x with tries := ((s.engine l).step.map fun st => st.tries).getD 0 }) :
    EndsAmong i { x' with work := .call { w with allGarbled := false } }
      (if x.abortPending = true then .aborted else .lineDown)
      ([byteOf x'.tries, byteOf w.busyRounds, lastReplyByte w.lastReply,
        flagBit w.noticePending 1, 0] ++ padTo 8 []) s (allHeard l s) := by
  rw [← triesBegun_eq] at hx
  have met := holder_down (o := .ends { x' with work := .call { w with allGarbled := false } }
    (if x.abortPending = true then .aborted else .lineDown)) holder slot uncut
    (fun v => by rw [work]; exact call_no_commit w v) fun g own => by
      rw [slotDown_call own hx work, hx]
      rfl
  have detail := slotDetail_callDown (s := s)
    (st := if x.abortPending = true then .aborted else .lineDown)
    (y := { x' with work := .call { w with allGarbled := false } }) (by split <;> simp) rfl
    (by rw [hx]; exact started) rfl
  have ends : EndsAmong i { x' with work := .call { w with allGarbled := false } }
      (if x.abortPending = true then .aborted else .lineDown)
      (slotDetail s (if x.abortPending = true then .aborted else .lineDown)
        { x' with work := .call { w with allGarbled := false } }) s (allHeard l s) := met
  rw [detail] at ends
  exact ends

theorem holder_sweep {x' : Slot} {w w' : SweepWork} {a : Addr} (work : x.work = .sweep w)
    (line : x.line = l) (started : x.started = true) (step : w.step = some a)
    (hw : w' = { w with
      step := none
      marks := w.marks.map fun p => if p.1 = a then (a, .pinged) else p })
    (hx : x' = { x with tries := ((s.engine l).step.map fun st => st.tries).getD 0 }) :
    if x.abortPending = true then
      EndsAmong i { x' with work := .sweep w' } .aborted (sweepDetail (s.table l) w') s (allHeard l s)
    else (allHeard l s).slot i = some { x' with state := .ready, work := .sweep w' } := by
  rw [← triesBegun_eq] at hx
  rw [← pinged_eq step] at hw
  have pending : x'.abortPending = x.abortPending := by rw [hx]
  have own : x'.line = l ∧ x'.started = true := by
    rw [hx]
    exact ⟨line, started⟩
  have met := holder_down (o := if x.abortPending = true then
      .ends { x' with work := .sweep w' } .aborted
    else .becomes { x' with state := .ready, work := .sweep w' }) holder slot uncut
    (fun v => by rw [work]; exact sweep_no_commit w v) fun g own => by
      rw [slotDown_sweep own hx work, sweepStepEnd_carried, pending, hw]
  split
  · next aborts =>
    rw [if_pos aborts] at met
    have detail : slotDetail s .aborted { x' with work := .sweep w' } = sweepDetail (s.table l) w' :=
      (slotDetail_sweep (y := { x' with work := .sweep w' }) rfl own.2).trans
        (congrArg (fun k => sweepDetail (s.table k) w') own.1)
    have ends : EndsAmong i { x' with work := .sweep w' } .aborted
      (slotDetail s .aborted { x' with work := .sweep w' }) s (allHeard l s) := met
    rw [detail] at ends
    exact ends
  · next calm =>
    rw [if_neg calm] at met
    exact met

theorem holder_discover {x' : Slot} {w w' : DiscoverWork} (work : x.work = .discover w)
    (hw : w' = w.roundEnd false)
    (hx : x' = { x with tries := ((s.engine l).step.map fun st => st.tries).getD 0 }) :
    if x.abortPending = true then
      EndsAmong i { x' with work := .discover { w' with endReason := .aborted } } .aborted
        (discoverDetail { w' with endReason := .aborted }) s (allHeard l s)
    else if w'.endReason = .none then
      (allHeard l s).slot i = some { x' with state := .ready, work := .discover w' }
    else EndsAmong i { x' with work := .discover w' } .ok (discoverDetail w') s (allHeard l s) := by
  rw [← triesBegun_eq] at hx
  have pending : x'.abortPending = x.abortPending := by rw [hx]
  have met := holder_down (o := if x.abortPending = true then
      .ends { x' with work := .discover w' } .aborted else roundDown x' w') holder slot uncut
    (fun v => by rw [work]; exact discover_no_commit w v) fun g own => by
      rw [slotDown_discover own hx work, discoverDown_carried, pending, hw]
  split
  · next aborts =>
    rw [if_pos aborts] at met
    have ends : EndsAmong i { x' with work := .discover { w' with endReason := .aborted } } .aborted
      (slotDetail s .aborted { x' with work := .discover { w' with endReason := .aborted } }) s
        (allHeard l s) := met
    rwa [slotDetail_discovery (.inr rfl) rfl] at ends
  · next calm =>
    rw [if_neg calm] at met
    exact met_round met

end

end Sys2Proof.DownKinds

/-! A commit that holds the line as it goes to DOWN. -/

namespace Sys2Proof.DownCommits

open Sys2Proof Sys2Proof.Machine Sys2Proof.Safety Sys2Proof.Laws Sys2Proof.NodeTable
  Sys2Proof.Registers Sys2Proof.RingFaults Sys2Proof.FieldLines Sys2Proof.SlotEnds Sys2Proof.Reports
  Sys2Proof.Steps Sys2Proof.CallEnds Sys2Proof.Rounds Sys2Proof.Discoveries Sys2Proof.Windows
  Sys2Proof.CommitSteps Sys2Proof.SlotDeadlines Sys2Proof.Fills Sys2Proof.Firings
  Sys2Proof.SlotRounds Sys2Proof.Aborts Sys2Proof.GrantEnds Sys2Proof.Blindness Sys2Proof.Cuts
  Sys2Proof.CutRequests Sys2Proof.HeldCuts Sys2Proof.CutKinds Sys2Proof.Downs Sys2Proof.DownHolders
  Sys2Proof.DownKinds

/-! ## The rule of the phase -/

section

variable {l : Line} {s n m : State} {st : Step} {i : SlotId} {x y : Slot} {o : TryOutcome}
  {w : ParamWork} {p : Phase} (heard : StepHeard l s st i x o n) (line : y.line = l)
  (started : y.started = true) (phase : w.phase = some p) (verified : w.verified = false)

include heard line started phase verified

/-- A step of a commit that is ended by DOWN, its poll counted (R87, R119, R123). -/
theorem commitDown_counted (hm : m =
    if p = .final then
      decideSlot i y (.param w) (if y.abortPending then .aborted else .commitTimeout) true n
    else if y.abortPending then
      if w.programming then commitAborts i y w true .pause n
      else decideSlot i y (.param w) .aborted false n
    else if w.budgetPassed then budgetTurns i y w n
    else stepFollows i y (.param w) n) :
    if p = .final then
      CommitEnds l i y { w with outcome := outcomeOf false w }
        (if y.abortPending = true then .aborted else .commitTimeout) (n.entry l w.addr) s m
    else if (p = .poll ∨ (p = .prelude ∧ w.preludeBusy = true)) ∧
        (y.abortPending = true ∨ w.budgetPassed = true) then
      CommitPauses l i y w false (n.entry l w.addr) s m
    else CommitGoesOn l i y w true (n.entry l w.addr) s m := by
  have self : m = m.setEngine l (m.engine l) := (setEngine_self m l).symm
  by_cases final : p = .final
  · rw [if_pos final] at hm ⊢
    refine commitEnds_decided heard line started ?_ ?_ (e := m.engine l) (narrow := true) ?_
    · rw [commitOutcome_kept (by split <;> simp)]
      rfl
    · split <;> simp
    · rw [← hm]
      exact self
  · rw [if_neg final] at hm ⊢
    have waits : w.programming = true ↔ p = .poll ∨ (p = .prelude ∧ w.preludeBusy = true) := by
      rw [programming_iff, phase]
      simp [final]
    by_cases pending : y.abortPending = true
    · rw [if_pos pending] at hm
      by_cases programming : w.programming = true
      · rw [if_pos programming] at hm
        rw [if_pos ⟨waits.1 programming, .inl pending⟩]
        refine pauses_decided heard line started verified false (eng := m.engine l) ?_
        rw [if_pos pending, show commitAborts i y w false .pause n = m from hm.symm]
        exact self
      · rw [if_neg programming] at hm
        rw [if_neg fun h => programming (waits.2 h.1)]
        unfold CommitGoesOn
        rw [if_pos pending]
        refine commitAborted_decided heard line started (narrow := false) (eng := m.engine l) ?_
        rw [← hm]
        exact self
    · rw [if_neg pending] at hm
      have calm : y.abortPending = false := Bool.eq_false_iff.2 pending
      by_cases passed : w.budgetPassed = true
      · rw [if_pos passed] at hm
        unfold budgetTurns at hm
        by_cases programming : w.programming = true
        · rw [if_pos programming, if_neg pending] at hm
          rw [if_pos ⟨waits.1 programming, .inr passed⟩]
          refine pauses_decided heard line started verified false (eng := m.engine l) ?_
          rw [if_neg pending]
          unfold commitContinues pausePastBudget
          dsimp only
          rw [if_pos passed, if_neg Bool.false_ne_true, ← hm]
          exact self
        · rw [if_neg programming] at hm
          rw [if_neg fun h => programming (waits.2 h.1)]
          refine goesOn_decided heard line started calm true (eng := m.engine l) ?_
          rw [if_pos passed, ← hm]
          exact self
      · rw [if_neg passed] at hm
        rw [if_neg fun h => h.2.elim pending passed]
        refine goesOn_decided heard line started calm true (eng := m.engine l) ?_
        rw [if_neg passed, ← hm]
        exact self

end

/-! ## The holder -/

theorem downNoted_work {x : Slot} {w : ParamWork} (work : x.work = .param w) (e : LineEngine) :
    downNoted e x = { x with work := .param { w with
      unverified := w.unverified ||
        (w.phase == some .commit && (e.state == .awaiting || e.state == .receiving)) } } := by
  have same : x = { x with work := .param w } := by rw [← work]
  have marked : noted .garbled x = { x with work := .param { w with
      unverified := w.unverified || w.phase == some .commit } } := by
    unfold noted
    rw [work]
    dsimp only
    by_cases commit : w.phase = some .commit
    · rw [if_pos commit, commit, beq_self_eq_true, Bool.or_true]
    · rw [if_neg commit, beq_eq_false_iff_ne.2 commit, Bool.or_false]
      exact same
  unfold downNoted
  by_cases window : e.state = .awaiting ∨ e.state = .receiving
  · have seen : (e.state == .awaiting || e.state == .receiving) = true := by
      rcases window with h | h <;> rw [h] <;> rfl
    rw [if_pos window, seen, Bool.and_true, marked]
  · have seen : (e.state == .awaiting || e.state == .receiving) = false := by
      rw [Bool.or_eq_false_iff]
      exact ⟨beq_eq_false_iff_ne.2 fun h => window (.inl h),
        beq_eq_false_iff_ne.2 fun h => window (.inr h)⟩
    rw [if_neg window, seen, Bool.and_false, Bool.or_false]
    exact same

theorem downNoted_commit {x : Slot} {w : ParamWork} {p : Phase} (work : x.work = .param w)
    (phase : w.phase = some p) (e : LineEngine) : downNoted e x = { x with work := .param { w with
      unverified := w.unverified ||
        (p == .commit && (e.state == .awaiting || e.state == .receiving)) } } := by
  rw [downNoted_work work, phase, Option.some_beq_some]

theorem noted_collided (x : Slot) : noted .collided x = x := by
  unfold noted
  cases x.work <;> rfl

/-- A state hears of a collided try as it stands. -/
theorem heard_collided {l : Line} {s : State} {i : SlotId} {x : Slot} (slot : s.slot i = some x)
    (st : Step) : StepHeard l s st i x .collided s where
  slot := slot.trans (by rw [noted_collided])
  other _ _ := rfl
  nodes := by rw [(reportStep_sent_collided l st.call st.allGarbled s).2]
  buffer := by rw [(reportStep_sent_collided l st.call st.allGarbled s).2]
  lost := by rw [(reportStep_sent_collided l st.call st.allGarbled s).2]
  results := rfl
  work := rfl
  ms := rfl
  config := rfl

section

variable {l : Line} {i : SlotId} {x : Slot} {w : ParamWork} {e : NodeEntry} {s n m : State}
  (workRing : n.workRing = s.workRing) (results : n.resultRing = s.resultRing) (ms : n.ms = s.ms)

include workRing results ms

theorem commitEnds_over {st : Status} (h : CommitEnds l i x w st e n m) :
    CommitEnds l i x w st e s m := by
  obtain ⟨⟨taken, lost⟩, entry⟩ := h
  unfold RingTakes at taken lost
  rw [workRing, results, ms] at taken
  rw [workRing, results] at lost
  exact ⟨⟨taken, lost⟩, entry⟩

theorem commitPauses_over {polled : Bool} (config : (n.engine l).config = (s.engine l).config)
    (h : CommitPauses l i x w polled e n m) : CommitPauses l i x w polled e s m := by
  unfold CommitPauses at h ⊢
  rw [ms, config] at h
  split at h
  · next running => rwa [if_pos running]
  · next passed =>
    rw [if_neg passed]
    split at h
    · next aborts =>
      rw [if_pos aborts]
      exact commitEnds_over workRing results ms h
    · next calm =>
      rw [if_neg calm]
      split at h
      · next asked =>
        rw [if_pos asked]
        exact commitEnds_over workRing results ms h
      · next open_ => rwa [if_neg open_]

theorem commitGoesOn_over {kept : Bool} (h : CommitGoesOn l i x w kept e n m) :
    CommitGoesOn l i x w kept e s m := by
  unfold CommitGoesOn at h ⊢
  split at h
  · next aborts =>
    rw [if_pos aborts]
    exact commitEnds_over workRing results ms h
  · next calm =>
    rw [if_neg calm]
    split at h
    · next passed =>
      rw [if_pos passed]
      exact commitEnds_over workRing results ms h
    · next running => rwa [if_neg running]

end

/-- A commit that holds the line as it goes to DOWN. -/
theorem holder_commit {l : Line} {s : State} {i : SlotId} {x x' : Slot} {w w1 : ParamWork} {p : Phase}
    (holder : (s.engine l).holder = .slot i) (slot : s.slot i = some x) (uncut : s.cutting l = false)
    (line : x.line = l) (started : x.started = true) (work : x.work = .param w)
    (phase : w.phase = some p) (verified : w.verified = false)
    (hw : w1 = { w with
      polls := if p = .poll ∨ p = .final then min 255 (w.polls + 1) else w.polls
      unverified := w.unverified || (p == .commit &&
        ((s.engine l).state == .awaiting || (s.engine l).state == .receiving)) })
    (hx : x' = { x with tries := ((s.engine l).step.map fun st => st.tries).getD 0 }) :
    if p = .final then
      CommitEnds l i x' { w1 with outcome := outcomeOf false w1 }
        (if x.abortPending = true then .aborted else .commitTimeout)
        (s.entry l w.addr) s (holderHeard l s)
    else if (p = .poll ∨ (p = .prelude ∧ w.preludeBusy = true)) ∧
        (x.abortPending = true ∨ w.budgetPassed = true) then
      CommitPauses l i x' w1 false (s.entry l w.addr) s (holderHeard l s)
    else CommitGoesOn l i x' w1 true (s.entry l w.addr) s (holderHeard l s) := by
  rw [← triesBegun_eq] at hx
  obtain ⟨rest, engine, -, -, held, -, -⟩ := goDown_gone l s
  have own := held i x holder slot
  rw [downNoted_commit work phase] at own
  have form : holderHeard l s = slotDown i (s.engine l).triesBegun (goDown l s) := by
    unfold holderHeard holderDown
    rw [holder, uncut]
    rfl
  rw [form]
  generalize goDown l s = g at *
  have workRing : g.workRing = s.workRing :=
    funext fun r => (congrArg (fun v : State => v.workRing r) rest :)
  have results : g.resultRing = s.resultRing :=
    funext fun q => (congrArg (fun v : State => v.resultRing q) rest :)
  have ms : g.ms = s.ms := (congrArg State.ms rest :)
  have entry : g.entry l w.addr = s.entry l w.addr :=
    (congrArg (fun v : State => v.entry l w.addr) rest :)
  have config : (g.engine l).config = (s.engine l).config := by
    rw [engine]
    rfl
  generalize hv : ({ w with unverified := w.unverified || (p == .commit &&
    ((s.engine l).state == .awaiting || (s.engine l).state == .receiving)) } : ParamWork) = v at own
  have vphase : v.phase = some p := by rw [← hv]; exact phase
  have counted : v.countPoll = w1 := by
    rw [countPoll_eq vphase, hw, ← hv]
  have down := slotDown_commit own (n := (s.engine l).triesBegun) rfl rfl
  generalize hy : ({ ({ x with work := .param v } : Slot) with
    tries := (s.engine l).triesBegun } : Slot) = y at down
  have yline : y.line = l := by rw [← hy]; exact line
  have ystarted : y.started = true := by rw [← hy]; exact started
  have yabort : y.abortPending = x.abortPending := by rw [← hy]
  have addr : w1.addr = w.addr := by rw [hw]
  have judged := commitDown_counted (heard_collided own ⟨takenCall 0 0, 0, 0, false⟩) yline ystarted
    (w := w1) (p := p) (by rw [hw]; exact phase) (by rw [hw]; exact verified) (m := slotDown i
      (s.engine l).triesBegun g) (by
      rw [down]
      unfold commitDown
      dsimp only
      rw [counted, vphase]
      simp only [beq_iff_eq, Option.some.injEq])
  have form : y = { x' with work := .param v } := by
    rw [← hy, hx]
  have entered : g.entry l w1.addr = s.entry l w.addr := by
    rw [addr]
    exact entry
  rw [yabort, entered, form] at judged
  rw [← show w1.preludeBusy = w.preludeBusy by rw [hw],
    ← show w1.budgetPassed = w.budgetPassed by rw [hw]]
  split at judged
  · next final =>
    rw [if_pos final]
    exact commitEnds_over workRing results ms judged
  · next other =>
    rw [if_neg other]
    split at judged
    · next waits =>
      rw [if_pos waits]
      exact commitPauses_over workRing results ms config judged
    · next goes =>
      rw [if_neg goes]
      exact commitGoesOn_over workRing results ms judged

end Sys2Proof.DownCommits

/-! The entry of a line to DOWN, no request waiting for the end of its grant. -/

namespace Sys2Proof.DownRuns

open Sys2Proof Sys2Proof.Machine Sys2Proof.Safety Sys2Proof.Laws Sys2Proof.NodeTable
  Sys2Proof.Registers Sys2Proof.RingFaults Sys2Proof.FieldLines Sys2Proof.SlotEnds Sys2Proof.Reports
  Sys2Proof.Steps Sys2Proof.CallEnds Sys2Proof.Rounds Sys2Proof.Discoveries Sys2Proof.Windows
  Sys2Proof.CommitSteps Sys2Proof.SlotDeadlines Sys2Proof.Fills Sys2Proof.Firings
  Sys2Proof.SlotRounds Sys2Proof.Aborts Sys2Proof.GrantEnds Sys2Proof.Blindness Sys2Proof.Cuts
  Sys2Proof.CutRequests Sys2Proof.HeldCuts Sys2Proof.CutKinds Sys2Proof.Downs Sys2Proof.DownHolders
  Sys2Proof.DownKinds Sys2Proof.DownCommits

/-! ## After an event that leaves a line unusable -/

/-- What follows an event that leaves a line unusable: no grant of it and no ACTIVE work ring. -/
structure Idles (l : Line) (m t : State) : Prop where
  engine : t.engine l = m.engine l
  queue : t.queue l = m.queue l
  held : ∀ r : WorkRingId, r ≠ 0 → (t.workRing r).line = l → (t.workRing r).state ≠ .active

theorem after_idles {l : Line} {m t : State} (after : After l m t) (live : m.device ≠ .halted)
    (unusable : (m.engine l).state.usable = false) : Idles l m t := by
  obtain ⟨n, settled, served⟩ := after
  have free : lineFree m l = false := by
    unfold lineFree
    cases state : (m.engine l).state with
    | idle => rw [state] at unusable; cases unusable
    | _ => rfl
  have engine := settled.held free
  have alive : n.device ≠ .halted := by
    rw [settled.kept.device]
    exact live
  refine ⟨?_, ?_, fun r other line active => ?_⟩
  · rw [← engine]
    unfold State.engine
    rw [served.lines]
  · unfold State.queue
    rw [served.queues, settled.kept.queues]
  · have ring := served.work alive r other
    have same : (n.workRing r).line = l := by
      rw [← line, ring]
    rw [ring, same, engine, unusable] at active
    dsimp only at active
    cases state : (n.workRing r).state <;> rw [state] at active <;> dsimp only at active
    case draining => split at active <;> cases active
    all_goals simp at active

theorem exec_lowTimer {l : Line} {s : State} (live : s.device ≠ .halted)
    (usable : (s.engine l).state.usable = true) (low : 50 ≤ (s.engine l).lowTimer)
    (sense : (s.engine l).sense = false) :
    exec (.lowTimerExpiry l) s = .next (afterLine l (enterDown l s)) := by
  show Host.Outcome.next (lowTimerExpires l s) = _
  unfold lowTimerExpires
  dsimp only
  rw [if_pos ⟨live_of_ne live, usable, low, by rw [sense]; rfl⟩]

/-! ## The grant's end -/

/-- The engine of a line that has gone to DOWN, a grant of it having ended. -/
def downOver (e : LineEngine) : LineEngine :=
  if e.holder = .none then e.down else grantOver e.down

/-- The state once the line is DOWN and no grant of it is left. -/
def downDone (l : Line) (s : State) : State :=
  judgeRings ((allHeard l s).setEngine l (downOver (s.engine l)))

theorem enterDown_done {l : Line} {s : State} (waits : noWaiting s l = true) :
    enterDown l s = downDone l s := by
  have rest := allHeard_rest l s
  rw [enterDown_eq]
  unfold downDone downOver
  split
  · rw [← rest.engine, setEngine_self]
  · rw [grantEnded_noWaiting (noWaiting_admin rest.admin waits), rest.engine]

theorem downDone_adds (l : Line) (s : State) : Adds (allHeard l s) (downDone l s) := by
  unfold downDone
  generalize allHeard l s = f
  exact adds_of_results rfl

theorem downDone_slot (l : Line) (s : State) (i : SlotId) :
    (downDone l s).slot i = (allHeard l s).slot i := by
  unfold downDone
  generalize allHeard l s = f
  rfl

theorem downDone_notices (l : Line) (s : State) : (downDone l s).buffer = (allHeard l s).buffer ∧
    (downDone l s).lost = (allHeard l s).lost ∧ (downDone l s).nodes = (allHeard l s).nodes ∧
    (downDone l s).queue l = (allHeard l s).queue l := by
  unfold downDone
  generalize allHeard l s = f
  exact ⟨rfl, rfl, rfl, rfl⟩

theorem downDone_engine (l : Line) (s : State) : (downDone l s).engine l = downOver (s.engine l) := by
  unfold downDone
  generalize allHeard l s = f
  exact engine_setEngine_self f l _

theorem downOver_eq (e : LineEngine) : downOver e =
    if e.holder = .none then
      { e with
        state := .down, frame := [], frameStarted := false, quiet := false, lowTimer := 0,
        settle := none, listenTimer := none, series := none }
    else
      grantOver { e with
        state := .down, quiet := false, lowTimer := 0, settle := none, listenTimer := none,
        series := none } := rfl

theorem downOver_unusable (e : LineEngine) : (downOver e).state.usable = false := by
  unfold downOver
  split <;> rfl

theorem endsAmong_finishing {i : SlotId} {x : Slot} {st : Status} {d : List Byte} {s m : State}
    (h : EndsAmong i x st d s m) (y : Slot) (slot : m.slot i = some y) : y.state = .finishing := by
  by_cases takes : RingTakes x s
  · have own := slot.symm.trans (h.taken takes).1
    cases own
    rfl
  · have free := slot.symm.trans (h.lost takes).1
    cases free

/-- A started CALL of the line is FINISHING, or its slot is FREE, once the line is DOWN. -/
theorem call_finishes {l : Line} {s : State} {i : SlotId} {x : Slot} {w : CallWork}
    (uncut : s.cutting l = false) (slot : s.slot i = some x) (line : x.line = l)
    (work : x.work = .call w) (started : x.started = true) (y : Slot)
    (left : (allHeard l s).slot i = some y) : y.state = .finishing := by
  by_cases holder : (s.engine l).holder = .slot i
  · exact endsAmong_finishing (holder_call holder slot uncut work started rfl) y left
  · have heard := allHeard_hears slot holder
    by_cases done : x.state = .finishing
    · have same := left.symm.trans (heard.left (.inr (.inr (.inl done))))
      cases same
      exact done
    · exact endsAmong_finishing (heard.call w line started done work) y left

theorem finishing_unjudged {y : Slot} (h : y.state = .finishing) : y.judged = false := by
  unfold Slot.judged
  rw [h]

/-- A line that goes to DOWN while no request waits for the end of its grant. -/
theorem line_goes_down {l : Line} {s : State} (live : s.device ≠ .halted)
    (usable : (s.engine l).state.usable = true) (low : 50 ≤ (s.engine l).lowTimer)
    (sense : (s.engine l).sense = false) (waits : noWaiting s l = true) :
    ∃ m t, exec (.lowTimerExpiry l) s = .next t ∧ Worked s m ∧ After l m t ∧
      m.engine l =
        (if (s.engine l).holder = .none then
          { s.engine l with
            state := .down, frame := [], frameStarted := false, quiet := false, lowTimer := 0,
            settle := none, listenTimer := none, series := none }
        else
          grantOver { s.engine l with
            state := .down, quiet := false, lowTimer := 0, settle := none, listenTimer := none,
            series := none }) ∧
      t.engine l = m.engine l ∧
      m.buffer = (createNotice (some l) (.lineDown (s.engine l).state) s).buffer ∧
      m.lost = (createNotice (some l) (.lineDown (s.engine l).state) s).lost ∧
      (∀ r : WorkRingId, r ≠ 0 → (t.workRing r).line = l → (t.workRing r).state ≠ .active) ∧
      ((s.engine l).headEnd = .normal → t.queue l = s.queue l) ∧
      (∀ i x y w, s.slot i = some x → x.line = l → x.work = .call w → x.started = true →
        t.slot i = some y → y.state = .finishing) ∧
      (∀ i x, s.slot i = some x → (s.engine l).holder ≠ .slot i → HearsDown l i x s m) ∧
      (∀ (i : SlotId) (x x' : Slot), s.slot i = some x → (s.engine l).holder = .slot i →
        x.line = l → x.started = true → x.state ≠ .finishing →
        x' = { x with tries := ((s.engine l).step.map fun st => st.tries).getD 0 } →
        (∀ w, x.work = .call w →
          EndsAmong i { x' with work := .call { w with allGarbled := false } }
            (if x.abortPending = true then .aborted else .lineDown)
            ([byteOf x'.tries, byteOf w.busyRounds, lastReplyByte w.lastReply,
              flagBit w.noticePending 1, 0] ++ padTo 8 []) s m) ∧
        (∀ w w' a, x.work = .sweep w → w.step = some a →
          w' = { w with
            step := none
            marks := w.marks.map fun p => if p.1 = a then (a, .pinged) else p } →
          if x.abortPending = true then
            EndsAmong i { x' with work := .sweep w' } .aborted (sweepDetail (s.table l) w') s m
          else m.slot i = some { x' with state := .ready, work := .sweep w' }) ∧
        (∀ w w1 p, x.work = .param w → w.phase = some p →
          w.verified = false →
          w1 = { w with
            polls := if p = .poll ∨ p = .final then min 255 (w.polls + 1) else w.polls
            unverified := w.unverified || (p == .commit &&
              ((s.engine l).state == .awaiting || (s.engine l).state == .receiving)) } →
          ∃ n : State, m.slot i = n.slot i ∧ m.entry l w.addr = n.entry l w.addr ∧
            (∃ more, (m.resultRing (s.workRing x.ring).bound).pending =
              (n.resultRing (s.workRing x.ring).bound).pending ++ more) ∧
            if p = .final then
              CommitEnds l i x' { w1 with outcome := outcomeOf false w1 }
                (if x.abortPending = true then .aborted else .commitTimeout)
                (s.entry l w.addr) s n
            else if (p = .poll ∨ (p = .prelude ∧ w.preludeBusy = true)) ∧
                (x.abortPending = true ∨ w.budgetPassed = true) then
              CommitPauses l i x' w1 false (s.entry l w.addr) s n
            else CommitGoesOn l i x' w1 true (s.entry l w.addr) s n) ∧
        (∀ w w', x.work = .discover w → w' = w.roundEnd false →
          if x.abortPending = true then
            EndsAmong i { x' with work := .discover { w' with endReason := .aborted } } .aborted
              (discoverDetail { w' with endReason := .aborted }) s m
          else if w'.endReason = .none then
            m.slot i = some { x' with state := .ready, work := .discover w' }
          else
            EndsAmong i { x' with work := .discover w' } .ok (discoverDetail w') s m)) := by
  have uncut : s.cutting l = false := by
    rw [cutting_iff, noCut_of_noWaiting waits]
    rfl
  have run := exec_lowTimer live usable low sense
  have worked := worked_enterDown (worked_refl s) l
  have after := afterLine_after l (enterDown l s)
  rw [enterDown_done waits] at run worked after
  have rest := allHeard_rest l s
  have adds := downDone_adds l s
  have slots := downDone_slot l s
  obtain ⟨buffer, lost, nodes, queue⟩ := downDone_notices l s
  have idles := after_idles after (by rw [worked.device]; exact live)
    (by rw [downDone_engine]; exact downOver_unusable _)
  have engine := downDone_engine l s
  generalize downDone l s = m at *
  refine ⟨m, _, run, worked, after, engine.trans (downOver_eq _), idles.engine,
    buffer.trans rest.buffer, lost.trans rest.lost, idles.held, fun head => ?_,
    fun i x y w slot line work started hy => ?_,
    fun i x slot other => hearsDown_later (allHeard_hears slot other) adds (slots i),
    fun i x x' slot holder line started open_ hx => ⟨fun w work => ?_, fun w w' a work step hw => ?_,
      fun w w1 p work phase verified hw => ?_, fun w w' work hw => ?_⟩⟩
  · refine idles.queue.trans (queue.trans (rest.queue.trans (if_neg fun h => ?_)))
    rw [uncut, head] at h
    simp at h
  · have finishes := call_finishes uncut slot line work started
    have still := after_still (i := i) (o := m.slot i) after rfl
      fun z own => finishing_unjudged (finishes z ((slots i).symm.trans own))
    exact finishes y ((slots i).symm.trans (still.symm.trans hy))
  · exact endsAmong_later (holder_call holder slot uncut work started hx) adds (slots i)
  · have own := holder_sweep holder slot uncut work line started step hw hx
    split at own
    · next pending =>
      rw [if_pos pending]
      exact endsAmong_later own adds (slots i)
    · next calm =>
      rw [if_neg calm]
      exact (slots i).trans own
  · have own := holder_commit holder slot uncut line started work phase verified hw hx
    have entry : m.entry l w.addr = (holderHeard l s).entry l w.addr := by
      unfold State.entry State.table
      rw [nodes, allHeard_nodes]
    exact ⟨holderHeard l s, (slots i).trans (allHeard_own holder), entry,
      ((allHeard_grows l s).adds.trans adds).pending _, own⟩
  · have own := holder_discover holder slot uncut work hw hx
    split at own
    · next pending =>
      rw [if_pos pending]
      exact endsAmong_later own adds (slots i)
    · next calm =>
      rw [if_neg calm]
      split at own
      · next goes =>
        rw [if_pos goes]
        exact (slots i).trans own
      · next over_ =>
        rw [if_neg over_]
        exact endsAmong_later own adds (slots i)

end Sys2Proof.DownRuns

/-! The entry of a line to DOWN that ends a grant for which a LINE_SET or a cut waits. -/

namespace Sys2Proof.DownRequests

open Sys2Proof Sys2Proof.Machine Sys2Proof.Safety Sys2Proof.Laws Sys2Proof.NodeTable
  Sys2Proof.Registers Sys2Proof.RingFaults Sys2Proof.FieldLines Sys2Proof.SlotEnds Sys2Proof.Reports
  Sys2Proof.Steps Sys2Proof.CallEnds Sys2Proof.Rounds Sys2Proof.Discoveries Sys2Proof.Windows
  Sys2Proof.CommitSteps Sys2Proof.SlotDeadlines Sys2Proof.Fills Sys2Proof.Firings
  Sys2Proof.SlotRounds Sys2Proof.Aborts Sys2Proof.GrantEnds Sys2Proof.Settings Sys2Proof.Blindness
  Sys2Proof.Cuts Sys2Proof.CutRequests Sys2Proof.HeldCuts Sys2Proof.CutKinds Sys2Proof.WindowCuts
  Sys2Proof.Downs Sys2Proof.DownHolders Sys2Proof.DownKinds Sys2Proof.DownCommits Sys2Proof.DownRuns

/-! ## What DOWN does is blind to the request -/

theorem blind_carryOut (i : SlotId) (o : Verdict) : Blind fun s => carryOut i s o := by
  cases o with
  | stays => exact fun _ _ => rfl
  | becomes y => exact fun _ _ => rfl
  | ends y st => exact fun a s => blind_endSlot i st false a (s.setSlot i (some y))

theorem blind_visitAll (v : SlotId → Slot → Verdict) : Blind (visitAll v) := by
  have blind : ∀ i, Blind fun s => visit v s i := fun i a s => by
    dsimp only
    unfold visit
    rw [withAdmin_slot]
    cases s.slot i with
    | none => rfl
    | some x => exact blind_carryOut i (v i x) a s
  exact blind_foldl blind allSlots

theorem blind_createNotice (k : Option Line) (b : NoticeBody) : Blind (createNotice k b) := by
  intro a s
  have buffer : (withAdmin a s).buffer = s.buffer := rfl
  unfold createNotice
  rw [buffer]
  split <;> rfl

theorem blind_budgetTurns (i : SlotId) (x : Slot) (w : ParamWork) : Blind (budgetTurns i x w) := by
  intro a s
  unfold budgetTurns
  split
  · split
    · exact blind_decideSlot ..
    · exact blind_stepFollows ..
  · exact blind_decideSlot ..

theorem blind_commitDown (i : SlotId) (x : Slot) (w : ParamWork) : Blind (commitDown i x w) := by
  intro a s
  unfold commitDown
  dsimp only
  split
  · exact blind_decideSlot ..
  · split
    · split
      · exact blind_commitAborts ..
      · exact blind_decideSlot ..
    · split
      · exact blind_budgetTurns ..
      · exact blind_stepFollows ..

theorem blind_slotDown (i : SlotId) (n : Nat) : Blind (slotDown i n) := by
  intro a s
  cases slot : s.slot i with
  | none =>
    have free : ∀ u : State, u.slot i = none → slotDown i n u = u := fun u h => by
      unfold slotDown
      rw [h]
    rw [free (withAdmin a s) slot, free s slot]
  | some x =>
    have slot' : (withAdmin a s).slot i = some x := slot
    cases work : x.work with
    | call w =>
      rw [slotDown_call slot rfl work, slotDown_call slot' rfl work]
      exact blind_decideSlot ..
    | sweep w =>
      rw [slotDown_sweep slot rfl work, slotDown_sweep slot' rfl work]
      exact blind_sweepStepEnd ..
    | param w =>
      rw [slotDown_commit slot rfl work, slotDown_commit slot' rfl work]
      exact blind_commitDown ..
    | discover w =>
      rw [slotDown_discover slot rfl work, slotDown_discover slot' rfl work, discoverDown_carried,
        discoverDown_carried]
      exact blind_carryOut ..
    | unknown =>
      unfold slotDown
      rw [slot, slot']
      dsimp only
      rw [work]

theorem blind_holderDown (l : Line) (e : LineEngine) : Blind (holderDown l e false) := by
  intro a s
  unfold holderDown
  cases e.holder with
  | slot i => exact blind_slotDown i _ a s
  | reflex =>
    dsimp only
    rw [if_neg Bool.false_ne_true, if_neg Bool.false_ne_true, queueAfterDown_eq, queueAfterDown_eq]
    rfl
  | _ => rfl

theorem blind_goDown (l : Line) : Blind (goDown l) := by
  intro a s
  have noted : Blind (noteDownCommit l) := fun a s => by
    rw [noteDownCommit_eq, noteDownCommit_eq]
    rw [withAdmin_engine]
    split
    · exact blind_noteLostCommit l .garbled a s
    · rfl
  rw [goDown_eq, goDown_eq, withAdmin_engine, blind_createNotice, noted]
  rfl

theorem allHeard_blind {l : Line} {s : State} (uncut : s.cutting l = false) :
    allHeard l (withAdmin none s) = withAdmin none (allHeard l s) := by
  have free : (withAdmin none s).cutting l = false := rfl
  unfold allHeard holderHeard
  rw [free, uncut, withAdmin_engine, blind_goDown, blind_holderDown, blind_visitAll]

/-! ## The settings that waited for the grant's end -/

theorem judgedState_congr {n m : State} (usable : ∀ l, (m.engine l).state = (n.engine l).state)
    (out : ∀ q, (m.resultRing q).out = (n.resultRing q).out) (w : WorkRing) :
    judgedState m w = judgedState n w := by
  unfold judgedState holdCondition
  rw [usable, out]

/-- The settings of a line change no hold condition of its rings. -/
theorem judgeRings_withSettings {l : Line} {c : LineConfig} {code : Byte} {tag : Word} {n m : State}
    (h : WithSettings l c code tag n m) :
    WithSettings l c code tag (judgeRings n) (judgeRings m) := by
  obtain ⟨engine, otherEngine, table, admin, answer, results, otherResults, rest⟩ := h
  have states : ∀ k, (m.engine k).state = (n.engine k).state := fun k => by
    rcases eq_or_ne k l with rfl | other
    · rw [engine]
    · rw [otherEngine k other]
  have out : ∀ q, (m.resultRing q).out = (n.resultRing q).out := fun q =>
    (congrArg ResultRing.out (results q) :)
  have rings : m.workRing = n.workRing :=
    funext fun r => (congrArg (fun v : State => v.workRing r) rest :)
  have judged : (judgeRings m).work = (judgeRings n).work := by
    show Vector.ofFn _ = Vector.ofFn _
    congr 1
    funext r
    rw [rings, judgedState_congr states out]
  obtain ⟨entry, otherTable, buffer, lost⟩ :=
    lineSet_over (s := judgeRings n) table rfl rfl rfl rfl rfl
  refine ⟨engine, otherEngine, ⟨entry, otherTable, buffer, lost⟩, admin, answer, results,
    otherResults, ?_⟩
  have kept := congrArg (fun v : State => { v with work := (judgeRings m).work }) rest
  refine Eq.trans kept ?_
  rw [judged]
  rfl

/-- A line that goes to DOWN in a grant for whose end a LINE_SET waits. -/
theorem down_sets {l : Line} {c : LineConfig} {code : Byte} {tag : Word} {s n : State}
    (live : s.device ≠ .halted) (usable : (s.engine l).state.usable = true)
    (low : 50 ≤ (s.engine l).lowTimer) (sense : (s.engine l).sense = false)
    (held : (s.engine l).holder ≠ .none) (admin : s.admin = some ⟨code, tag, .settingLine l c⟩)
    (active : (s.resultRing 0).out.state = .active) (hn : n = enterDown l { s with admin := none }) :
    ∃ t₀ m t, exec (.lowTimerExpiry l) { s with admin := none } = .next t₀ ∧ After l n t₀ ∧
      exec (.lowTimerExpiry l) s = .next t ∧ After l m t ∧ WithSettings l c code tag n m := by
  subst hn
  have uncut : s.cutting l = false := by
    unfold State.cutting
    rw [admin]
  have rest := allHeard_rest l s
  have plain : enterDown l { s with admin := none } =
      judgeRings (grantEnded l (withAdmin none (allHeard l s))) := by
    rw [← allHeard_blind uncut, enterDown_eq]
    exact congrArg Machine.judgeRings (if_neg held)
  have whole : enterDown l s = judgeRings (grantEnded l (allHeard l s)) := by
    rw [enterDown_eq, if_neg held]
  refine ⟨_, enterDown l s, _, exec_lowTimer (s := { s with admin := none }) live usable low sense,
    afterLine_after l _, exec_lowTimer live usable low sense, afterLine_after l _, ?_⟩
  rw [plain, whole]
  exact judgeRings_withSettings (grantEnded_withSettings (rest.admin.trans admin)
    ((rest.since.out 0).symm ▸ active))

end Sys2Proof.DownRequests

/-! The entry of a line to DOWN that ends a grant for which a cut waits. -/

namespace Sys2Proof.DownCuts

open Sys2Proof Sys2Proof.Machine Sys2Proof.Safety Sys2Proof.Laws Sys2Proof.NodeTable
  Sys2Proof.Registers Sys2Proof.RingFaults Sys2Proof.FieldLines Sys2Proof.SlotEnds Sys2Proof.Reports
  Sys2Proof.Steps Sys2Proof.CallEnds Sys2Proof.Rounds Sys2Proof.Discoveries Sys2Proof.Windows
  Sys2Proof.CommitSteps Sys2Proof.SlotDeadlines Sys2Proof.Fills Sys2Proof.Firings
  Sys2Proof.SlotRounds Sys2Proof.Aborts Sys2Proof.GrantEnds Sys2Proof.Settings Sys2Proof.Blindness
  Sys2Proof.Cuts Sys2Proof.CutRequests Sys2Proof.HeldCuts Sys2Proof.CutKinds Sys2Proof.WindowCuts
  Sys2Proof.Downs Sys2Proof.DownHolders Sys2Proof.DownKinds Sys2Proof.DownCommits Sys2Proof.DownRuns
  Sys2Proof.DownRequests

/-! ## The holder under a cut -/

/-- The work of a slot that a cut ends as its line goes to DOWN (R86, R108). -/
def downCutWork (e : LineEngine) : Work → Work
  | .call w => .call { w with allGarbled := false }
  | .param w => .param { w with
      polls := if w.phase = some .poll ∨ w.phase = some .final then min 255 (w.polls + 1) else w.polls
      unverified := w.unverified ||
        (w.phase == some .commit && (e.state == .awaiting || e.state == .receiving)) }
  | v => v

/-- A slot that holds a line as the line goes to DOWN, before the cut that waits ends it. -/
def downCutForm (e : LineEngine) (x : Slot) : Slot :=
  { x with
    tries := (e.step.map fun st => st.tries).getD 0
    work := downCutWork e x.work }

theorem cutForm_down (e : LineEngine) (x : Slot) :
    cutForm e.triesBegun none (downNoted e x) = downCutForm e x := by
  rw [cutForm_at_once]
  unfold downCutForm
  by_cases commit : ∃ w, x.work = .param w
  · obtain ⟨w, work⟩ := commit
    rw [downNoted_work work, work]
    rfl
  · rw [downNoted_plain (not_exists.1 commit)]
    cases work : x.work with
    | param w => exact absurd ⟨w, work⟩ commit
    | _ => rfl

theorem downNoted_known {e : LineEngine} {x : Slot} (known : x.work ≠ .unknown) :
    (downNoted e x).work ≠ .unknown := by
  unfold downNoted
  split
  · exact mt noted_known.1 known
  · exact known

/-- The holder's slot under a cut, as an end. -/
theorem slotCut_down {l : Line} {s g : State} {i : SlotId} {x : Slot}
    (holder : (s.engine l).holder = .slot i) (cut : s.cutting l = true) (known : x.work ≠ .unknown)
    (own : g.slot i = some (downNoted (s.engine l) x)) :
    holderDown l (s.engine l) (s.cutting l) g =
      carryOut i g (.ends (downCutForm (s.engine l) x) .lineReset) := by
  unfold holderDown
  rw [holder, cut]
  dsimp only
  rw [if_pos rfl, slotCut_eq own (downNoted_known known), tableFollows_none, cutForm_down]

theorem holder_cut {l : Line} {s : State} {i : SlotId} {x : Slot}
    (holder : (s.engine l).holder = .slot i) (slot : s.slot i = some x) (cut : s.cutting l = true)
    (known : x.work ≠ .unknown) :
    EndedBy .lineReset i (downCutForm (s.engine l) x) s (allHeard l s) :=
  (endedBy_iff (.inr rfl)).2 (holder_met (o := .ends (downCutForm (s.engine l) x) .lineReset) holder
    slot fun _ own => slotCut_down holder cut known own)

theorem leftEntry_committed (i : SlotId) (started : Bool) (w : ParamWork) (e : NodeEntry) :
    leftEntry i started { w with outcome := commitOutcome .lineReset false w } e =
      committed i { w with outcome := if started = true then outcomeOf true w else .none } e := by
  rw [outcome_narrow (.inr rfl)]
  cases started with
  | true => rfl
  | false =>
    unfold leftEntry committed
    simp

/-- An entry of the line once a slot that holds it has been cut. -/
def entryCut (i : SlotId) (x : Slot) (a : Addr) (e : NodeEntry) : NodeEntry :=
  match x.work with
  | .param w =>
    if a = w.addr then
      committed i { w with outcome := if x.started = true then outcomeOf true w else .none } e
    else e
  | _ => e

theorem entryEnded_cut (i : SlotId) (y : Slot) (a : Addr) (e : NodeEntry) :
    entryEnded y.line a i y .lineReset e = entryCut i y a e := by
  unfold entryCut
  by_cases commit : ∃ w, y.work = .param w
  · obtain ⟨w, work⟩ := commit
    rw [entryEnded_commit work, leftEntry_committed, work]
    simp only [true_and, eq_comm]
  · rw [entryEnded_plain fun w work => absurd ⟨w, work⟩ commit]
    cases work : y.work with
    | param w => exact absurd ⟨w, work⟩ commit
    | _ => rfl

theorem holder_cut_entry {l : Line} {s : State} {i : SlotId} {x : Slot}
    (holder : (s.engine l).holder = .slot i) (slot : s.slot i = some x) (cut : s.cutting l = true)
    (known : x.work ≠ .unknown) (a : Addr) : (allHeard l s).entry x.line a =
      entryCut i (downCutForm (s.engine l) x) a (s.entry x.line a) := by
  have gone := goDown_gone l s
  have form := slotCut_down holder cut known (gone.held i x holder slot)
  have entry : (goDown l s).entry x.line a = s.entry x.line a :=
    (congrArg (fun v : State => v.entry x.line a) gone.rest :)
  have nodes := allHeard_nodes l s
  have same : (allHeard l s).entry x.line a = (holderHeard l s).entry x.line a := by
    unfold State.entry State.table
    rw [nodes]
  rw [same]
  unfold holderHeard
  rw [form, carryOut_entry, entry]
  exact entryEnded_cut i (downCutForm (s.engine l) x) a _

theorem allHeard_noSlot {l : Line} {s : State} (free : ∀ i, (s.engine l).holder ≠ .slot i) :
    (allHeard l s).nodes = s.nodes := by
  have nodes : (goDown l s).nodes = s.nodes := (congrArg State.nodes (goDown_gone l s).rest :)
  rw [allHeard_nodes, ← nodes]
  unfold holderHeard
  generalize goDown l s = g
  unfold holderDown
  cases holder : (s.engine l).holder with
  | slot i => exact absurd holder (free i)
  | reflex =>
    dsimp only
    split
    · rfl
    · rw [queueAfterDown_eq]
      rfl
  | _ => rfl

/-! ## The end of the cut -/

theorem cutEnds_judged {l : Line} {code : Byte} {tag : Word} {disable forget : Bool} {e : LineEngine}
    {s m : State} (h : CutEnds l code tag disable forget e s m) :
    CutEnds l code tag disable forget e s (judgeRings m) :=
  ⟨h.engine, h.queue, h.forget, h.admin, h.answer⟩

theorem cutLeft_judged {l : Line} {disable forget : Bool} {q m : State}
    (h : CutLeft l disable forget q m) : CutLeft l disable forget q (judgeRings m) :=
  ⟨h.slot, h.adds.trans (adds_of_results rfl), h.buffer, h.lost, h.queue, h.nodes⟩

/-- A line that goes to DOWN in a grant for whose end a cut waits. -/
theorem down_cuts {l : Line} {code : Byte} {tag : Word} {disable forget : Bool} {s : State}
    (live : s.device ≠ .halted) (usable : (s.engine l).state.usable = true)
    (low : 50 ≤ (s.engine l).lowTimer) (sense : (s.engine l).sense = false)
    (held : (s.engine l).holder ≠ .none)
    (admin : s.admin = some ⟨code, tag, .cutting l disable forget⟩)
    (active : (s.resultRing 0).out.state = .active) :
    ∃ m t, exec (.lowTimerExpiry l) s = .next t ∧ Worked s m ∧ After l m t ∧
      CutEnds l code tag disable forget { s.engine l with
        state := .down, quiet := false, lowTimer := 0, settle := none, listenTimer := none,
        series := none } s m ∧
      t.engine l = m.engine l ∧
      m.queue l = (if (s.engine l).holder = .reflex ∨ disable = true then [] else s.queue l) ∧
      m.buffer = (createNotice (some l) (.lineDown (s.engine l).state) s).buffer ∧
      m.lost = (createNotice (some l) (.lineDown (s.engine l).state) s).lost ∧
      (∀ r : WorkRingId, r ≠ 0 → (t.workRing r).line = l → (t.workRing r).state ≠ .active) ∧
      (∀ i x, s.slot i = some x → (s.engine l).holder ≠ .slot i → HearsDown l i x s m) ∧
      (∀ i x, s.slot i = some x → (s.engine l).holder = .slot i → x.work ≠ .unknown →
        EndedBy .lineReset i (downCutForm (s.engine l) x) s m ∧
        (forget = false → ∀ a, m.entry x.line a =
          entryCut i (downCutForm (s.engine l) x) a (s.entry x.line a))) ∧
      (forget = false → (∀ i, (s.engine l).holder ≠ .slot i) → m.nodes = s.nodes) := by
  have cut := cutting_of admin
  have rest := allHeard_rest l s
  have whole : enterDown l s = judgeRings (grantEnded l (allHeard l s)) := by
    rw [enterDown_eq, if_neg held]
  have active' : ((allHeard l s).resultRing 0).out.state = .active := by
    rw [rest.since.out]
    exact active
  obtain ⟨ends, left⟩ := grantEnded_cutEnds (e := { s.engine l with
      state := .down, quiet := false, lowTimer := 0, settle := none, listenTimer := none,
      series := none }) (rest.admin.trans admin)
    active'
    (by rw [rest.engine]; rfl) rest.since.adds
  replace ends := cutEnds_judged ends
  replace left := cutLeft_judged left
  rw [← whole] at ends left
  have run := exec_lowTimer live usable low sense
  have worked := worked_enterDown (worked_refl s) l
  have after := afterLine_after l (enterDown l s)
  generalize enterDown l s = m at *
  have unusable : (m.engine l).state.usable = false := by
    rw [ends.engine]
    split <;> rfl
  have idles := after_idles after (by rw [worked.device]; exact live) unusable
  refine ⟨m, _, run, worked, after, ends, idles.engine, ?_, left.buffer.trans rest.buffer,
    left.lost.trans rest.lost, idles.held, fun i x slot other =>
      hearsDown_later (allHeard_hears slot other) left.adds (left.slot i),
    fun i x slot holder known => ⟨endsAmong_later (holder_cut holder slot cut known) left.adds
      (left.slot i), fun keeps a => ?_⟩,
    fun keeps free => (left.nodes keeps).trans (allHeard_noSlot free)⟩
  · cases disable with
    | true =>
      rw [if_pos (.inr rfl)]
      exact ends.queue rfl
    | false =>
      rw [left.queue l (.inr rfl), rest.queue]
      unfold queueDown
      rw [cut]
      simp
  · rw [← holder_cut_entry holder slot cut known a]
    unfold State.entry State.table
    rw [left.nodes keeps]

end Sys2Proof.DownCuts

/-! A line that has been high for 500 ms comes up. -/

namespace Sys2Proof.LinesUp

open Sys2Proof Sys2Proof.Machine Sys2Proof.Safety Sys2Proof.Laws Sys2Proof.NodeTable
  Sys2Proof.Registers Sys2Proof.RingFaults Sys2Proof.FieldLines Sys2Proof.SlotEnds Sys2Proof.Reports
  Sys2Proof.Steps Sys2Proof.Settings Sys2Proof.CommitSteps Sys2Proof.SlotDeadlines
  Sys2Proof.Downs Sys2Proof.DownCuts
  Sys2Proof.DownRuns Sys2Proof.DownRequests

/-! ## The listen interval timer at a grant -/

theorem granted_listenTimer (l : Line) (h : Holder) (c : Call) (limit : Nat) (s : State) :
    ((granted l h c limit s).engine l).listenTimer = (s.engine l).listenTimer := by
  unfold granted
  rw [engine_setEngine_self]

theorem grantStep_listenTimer {l : Line} {s : State} (quiet : (s.engine l).quiet = true) (h : Holder)
    (c : Call) (limit : Nat) :
    ((grantStep l h c limit s).engine l).listenTimer = (s.engine l).listenTimer := by
  rw [grantStep_quiet quiet, granted_listenTimer]

theorem grantSlot_listenTimer {i : SlotId} {x : Slot} {s : State}
    (quiet : (s.engine x.line).quiet = true) :
    ((grantSlot i x s).engine x.line).listenTimer = (s.engine x.line).listenTimer := by
  unfold grantSlot
  cases x.work with
  | unknown => rfl
  | call w => exact grantStep_listenTimer (s := s.setSlot i _) quiet _ _ _
  | sweep w =>
    dsimp only [grantSweep]
    cases w.step with
    | none => rfl
    | some a => exact grantStep_listenTimer (s := s.setSlot i _) quiet _ _ _
  | param w =>
    dsimp only [grantCommit]
    cases (w.atGrant s x).phase with
    | none => rfl
    | some p =>
      have engine : (commitAtGrant i x (w.atGrant s x) s).engine x.line = s.engine x.line := by
        unfold commitAtGrant
        split <;> rfl
      exact (grantStep_listenTimer (by rw [engine]; exact quiet) _ _ _).trans
        (congrArg LineEngine.listenTimer engine :)
  | discover w =>
    dsimp only [grantDiscover]
    cases (discoverAtGrant w s).1.stepCall with
    | none => rfl
    | some c =>
      have engine : (discoverAtGrant w s).2.engine x.line = s.engine x.line := by
        unfold discoverAtGrant
        cases w.phase <;> rfl
      exact (grantStep_listenTimer (s := (discoverAtGrant w s).2.setSlot i _)
        (by rw [← engine] at quiet; exact quiet) _ _ _).trans
        (congrArg LineEngine.listenTimer engine :)

theorem grantListen_listenTimer {l : Line} {s : State} {sr : Series}
    (quiet : (s.engine l).quiet = true) (series : (s.engine l).series = some sr) :
    ((grantListen l s).engine l).listenTimer = (s.engine l).listenTimer := by
  unfold grantListen
  dsimp only
  rw [series, grantStep_listenTimer (by rw [engine_setEngine_self]; exact quiet),
    engine_setEngine_self]

/-- A decision of the arbiter without listen-due leaves the listen interval timer. -/
theorem arbiter_listenTimer {l : Line} {s : State} (due : (s.engine l).listenDue = false) :
    ((arbiter l s).engine l).listenTimer = (s.engine l).listenTimer := by
  unfold arbiter
  split
  · next may =>
    have quiet := (lineFree_iff.1 may.2).2.2
    split
    · unfold grantReflex
      split
      · rfl
      · exact grantStep_listenTimer quiet _ _ _
    · split
      · next wanted =>
        unfold listenWanted at wanted
        rw [due, Bool.or_false, Bool.and_eq_true] at wanted
        obtain ⟨sr, series⟩ := Option.isSome_iff_exists.1 wanted.2
        exact grantListen_listenTimer quiet series
      · split
        · next i x chosen =>
          obtain ⟨_, _, line⟩ := chooseSlot_ready chosen
          subst line
          exact grantSlot_listenTimer quiet
        · rfl
  · rfl

theorem after_engine {l : Line} {m t : State} (after : After l m t) :
    EngineKept (m.engine l) (t.engine l) ∧
      ((m.engine l).listenDue = false → (t.engine l).listenTimer = (m.engine l).listenTimer) := by
  obtain ⟨n, settled, served⟩ := after
  have engine : t.engine l = n.engine l := by
    unfold State.engine
    rw [served.lines]
  rw [engine]
  refine ⟨settled.kept.engine, fun due => ?_⟩
  rw [settled.exact]
  unfold settleLine
  rw [judgeLine_engine, ← judgeLine_engine l m l]
  exact arbiter_listenTimer (by rw [judgeLine_engine]; exact due)

/-! ## The line comes up -/

/-- The state of a line that has come up, before its slots are judged. -/
def lineUp (l : Line) (s : State) : State :=
  judgeRings (createNotice (some l) (.lineUp (s.engine l).origin)
    (s.setEngine l ((s.engine l).restored s.ms)))

theorem exec_debounce {l : Line} {s : State} {d : Word} (live : s.device ≠ .halted)
    (restoring : (s.engine l).state = .restoring) (debounce : (s.engine l).debounce = some d)
    (reached : (s.ms - d).toNat < 2 ^ 31) :
    exec (.debounceExpiry l) s = .next (afterLine l (lineUp l s)) := by
  show Host.Outcome.next (debounceExpires l s) = _
  unfold debounceExpires
  dsimp only
  rw [if_pos ⟨live_of_ne live, restoring, by rw [debounce]; exact due_some reached⟩]
  rfl

theorem lineUp_rest (l : Line) (s : State) : { lineUp l s with
    work := s.work, lines := s.lines, buffer := s.buffer, lost := s.lost } = s := by
  have rest := createNotice_rest (some l) (.lineUp (s.engine l).origin)
    (s.setEngine l ((s.engine l).restored s.ms))
  exact (congrArg (fun v : State => { v with work := s.work, lines := s.lines }) rest :)

theorem line_comes_up {l : Line} {s : State} {d : Word} (live : s.device ≠ .halted)
    (restoring : (s.engine l).state = .restoring) (debounce : (s.engine l).debounce = some d)
    (reached : (s.ms - d).toNat < 2 ^ 31) :
    ∃ m t, exec (.debounceExpiry l) s = .next t ∧ Worked s m ∧ After l m t ∧
      m.engine l = { s.engine l with
        state := .idle, debounce := none, quiet := true
        settle := if (s.engine l).config.settle = 0 then none
          else some (s.ms + BitVec.ofNat 32 (s.engine l).config.settle)
        listenTimer := some (s.ms + BitVec.ofNat 32 (s.engine l).config.listenInterval) } ∧
      m.buffer = (createNotice (some l) (.lineUp (s.engine l).origin) s).buffer ∧
      m.nodes = s.nodes ∧ m.queues = s.queues ∧ (∀ i, m.slot i = s.slot i) ∧
      (t.engine l).state.usable = true ∧ (t.engine l).settle = (m.engine l).settle ∧
      ((s.engine l).listenDue = false → (t.engine l).listenTimer = (m.engine l).listenTimer) := by
  have engine : (lineUp l s).engine l = (s.engine l).restored s.ms := by
    refine (createNotice_engine (some l) (.lineUp (s.engine l).origin)
      (s.setEngine l ((s.engine l).restored s.ms)) l).trans ?_
    exact engine_setEngine_self s l _
  have rest := lineUp_rest l s
  have buffer : (lineUp l s).buffer =
      (createNotice (some l) (.lineUp (s.engine l).origin) s).buffer :=
    (createNotice_congr (u := s.setEngine l ((s.engine l).restored s.ms)) (v := s) rfl rfl rfl
      _ _).2.1
  have worked : Worked s (lineUp l s) :=
    worked_judgeRings (worked_createNotice (worked_setEngine (worked_refl s) l _) _ _)
  have after := afterLine_after l (lineUp l s)
  have run := exec_debounce live restoring debounce reached
  generalize lineUp l s = m at *
  obtain ⟨kept, timer⟩ := after_engine after
  refine ⟨m, _, run, worked, after, engine, buffer, (congrArg State.nodes rest :),
    (congrArg State.queues rest :), fun i => (congrArg (fun v : State => v.slot i) rest :), ?_,
    kept.settle, fun due => timer ?_⟩
  · rw [kept.usable, engine]
    rfl
  · rw [engine]
    exact due

/-! ## The statement -/

/-- Settles O33. -/
theorem linesGoDownAndComeUp : Obligations.LinesGoDownAndComeUp := by
  refine ⟨fun l s live usable low sense waits => line_goes_down live usable low sense waits,
    fun l c code tag s n live usable low sense held admin active hn =>
      down_sets live usable low sense held admin active hn,
    fun l code tag disable forget s live usable low sense held admin active => ?_,
    fun l s d live restoring debounce reached => line_comes_up live restoring debounce reached⟩
  obtain ⟨m, t, run, worked, after, ends, engine, queue, buffer, lost, rings, hears, cut, nodes⟩ :=
    down_cuts live usable low sense held admin active
  refine ⟨m, t, run, worked, after, ends, engine, queue, buffer, lost, rings, hears,
    fun i x x' slot holder known hx => ?_, nodes⟩
  have form : x' = downCutForm (s.engine l) x := by
    rw [hx]
    unfold downCutForm
    cases x.work <;> rfl
  obtain ⟨own, entry⟩ := cut i x slot holder known
  rw [form]
  refine ⟨own, fun keeps a => (entry keeps a).trans ?_⟩
  unfold entryCut
  cases work : (downCutForm (s.engine l) x).work with
  | param w => rfl
  | _ => rfl

end Sys2Proof.LinesUp
